-- ==== Sys2Proof/Word.lean ====
section
/-!
DEFINITION. The widths the manual gives its values (R8, R9): bytes, 32-bit words and 64-bit words, and the
byte string of a little-endian record.
-/
namespace Sys2Proof

/-- One byte of memory or of a message. -/
abbrev Byte := BitVec 8

/-- A 32-bit register, message or serial word (R9). -/
abbrev Word := BitVec 32

/-- A 64-bit register, tally or counterfoil (R9, R96). -/
abbrev DWord := BitVec 64

/-- A command descriptor: 128 bytes, byte `i` in bits `8i + 7 : 8i` (R413, little-endian by R8). -/
abbrev Desc := BitVec 1024

end Sys2Proof
end

