-- ==== Sys2Proof/Syntax.lean ====
section
/-!
DEFINITION. The commands of the block: one constructor of `Instr` per row of the opcode table, in the table's order.

The table gives no operand fields, so the operands here are what the governing rule of each row says the step takes from
outside the block: the requester and value of a register write, the identity of an op, port, channel or clerk, a measured
sample, the outcome of a physical process (a lane that trains, a stack that fails training, a margin that does not verify),
or the bytes that a DMA, a frame or a flash read returned.
-/
namespace Sys2Proof

/-- Who issues a register access (R77, R135, R209, R223, R332): function `a` of the PCIe endpoint (the PF is function 0,
R374), one of the six clerks (R293), or a board image hook component (R199). -/
inductive Req where
  | fn (a : Nat)
  | sec | svc | pwr | fab | dsa | dsb | hook
deriving DecidableEq, Repr, Inhabited

/-- What a DMA read of host memory returned (check 3 of R203, R310, R433). -/
inductive Fetch where
  | ok (bytes : List Byte)
  | timeout
  | poison
  | refused
deriving DecidableEq, Repr, Inhabited

/-- How a DMA write to host memory ended (R313, R434). -/
inductive DmaEnd where
  | ok | timeout | poison | refused
deriving DecidableEq, Repr, Inhabited

/-- What programming one OTP row gave (R167): the extra pulses used, the bits of the row that still fail the strict-margin
verify, those of them that read 0 at normal margin too, the bits outside the target that read 1 after the pulses, and the code (THERMAL or
POWER) of a condition of R169 that arose before all pulses were given (0 for none). -/
structure Burn where
  extra : Nat
  bad : Nat
  low : Nat
  high : Nat
  stop : Nat
deriving DecidableEq, Repr, Inhabited

/-- The board's lines to a flash (R240, R254): the DQ lines shorted to a supply, to ground or to another line, the open lines (DQ in bits
7:0, SCK in bit 8, the select in bit 9), the swapped DQ lines, the sample delays at which the read of step 3 passes at 75 MHz (a mask), and
whether a wide read agrees with the one-lane read on intact lines. -/
structure FlashLines where
  shorted : Nat
  openLines : Nat
  swapped : Nat
  rxPass : Nat
  wideOk : Bool
deriving DecidableEq, Repr, Inhabited

/-- The lines to a flash and the bytes of its SFDP space (R240). -/
structure FlashCheck extends FlashLines where
  sfdp : List Byte
deriving DecidableEq, Repr, Inhabited

/-- What the monitor of REFCLK and the PLL finds (R46, R47): whether the PLL lost its lock, and the frequency measured, in kHz. -/
structure ClockFault where
  pllLost : Bool
  refKhz : Nat
deriving DecidableEq, Repr, Inhabited

/-- The bits that the controller has clocked into the slave in the current word, and the word that they make when there are 32 (R244, R246). -/
structure SlaveBits where
  count : Nat
  word : Word
deriving DecidableEq, Repr, Inhabited

/-- A message port as a send finds and leaves it (R297, R298): its number, the messages that its receiver took from it since the last send, and
the component of the sender's clerk to which control passes with the message. -/
structure PortUse where
  port : Nat
  taken : Nat
  runs : Option Nat
deriving DecidableEq, Repr, Inhabited

/-- How a vector's mask comes to stand (R378): the mask, and the access to the table in BAR 4 that wrote it, if one did: offset, size and byte
enables (R66). -/
structure MaskWrite where
  masked : Bool
  access : Option (Nat × Nat × Nat)
deriving DecidableEq, Repr, Inhabited

/-- What the board presents when PERST_N rises (R182, R198, R240): the strap, the select 0 flash with the bytes that stand at its board image
offsets, the channels whose regulator reports a VOUT_MODE format that SUP does not accept (R129), and the 64-bit words of the Vault's
shadow that restore with an uncorrectable error, with the number of corrected ones (R270). -/
structure BootEnv where
  restoreBad : List Nat
  restoreCorr : Nat
  strap : Nat
  badFormat : Nat
  flash : FlashCheck
  primary : List Byte
  backup : List Byte
deriving DecidableEq, Repr, Inhabited

/-- What a PMBus transaction set with one bound channel returned (R130, R132): `fail` when it was not acknowledged or failed
PEC after its retries. -/
structure PmbResult where
  channel : Nat
  fail : Bool
  vout : Nat
  iout : Nat
  temp : Nat
  status : Nat
deriving DecidableEq, Repr, Inhabited

/-- One DATA packet as received by a fabric port (R595, R596). `e2eOk` says that FCS and E2E_CRC verify. -/
structure Packet where
  fcsOk : Bool
  etherOk : Bool
  e2eOk : Bool
  resvOk : Bool
  chan : Nat
  plane : Nat
  first : Bool
  last : Bool
  retx : Bool
  poison : Bool
  srcNode : Nat
  dstNode : Nat
  system : Nat
  seq : Nat
  session : Nat
  msgSeq : Nat
  msgLen : Nat
  offset : Nat
  kind : Nat
  srcAcct : Nat
  dstAcct : Nat
  dstWin : Nat
  status : Nat
  dstOffset : Nat
  rtally : Nat
  reqSeq : Nat
  value : Nat
  payload : List Byte
deriving DecidableEq, Repr, Inhabited

/-- A HELLO frame as received (R588). -/
structure Hello where
  system : Nat
  srcNode : Nat
  port : Nat
  accepted : Bool
deriving DecidableEq, Repr, Inhabited

/-- A partial-attention request: the 64-byte header of R565 and the MXFP8 E4M3 groups of Q, with the node that sent it
(the chip's own node for the other half). -/
structure PartReq where
  srcNode : Nat
  peer : Bool
  reqSeq : Nat
  ref : Nat
  gen : Nat
  layer : Nat
  libver : Nat
  flags : Nat
  qrows : Nat
  qheads : Nat
  pos0 : Nat
  scale : Nat
  lo : Nat
  hi : Nat
  l : Nat
  firstPage : Nat
  pageCount : Nat
  homeFolio : Nat
  q : List Byte
deriving DecidableEq, Repr, Inhabited

/-- One partial (R559): maximum, sum and output vector, as FP32 patterns. The empty partial is M 0xFF80_0000 with L and O 0
(R565). -/
structure Partial where
  m : Nat
  l : Nat
  o : List Nat
deriving DecidableEq, Repr, Inhabited

/-- One node of the tree of R562 with a partial for each query row and head in order (R565). -/
structure PartNode where
  level : Nat
  index : Nat
  parts : List Partial
deriving DecidableEq, Repr, Inhabited

/-- A partial-attention response (R565). -/
structure PartRsp where
  code : Nat
  info : Nat
  nodes : List PartNode
deriving DecidableEq, Repr, Inhabited

/-- A COLL message as received (R664), with the transport facts its receiver checks (R666). `epoch` is the 64-bit counterfoil field.
`vals` are the payload's integers under ENC 1 and 2, and its bytes under ENC 0 and 3. -/
structure CollMsg where
  srcNode : Nat
  srcAcct : Nat
  dstAcct : Nat
  group : Nat
  stage : Nat
  enc : Nat
  srcRank : Nat
  epoch : Nat
  step : Nat
  chunk : Nat
  rosterHash : Nat
  tag : Nat
  code : Nat
  count : Nat
  shape : Nat
  vals : List Int
deriving DecidableEq, Repr, Inhabited

/-- The commands: one constructor per row of the opcode table. -/
inductive Instr where
  -- reset and boot (R182-R190, R776)
  | perstNAssert
  | perstNDeassert (env : BootEnv)
  | haltFaultFrame
  | hookReturn (code : Nat)
  | hookTimeout
  | bootRailsOn
  | bootRailsTimeout
  | marchDone (badTiles badBanksA badBanksB badEngines : Nat) (log : List Nat)
  | hbmTrainDone (failed : Nat)
  | pcieReady
  -- register pages and posting (R61-R108)
  | registerWrite (req : Req) (off size be value : Nat)
  | absentPageWrite (req : Req) (off : Nat)
  | splitReadLatch (fn off : Nat)
  | stagedWrite (req : Req) (off size value : Nat)
  | cfWrite (req : Req) (off size value : Nat)
  | evtRawClear (req : Req) (page value : Nat)
  | evtEnWrite (req : Req) (page value : Nat)
  | evtForce (req : Req) (page value : Nat)
  | softReset (req : Req) (page : Nat)
  | softResetDone (page : Nat)
  | post (req : Req) (slot mask token : Nat)
  | checkOnly (req : Req) (slot mask token : Nat)
  | discard (req : Req) (slot mask token : Nat)
  | discardDone (slot : Nat)
  | cancel (req : Req) (slot mask token : Nat)
  | postCheckDone (slot : Nat)
  | postStrobe (slot : Nat)
  | postApply (slot badFormat : Nat)
  | postRecheckDone (slot : Nat) (inTime : Bool)
  -- clocks and die link (R42-R60)
  | clkHostDiv (req : Req) (div : Nat)
  | clkPwrDiv (req : Req) (div : Nat)
  | cclkChangeDone
  | clockGlitch (found : ClockFault)
  | dlkFlitCrcFail (half replays : Nat)
  | dlkRetrainDone (ok : Bool)
  -- rails (R109-R149)
  | supPowerUp (req : Req)
  | supPowerDown (req : Req)
  | supGroupOn (req : Req) (groups : Nat)
  | supGroupOff (req : Req) (groups : Nat)
  | senseCheckDone (ch : Nat) (mv : Int)
  | railSample (samples : List Nat) (pg : Nat)
  | railStartDelayDone (ch : Nat)
  | ssTimeout (ch : Nat)
  | railStopDelayDone (ch : Nat)
  | dischargeTimeout (ch : Nat)
  | railBackoffDone (ch : Nat)
  | retryCounterReset (ch : Nat)
  | thermtrip
  | holdReversed
  | pmbPoll (res : List PmbResult)
  | pmbAlert (res : List PmbResult)
  | railSetWrite (req : Req) (ch mv : Nat)
  -- fuses (R150-R181)
  | otpProgram (a p : Nat) (m : Fetch) (wr : DmaEnd) (burns : List Burn)
  | otpSeal (a p : Nat) (m : Fetch) (wr : DmaEnd) (burns : List Burn)
  | otpRevoke (a p : Nat) (m : Fetch) (wr : DmaEnd) (burns : List Burn)
  | lcTransition (a p : Nat) (m : Fetch) (wr : DmaEnd) (burns : List Burn)
  | otpReadRow (req : Req) (row : Nat)
  -- firmware loading (R201-R220)
  | bootLoad (req : Req)
  | loadComplete (dma : DmaEnd) (img : List Byte)
  | bootUnload (req : Req)
  | unloadComplete
  -- serial ports (R221-R259)
  | xferStart (port : Nat) (req : Req)
  | xferFlush (port : Nat) (req : Req)
  | spxPortGrant (port : Nat)
  | xferDone (port : Nat) (rx : List Byte)
  | xipRead (req : Req) (addr n : Nat) (write : Bool)
  | xipFetchDone (bytes : List Byte)
  | spxTxdPush (port : Nat) (req : Req) (w : Word)
  | spxRxdPop (port : Nat) (req : Req)
  | slaveSelect (sckHigh : Bool)
  | slaveWord (got : SlaveBits)
  | slaveDeselect (bits : Nat)
  -- the Vault (R260-R292)
  | vltCmdStore (req : Req)
  | storeDone (durationUs : Nat)
  | vltCmdHealthTest (req : Req)
  | vltCmdResume (req : Req)
  | vwarnFall (v : Nat)
  | vwarnRise (v : Nat)
  | vstoreFall (v : Nat)
  | vstoreRise (v : Nat)
  | computeResume
  | vresetFall (v : Nat)
  | vresetRise (v : Nat)
  | lostRestart (env : BootEnv)
  | holdDomainOff
  | vholdFull
  | healthTestDone (capUf esrMohm : Nat)
  | healthRetest
  | vholdArm
  | vholdLow
  | capLost
  | capCheckSink (dropMv : Nat)
  | chargerResume
  | safeIntervalStore
  -- clerks (R293-R306, R324-R331)
  | fwpKick (n : Nat) (req : Req)
  | watchdogExpiry (n : Nat)
  | protectionFault (n addr kind : Nat) (hook : Bool)
  | doubleFault (n : Nat)
  | dumpDone (n : Nat)
  | clerkRestartDone (n : Nat)
  | portSend (n : Nat) (port : PortUse) (msg : List Byte)
  | logAppend (n comp level code arg0 arg1 arg2 : Nat)
  | logPortWrite
  | tracePoint (id src arg16 arg32 : Nat) (accepted : Bool)
  -- mailboxes (R307-R317)
  | mbxDoorbell (a fn p seq : Nat)
  | mbxBadMessage (a p : Nat) (m : Fetch) (wr : DmaEnd)
  | hello (a p : Nat) (m : Fetch) (wr : DmaEnd)
  | attach (a p : Nat) (m : Fetch) (wr : DmaEnd)
  | vpdRead (a p : Nat) (m : Fetch) (wr : DmaEnd)
  | manifestRead (a p : Nat) (m : Fetch) (wr : DmaEnd)
  | traceCfg (a p : Nat) (m : Fetch) (wr : DmaEnd)
  | dumpClear (a p : Nat) (m : Fetch) (wr : DmaEnd)
  | vaultRead (a p : Nat) (m : Fetch) (wr : DmaEnd)
  | vaultWrite (a p : Nat) (m : Fetch) (wr : DmaEnd)
  -- board management (R318-R323, R366)
  | status
  | logRead
  | dumpRead
  | flashRead (data : List Word) (lines : FlashLines) (sfdp : List Byte)
  | flashWrite (status : List Byte) (lines : FlashLines) (sfdp : List Byte)
  | flashErase (polls : Nat) (last : Byte) (lines : FlashLines) (sfdp : List Byte)
  | bmcOtpProgram (burns : List Burn)
  | bmcOtpSeal (burns : List Burn)
  | bmcOtpRevoke (burns : List Burn)
  | bmcLcTransition (burns : List Burn)
  | telemetry
  | bmcVpdRead
  | echo
  | bmcBadFrame
  | frameTimeout
  -- power and thermal control (R343-R372)
  | thmSample (temps : List Int)
  | hbmTempReadout (stack : Nat) (reading : Option Int)
  | iccEstimate (ampsA ampsB : Nat)
  | alertN (low : Bool)
  | currentClampRelease
  | thermalClampRelease
  | pwrCycle (late : Bool) (staleOver100ms : Bool)
  | hbmCapWrite (req : Req) (stack cap : Nat)
  -- host interface and accounts (R373-R406)
  | bar2Read (a off n : Nat)
  | bar2Write (a off : Nat) (bytes : List Byte) (be : List Bool)
  | accountEnable (req : Req) (a : Nat) (on : Bool)
  | drained (a : Nat)
  | scrubDone (a : Nat)
  | flr (fn : Nat)
  | flrDone (fn : Nat)
  | vfDisable (numVfs : Nat) (enable : Bool)
  | deviceReset (req : Req) (value : Nat) (env : BootEnv)
  | linkReset (env : BootEnv)
  | acctRules (a p : Nat) (m : Fetch) (wr : DmaEnd)
  | hbmZero (a p : Nat) (m : Fetch) (wr : DmaEnd)
  | hbmZeroDone (wr : DmaEnd)
  -- rings, descriptors and tallies (R407-R450)
  | ringDoorbell (fn a r tail : Nat)
  | ringEnable (fn a r : Nat)
  | ringDisable (fn a r : Nat)
  | ringReset (fn a r : Nat)
  | abortAll (fn a r : Nat)
  | ringAbort (fn a r seq : Nat)
  | abortDone (a r : Nat)
  | ringCplAck (fn a r count : Nat)
  | ringWatch (fn a r tally vector : Nat) (valid : Bool)
  | descriptorAdmit (a r : Nat) (f : Fetch) (wr : DmaEnd)
  | waitTimeout (a r seq : Nat)
  | opComplete (a r seq : Nat)
  | cplWriteFail (a r seq : Nat) (how : DmaEnd)
  | exceptionResolve (a r seq : Nat) (resume : Bool) (code : Nat)
  | tallyWrite (fn idx size value : Nat)
  -- ops of this chapter and of the tiles (R415, R438, R451-R486)
  | nop (a r seq : Nat)
  | tallyCas (a r seq : Nat)
  | copy (a r seq : Nat)
  | fill (a r seq : Nat)
  | quantise (a r seq : Nat)
  | gather (a r seq : Nat)
  | gemm (a r seq : Nat)
  | eltwise (a r seq : Nat)
  | norm (a r seq : Nat)
  | softmax (a r seq : Nat)
  | sliceBoundary (tile : Nat) (exc : Bool)
  | tileScratchError (tile : Nat)
  | tilePwrReq (req : Req) (tile value : Nat)
  | tileWakeDone (tile : Nat)
  -- memory and its integrity (R487-R538)
  | hbmRead (addr source acct symErr : Nat)
  | hbmFullWrite (addr : Nat) (bytes : List Byte)
  | hbmPartialWrite (addr source acct symErr : Nat) (bytes : List Byte) (be : List Bool)
  | hbmXferRetry (stack tries : Nat)
  | hbmRetrainDone (stack : Nat) (ok : Bool)
  | stackFault (stack : Nat)
  | hbmRefresh (stack : Nat)
  | scrubLine (stack symErr : Nat)
  | odeccPoll (stack count : Nat)
  | errEntryRead (page size : Nat)
  | bankAccess (half addr source acct bitErr : Nat) (wr : Option (List Byte × List Bool))
  | bankPwrReq (req : Req) (half reg value : Nat)
  | bankPwrReached (half bank : Nat)
  | bankWakeDone (half bank : Nat)
  | bankIdleReturn (half bank : Nat)
  | tamper
  | supplyGlitch (half : Nat)
  | wipeDone (half badMask : Nat)
  | bankOfflineReq (req : Req) (half mask : Nat)
  | bankOffline (half bank : Nat)
  | mteStart (req : Req) (half value : Nat)
  | mteDone (half failRows free : Nat) (poisonedWords : List Nat) (log : List Nat)
  | repairLogRead (half size : Nat)
  -- folios (R539-R580)
  | folioOpen (a r seq : Nat)
  | folioClose (a r seq : Nat)
  | folioLink (a r seq : Nat)
  | appendKv (a r seq : Nat)
  | attend (a r seq : Nat)
  | folioOpUnblock (a r seq : Nat)
  | partReq (m : PartReq)
  | partRsp (reqSeq : Nat) (m : PartRsp)
  | folQuery (req : Req) (half value : Nat)
  -- the Dunist fabric (R581-R633)
  | portEnable (req : Req) (p : Nat)
  | portDisable (req : Req) (p : Nat)
  | portRetrain (req : Req) (p : Nat)
  | trainingDone (p laneOk inverted : Nat)
  | trainingTimeout (p : Nat) (noSignal : Bool)
  | laneFail (p lanes : Nat)
  | fabricHello (p : Nat) (h : Hello)
  | helloTimer (p : Nat)
  | helloTimeout (p : Nat)
  | adaptStart (p : Nat)
  | adaptDone (p : Nat)
  | downRetry (p : Nat)
  | signalDetect (p : Nat)
  | partnerRetrain (p : Nat)
  | lossOfSignal (p : Nat)
  | linkWaitExpiry (p : Nat)
  | fabricGrant (p : Nat)
  | fabricData (p : Nat) (pk : Packet)
  | fabricAck (srcNode chan seq : Nat)
  | fabricNack (srcNode chan seq : Nat)
  | ackTimer (srcNode chan : Nat)
  | rtoExpiry (dstNode chan : Nat)
  | pfcPause (p prio quanta : Nat)
  | fabWrite (a r seq : Nat)
  | fabRead (a r seq : Nat)
  | write (srcNode msgSeq : Nat)
  | readReq (srcNode msgSeq : Nat)
  | readRsp (srcNode msgSeq : Nat)
  | writeDone (srcNode msgSeq : Nat)
  | control (srcNode msgSeq : Nat)
  | fabricReqTimeout (a r seq : Nat)
  | syncTimer (p : Nat) (pdelay : Bool)
  | sync (offset : Int)
  | pdelay (delay : Nat)
  | announce (synced : Bool)
  | syncMiss
  | tsyStep (req : Req) (ns : Int)
  | tsyRate (req : Req) (rate : Int)
  | timeSet (a p : Nat) (m : Fetch) (wr : DmaEnd)
  | fabricStatus (a p : Nat) (m : Fetch) (wr : DmaEnd)
  -- collectives (R634-R685)
  | allReduce (a r seq : Nat)
  | reduceScatter (a r seq : Nat)
  | allGather (a r seq : Nat)
  | broadcast (a r seq : Nat)
  | allToAll (a r seq : Nat)
  | collIssueUnblock (a r seq : Nat)
  | collReady (m : CollMsg)
  | rosterDecide (a r seq : Nat)
  | collRoster (m : CollMsg)
  | collExp (m : CollMsg)
  | collData (m : CollMsg) (residueFails : Nat)
  | collClose (m : CollMsg) (residueFails : Nat)
  | collError (m : CollMsg)
  | collTimeout (a r seq : Nat)
  | earlyArrivalExpiry (half : Nat)
  | groupDefine (a p : Nat) (m : Fetch) (wr : DmaEnd)
  | groupPromote (a p : Nat) (m : Fetch) (wr : DmaEnd)
  | groupRelease (a p : Nat) (m : Fetch) (wr : DmaEnd)
  | groupQuery (a p : Nat) (m : Fetch) (wr : DmaEnd)
  -- Minting, update and the training step (R686-R757)
  | mint (a r seq : Nat)
  | stepClose (a r seq : Nat)
  | update (a r seq : Nat)
  | mirror (a r seq : Nat)
  | mirrorRestore (a r seq : Nat)
  | commit (a r seq : Nat)
  | commitWrite
  -- PCIe and remaining events
  | vfEnable (numVfs pfLog2 vfLog2 : Nat)
  | msixUnmask (fn vector : Nat) (enable : Bool) (mask : MaskWrite)
  | pcieLinkUp (speed width : Nat)
  | tileEnable (req : Req) (tile : Nat) (on : Bool)
  | pfcPauseExpiry (p prio : Nat)
  | rosterRetentionExpiry (group epoch step : Nat)
deriving DecidableEq, Repr, Inhabited

end Sys2Proof
end

