-- ==== Sys2Proof/Config.lean ====
section
/-!
DEFINITION. What an implementation fixes and what the manual leaves open. Every constant here is opaque: nothing in Lean can see its
value, so a claim holds for every value.
-/
namespace Sys2Proof

/-- The `n`-th byte the manual leaves undefined (log entry 6). -/
opaque Config.freeByte : Nat → Byte

/-- The `n`-th number the manual leaves open (log entry 6). -/
opaque Config.freeNat : Nat → Nat

/-- The SHA-384 hash of the Haldovas manufacturing key, fixed in SEC ROM (R184). -/
opaque Config.manufacturingKey : Nat

/-- The bits that op library version `lib` gives function `fn` (0 exp, 1 tanh, 2 sigmoid, 3 reciprocal square root) at an FP32 pattern
(R469, log entry 33). -/
opaque Config.libFn : (lib fn x : Nat) → Nat

end Sys2Proof
end

