-- ==== Sys2Proof/Machine/State.lean ====
section
/-!
DEFINITION. The state of the block as plain data, its reset, and the reasons a step can stop.

Registers live in one register file, `regs`, keyed by their byte offset in PF BAR 0 (Machine/RegMap.lean names each of them);
what the manual keeps outside registers lives in the named fields. A table (`Tbl`) lists, at strictly rising keys, only the entries
that differ from the value an unlisted key has.
-/
namespace Sys2Proof.Machine

/-- A sparse table in its one canonical form: keys strictly rising, no entry equal to the table's unlisted value. -/
abbrev Tbl (β : Type) := List (Nat × β)

/-- A phase of an operation on a serial port (R224-R226): its SCK cycles, the DQ lanes that the controller drives in it and those it samples
(masks; every other lane is high impedance), and the level of DQ[7:0] in each cycle it drives. Data is launched on the falling edge of SCK and
sampled on the rising one (R228). -/
structure SpiPhase where
  cycles : Nat
  drive : Nat
  sample : Nat
  dq : List Nat
deriving DecidableEq, Repr, Inhabited

/-- An operation of a controller port: its select, the SCK period and the setup, hold and gap of the select in MCLK cycles (R227, R229), the
idle level of SCK (high in mode 3, R228), the sample delay in 0.25 ns steps (R230), and its phases in order. -/
structure SpiOp where
  port : Nat
  sel : Nat
  period : Nat
  setup : Nat
  hold : Nat
  gap : Nat
  idleHigh : Bool
  rxDly : Nat
  phases : List SpiPhase
deriving DecidableEq, Repr, Inhabited

/-- What the block has sent to the outside, newest first: a record of what left it. -/
inductive Out where
  /-- An MSI-X message of a function (R378). -/
  | msix (fn vector : Nat)
  /-- A Jezama message written to host memory: account, pair (2: a notice), bus address, bytes (R307, R314). -/
  | jezama (acct pair addr : Nat) (bytes : List Byte)
  /-- VOUT_COMMAND to the regulator of a channel (R131). -/
  | vout (channel mv : Nat)
  /-- One period of FAULT_N as (level, milliseconds) phases (R174). -/
  | faultFrame (phases : List (Bool × Nat))
  /-- A completion record written to host memory: account, ring, bus address, 32 bytes (R424). -/
  | record (acct ring addr : Nat) (bytes : List Byte)
  /-- What a memory access returned to its requester: data, or a status code (R493, R508). -/
  | memData (addr : Nat) (bytes : List Byte)
  | memFail (addr code : Nat)
  /-- What a register read that has an effect returned (R67, R176, R504, R527). -/
  | regRead (off value : Nat)
  /-- A hook of the board image is called at an address of SEC's map (R199). -/
  | hookCall (hook entry : Nat)
  /-- What a read of an execute-in-place window returned (R235), or the bus error of R234. -/
  | xipData (sel off : Nat) (bytes : List Byte)
  | xipError (sel off : Nat)
  /-- An operation of a controller port on its balls: a transfer, a line fetch or an exit sequence (R224-R237). -/
  | spi (op : SpiOp)
  /-- The levels that SEC drives on DQ[7:0] of SPX0 with every select released, one after the other (step 2 of R240). -/
  | dqPatterns (levels : List Nat)
  /-- A word SPX1 sent as a slave: the levels of DQ1, bit 31 first, the first of them driven from the select assertion (mode 0) or from the
  first falling edge (mode 3) (R244, R245). -/
  | spiWord (w : Word) (dq1 : List Bool) (fromSelect : Bool)
  /-- PCX answered a configuration request with Request Retry Status, a memory read with Unsupported Request (R186, R395). -/
  | retryStatus (fn : Nat)
  | unsupportedRequest (fn off : Nat)
  /-- A frame a fabric port sent, by its kind: training, HELLO, ACK, NACK, Sync, Pdelay (R588, R600, R616). -/
  | frame (port kind a b : Nat)
  /-- A DATA packet sent: port, destination, channel, SEQ, offset in its message, length (R595, R598). -/
  | packet (port dst chan seq off len : Nat) (retx poison : Bool)
deriving DecidableEq, Repr, Inhabited

/-- A posting slot beside its registers (R79, R80, R87): the running action (0 POST, 1 CHECK_ONLY, 2 DISCARD), its mask, its TIMED
bit and instant, whether its apply strobe is issued, and whether the second check of R90 runs. -/
structure PostSlot where
  action : Nat
  mask : Nat
  timed : Bool
  time : Nat
  strobed : Bool
  recheck : Bool
deriving DecidableEq, Repr, Inhabited

/-- A rail channel beside its registers: the level of RAIL_EN, the last good decision, the previous sample (rail millivolts and
RAIL_PG), whether SUP wants it on, whether its sense check has passed since the last power-up, the state that follows DISCHARGE,
the dependents whose confirmed off it waits for in STOP_WAIT, a set-point held while the channel is stale, the fault conditions shown
since it was last good (bit 0 UV, 1 OV, 2 PG_LOST; R118), and the regulator's last temperature and STATUS_WORD (R130). -/
structure Rail where
  en : Bool
  good : Bool
  prev : Option (Nat × Bool)
  wanted : Bool
  sensed : Bool
  after : Nat
  waitOn : Nat
  held : Option Nat
  shown : Nat
  temp : Nat
  status : Nat
deriving DecidableEq, Repr, Inhabited

/-- Who waits for the end of a store: a Jezama request, a board management request, the step commit, or nobody. -/
inductive StoreWaiter where
  | vaultWrite (a p : Nat)
  | lcJezama
  | lcBmc
  | commit
deriving DecidableEq, Repr, Inhabited

/-- A running store: its source (R266), the snapshot, the global time of the snapshot edge, and who waits for its end. -/
structure StoreRun where
  source : Nat
  auto : Bool
  snapshot : Tbl Byte
  time : Nat
  waiters : List StoreWaiter
deriving DecidableEq, Repr, Inhabited

/-- The Vault (R260-R284): SRAM, shadow and seal, whether the SRAM is unwritten since the last completed snapshot, the running store and the
requests merged behind it, the conditions of ARMED, the health test (due, running, to be repeated), whether an AUTO crossing met the
running store, the local time of the last WARN entry, whether the hold domain runs on VHOLD, the local times at which VMAIN_SNS rose
above VSTORE and VRESET, whether a RESUME waits for the end of a power-down, and whether a resume is in progress. -/
structure Vault where
  sram : Tbl Byte
  shadow : Tbl Byte
  sealOpen : Bool
  clean : Bool
  run : Option StoreRun
  nextSources : List Nat
  nextWaiters : List StoreWaiter
  tested : Bool
  reached : Bool
  testDue : Bool
  testRunning : Bool
  testRetry : Bool
  autoStore : Bool
  warnLogged : Option Nat
  onHold : Bool
  storeRise : Option Nat
  resetRise : Option Nat
  resumeDue : Bool
  resuming : Bool
deriving DecidableEq, Repr, Inhabited

/-- A log entry waiting at the log port (R324-R326). -/
structure LogEntry where
  time : Nat
  comp : Nat
  level : Nat
  code : Nat
  arg0 : Nat
  arg1 : Nat
  arg2 : Nat
deriving DecidableEq, Repr, Inhabited

/-- A clerk beside its registers (R293-R303): the running component, the region table SEC placed (in the form of R330), what SEC loaded into
its local memory and its firmware SRAM share, the local time of its last kick or start, the local times of its halts and restarts,
and the facts of its last halt that its dump records. -/
structure Clerk where
  comp : Nat
  regions : List Byte
  mem : List Byte
  share : List Byte
  lastKick : Nat
  halts : List Nat
  restarts : List Nat
  haltComp : Nat
  faultAddr : Nat
  pair : Bool
deriving DecidableEq, Repr, Inhabited

/-- A Jezama pair beside its registers (R307-R313): the doorbell's SEQ, the session version, the stored reply (whole message), the
TYPE of the running request, and how the write of its reply to the host ends. -/
structure Pair where
  seq : Nat
  major : Nat
  minor : Nat
  reply : List Byte
  typ : Nat
  wr : DmaEnd
deriving DecidableEq, Repr, Inhabited

/-- The board management server (R318-R323): the words of the frame in progress, the last completed request and its reply, a reply that
waits for an empty TX FIFO, the request that runs (OPCODE and TAG), the discarded words, the selects whose SFDP it has read and its
bytes (none: the read failed). -/
structure Bmc where
  frame : List Word
  lastOp : Nat
  lastTag : Nat
  lastReply : List Word
  hasLast : Bool
  due : List Word
  busy : Option (Nat × Nat)
  discarded : Nat
  sfdpRead : Nat
  sfdp : Tbl (List Byte)
deriving DecidableEq, Repr, Inhabited

/-- The trace ring (R328, R329). -/
structure Trace where
  base : Nat
  on : Bool
  mask : Nat
  written : Nat
  dropped : Nat
deriving DecidableEq, Repr, Inhabited

/-- The phase of a lifecycle transition (R162): none, the wipe, the store, the burn. -/
inductive LcPhase where
  | none | wipe | store
deriving DecidableEq, Repr, Inhabited

/-- A lifecycle transition in progress: target, who asked (a Jezama pair or the board management frame), and the outcomes its row
programming will have. -/
structure LcRun where
  phase : LcPhase
  target : Nat
  bmc : Bool
  burns : List Burn
deriving DecidableEq, Repr, Inhabited

/-- A line of the prefetch buffer of SPX0: select, line address, bytes, and whether it was served since its fetch (R235). -/
structure XipLine where
  sel : Nat
  addr : Nat
  bytes : List Byte
  served : Bool
deriving DecidableEq, Repr, Inhabited

/-- A serial port beside its registers (R231-R246): its FIFOs, the select, length and direction (read) of the running transfer, and on SPX0
the line being fetched (select, address, whether a demand fetch, OMIT as it began), the lines held, most recently used first, the demand fetches and prefetches queued, the reads that wait for a line (select, line,
offset, length), the exit sequences that wait for the operation in progress, by select with the values they began with (R250), and on SPX1
as a slave the word that goes out in the current word and whether it is the head of the TX FIFO (R246). -/
structure Spx where
  tx : List Word
  rx : List Word
  xfer : Option (Nat × Nat × Bool)
  fetch : Option (Nat × Nat × Bool × Bool)
  lines : List XipLine
  demand : List (Nat × Nat)
  ahead : List (Nat × Nat)
  waits : List (Nat × Nat × Nat × Nat)
  exits : List (Nat × SpiOp)
  word : Option (Word × Bool)
deriving DecidableEq, Repr, Inhabited

/-- The boot chain beside its registers (R185-R210): the board content seen at PERST_N, the strap, the hook that runs, the hooks that
failed, the stage a LOAD started in, the loaded image's op library version and MANIFEST, the length of its staged copy and the
digest that SEC recorded of it (R302), the copy of the accepted board image in firmware
SRAM (R198), the flash offset it came from, and whether the start of the sequence waits for the rails to be off. -/
structure Boot where
  env : Option BootEnv
  waitOff : Bool
  started : Nat
  hook : Option Nat
  hooks : Nat
  hooksFailed : Nat
  loadFrom : Nat
  libVersion : Nat
  manifest : List Byte
  imageLen : Nat
  digest : List Byte
  board : Option (List Byte)
  boardBase : Nat
  restart : Nat
  firstPwr : Bool
deriving DecidableEq, Repr, Inhabited

/-- An access that waits for a bank to come into service (R510, R515, R521): the local time at which it was accepted, its word address,
source, account, the bit errors its read will find, and the bytes and enables of a write. -/
structure BankAccess where
  entered : Nat
  half : Nat
  addr : Nat
  source : Nat
  acct : Nat
  bitErr : Nat
  wr : Option (List Byte × List Bool)
deriving DecidableEq, Repr, Inhabited

/-- How far an admitted op is: not issued; running; held inside its engine until the engine can take it; paused on a dispatcher
exception; finished, its outcome decided and its record not yet taken (R420, R428). -/
inductive OpPhase where
  | waiting | running | held | paused | done
deriving DecidableEq, Repr, Inhabited

/-- An admitted op without an outcome record (R413, R416-R430): where it came from, its descriptor, the rule epoch of its last
check, the local time it reached the head of the issue order, the outcome it will report, whether an abort was linearised before
its record, and the banks of each half wiped since it was admitted. -/
structure Op where
  acct : Nat
  ring : Nat
  seq : Nat
  slot : Nat
  desc : Desc
  phase : OpPhase
  epoch : Nat
  since : Option Nat
  code : Nat
  info : Nat
  failOp : Nat
  detail : Nat
  abort : Bool
  wipedA : Nat
  wipedB : Nat
  prev : Nat
deriving DecidableEq, Repr, Inhabited

/-- A completion record taken for writing (R424); `prev` is RING_SEQ_ADM before its descriptor. -/
structure Rec where
  seq : Nat
  code : Nat
  dup : Bool
  signalled : Bool
  opcode : Nat
  slot : Nat
  failOp : Nat
  detail : Nat
  info : Nat
  prev : Nat
  irq : Bool
deriving DecidableEq, Repr, Inhabited

/-- A ring beside its registers: records held by R434 and whether the abort in progress is an ABORT_ALL (R431). -/
structure Ring where
  held : List Rec
  abortAll : Bool
deriving DecidableEq, Repr, Inhabited

/-- Whose turn it is (R427, R472): of each class the ring that the round robin looks at first, and the grants to NORMAL since the last one
to BULK while BULK waited. -/
structure Turns where
  urgent : Nat
  normal : Nat
  bulk : Nat
  normals : Nat
deriving DecidableEq, Repr, Inhabited

/-- A temperature sensor: latest reading in tenths of a degree, faulted, and the successive readings at or above the throttle and
trip limits (R344, R345, R352). -/
structure Sensor where
  reading : Option Int
  faulted : Bool
  hot : Nat
  trip : Nat
deriving DecidableEq, Repr, Inhabited

/-- The PWR control loop beside its registers (R356-R358): whether the loaded image has written CLK_PWR_DIV since it started, the powers since
the last change of L, newest first (10 µW units), cool_run, run of each stack, whether the current clamp asserted since the last cycle, the
level that a voltage raise leads to with the cycles it has waited, and the local time of the ROM loop's last WARN entry (R360). -/
structure PwrLoop where
  taken : Bool
  powers : List Nat
  coolRun : Nat
  capRun : Tbl Nat
  clamped : Bool
  raising : Option (Nat × Nat)
  romWarn : Option Nat
deriving DecidableEq, Repr, Inhabited

/-- The target and mode of a march test run (R518, R527): KIND, INDEX, data-preserving, with repair. -/
structure MteRun where
  kind : Nat
  index : Nat
  preserving : Bool
  repair : Bool
deriving DecidableEq, Repr, Inhabited

/-- One version of a collective group (R634): its list is in rank order. -/
structure GroupVer where
  epoch : Nat
  tag : Nat
  axis : Nat
  policy : Nat
  threshold : Nat
  minRoster : Nat
  timeout : Nat
  list : List Nat
  rank : Nat
deriving DecidableEq, Repr, Inhabited

/-- A collective group on this chip (R636, R643): its versions and the highest STEP issued. -/
structure Group where
  live : Option GroupVer
  pending : Option GroupVer
  retained : Option GroupVer
  highest : Option Nat
deriving DecidableEq, Repr, Inhabited

/-- A fabric message in its sender (R590, R596, R598-R604): destination, channel, prologue fields, body, the offset from which its
packets go out poisoned (R610) with the failing line, the op that sent it (account, ring, SEQ), whether a response is due, the port
whose queue it entered and when, whether the arbiter granted it, its MSG_SEQ, how much of it has been sent, its resent packets, and a number that names it to its op
(a mirror granule, a run's first page). -/
structure FabMsg where
  dst : Nat
  chan : Nat
  kind : Nat
  srcAcct : Nat
  dstAcct : Nat
  dstWin : Nat
  status : Nat
  dstOffset : Nat
  rtally : Nat
  reqSeq : Nat
  value : Nat
  body : List Byte
  poisonAt : Option Nat
  owner : Option (Nat × Nat × Nat)
  port : Nat
  entered : Nat
  granted : Bool
  first : Nat
  sent : Nat
  retx : Nat
  tag : Nat
  half : Option Nat
deriving DecidableEq, Repr, Inhabited

/-- The sending side of a stream (R598, R601): next SEQ, oldest unacknowledged SEQ, its messages in queue order, granted ones
first and kept until acknowledged, and its port. -/
structure TxStream where
  next : Nat
  acked : Nat
  msgs : List FabMsg
deriving DecidableEq, Repr, Inhabited

/-- A request sent whose response is due (R613): its op, target node, channel, MSG_SEQ, port, when it entered the queue, its resent
packets, and its number within its op. -/
structure FabReq where
  owner : Nat × Nat × Nat
  dst : Nat
  chan : Nat
  seq : Nat
  port : Nat
  entered : Nat
  retx : Nat
  tag : Nat
deriving DecidableEq, Repr, Inhabited

/-- A message arriving on a stream, from its first packet (R608-R610): its prologue, bytes accepted, the outcome of the checks of its
first packet, whether a poisoned packet came, and whether its last packet was accepted. -/
structure RxMsg where
  src : Nat
  chan : Nat
  first : Nat
  len : Nat
  kind : Nat
  srcAcct : Nat
  dstAcct : Nat
  dstWin : Nat
  status : Nat
  dstOffset : Nat
  rtally : Nat
  reqSeq : Nat
  value : Nat
  bytes : List Byte
  code : Nat
  poison : Bool
  complete : Bool
deriving DecidableEq, Repr, Inhabited

/-- The receiving side of a stream (R599, R600): next expected SEQ, packets accepted since the last ACK, and the local time of the
last NACK. -/
structure RxStream where
  expect : Nat
  unacked : Nat
  nackAt : Option Nat
deriving DecidableEq, Repr, Inhabited

/-- A folio (R540, R541): its state (0 CLOSED, 1 OPEN, 2 CLOSING), record, LEN of each layer, and its page table under
131072 * layer + page within the table. -/
structure Folio where
  st : Nat
  kind : Nat
  fmt : Nat
  layers : Nat
  kvHeads : Nat
  headDim : Nat
  maxPages : Nat
  pool : Nat
  spanLog2 : Nat
  basePage : Nat
  homeNode : Nat
  homeFolio : Nat
  gen : Nat
  acct : Nat
  len : Tbl Nat
  table : Tbl Nat
deriving DecidableEq, Repr, Inhabited

/-- A page pool's free stack (R546): the slots pushed back, top first, above the slots never taken, from `next` up. -/
structure PoolStack where
  freed : List Nat
  next : Nat
deriving DecidableEq, Repr, Inhabited

/-- A run of an ATTEND (R564): its pages, its holder (none: the other half), the identity of its request, and its response. -/
structure AttendRun where
  first : Nat
  count : Nat
  node : Option Nat
  ref : Nat
  gen : Nat
  reqSeq : Nat
  rsp : Option PartRsp
deriving DecidableEq, Repr, Inhabited

/-- An ATTEND that waits for its runs (R564-R567): its op, L, the nodes that the home half computed, and its runs. -/
structure Attend where
  owner : Nat × Nat × Nat
  len : Nat
  nodes : List PartNode
  runs : List AttendRun
deriving DecidableEq, Repr, Inhabited

/-- A collective or MINT step issued on this chip (R642-R668, R687): its op and half, group version, step, deadline and SHAPE; local and
global time of its issue; the ranks whose READY came, the roster (a mask of ranks) and the rank that decided it; this member's input
as taken when the exchange starts (in a MINT its records, with the new remainders and the number of non-finite blocks); and the
contributions by stage, chunk and rank. -/
structure CollStep where
  owner : Nat × Nat × Nat
  half : Nat
  group : Nat
  ver : GroupVer
  step : Nat
  deadline : Nat
  shape : Nat
  issued : Nat
  time : Nat
  ready : List Nat
  roster : Option Nat
  origin : Nat
  own : List Byte
  ledger : List Byte
  nonFinite : Nat
  got : List ((Nat × Nat × Nat) × List Int)
deriving DecidableEq, Repr, Inhabited

/-- A roster kept by the candidate that decided it (R657): group, epoch, step, mask, the group's timeout in ms, and the local time at which
the step completed on this chip. -/
structure KeptRoster where
  group : Nat
  epoch : Nat
  step : Nat
  mask : Nat
  timeout : Nat
  doneAt : Option Nat
deriving DecidableEq, Repr, Inhabited

/-- A queued commit (R738): step, the LSC values it records, its roster bitmap, and the granules its mirror copied. -/
structure Commit where
  step : Nat
  mirrored : Bool
  user : Nat
  bitmap : List Byte
  copied : List Nat
  k : Nat
  run : Nat
  decision : Nat
  rosterCount : Nat
  rosterHash : Nat
  gnorm : Nat
  clip : Nat
  seed : Nat
  entries : List (Nat × Nat)
deriving DecidableEq, Repr, Inhabited

/-- The mirror state of a granule (R733). -/
structure Granule where
  valid : Bool
  slot : Nat
  crc : Nat
  copyStep : Nat
  dirty : Bool
deriving DecidableEq, Repr, Inhabited

/-- A MIRROR in progress (R735, R736): its op, whether it restores, the step, the granules with their slot and CRC, those not yet
sent, and those sent and not answered. -/
structure MirrorRun where
  owner : Nat × Nat × Nat
  restore : Bool
  step : Nat
  items : List (Nat × Nat × Nat)
  todo : List Nat
  busy : List Nat
  failed : Option (Nat × Nat)
  man : List Byte
deriving DecidableEq, Repr, Inhabited

/-- A post of SVC's or FAB's that a Jezama request waits for, by slot (R396, R671). -/
structure PostWait where
  a : Nat
  p : Nat
  active : Bool
  promote : Bool
  account : Nat
  drained : Bool
  groups : List Nat
deriving DecidableEq, Repr, Inhabited

/-- A fabric port beside its registers (R586-R605): whether its own HELLO check passes, the width it trains at, the lanes that failed, the
paused priorities, the local times at which it went DOWN and last heard a HELLO. -/
structure FabPort where
  selfOk : Bool
  width : Nat
  failed : Nat
  paused : Nat
  downAt : Nat
  heard : Nat
deriving DecidableEq, Repr, Inhabited

/-- The machine: its registers, the state that the manual keeps outside them, the record of what left it, and the queue of commands
that wait. -/
structure State where
  /-- The live registers by PF BAR 0 offset; unlisted: the register's reset value. -/
  regs : Tbl DWord
  /-- The staged view of the postable registers by live offset (R75, R77); unlisted: the register's reset value. -/
  staged : Tbl DWord
  /-- The split-read latch of each function: the offset of the low word it read, and bits 63:32 (R67). -/
  split : Tbl (Option (Nat × Word))
  /-- Global time in units of 2^-56 ns (R11, R78, R615). -/
  timeFine : Nat
  /-- Nanoseconds since power-up on the local clock, which no step of global time moves. -/
  uptime : Nat
  /-- The posting slots 0-3 (R78). -/
  slots : Tbl PostSlot
  /-- The CCLK divider a running change ends on (R43). -/
  clkChange : Option Nat
  /-- CCLK, NCLK and FCLK stopped by CLOCK_GLITCH (R47). -/
  clkStopped : Bool
  /-- Failed attempts of the running die link retrain (R59). -/
  dlkAttempts : Nat
  /-- MSI-X Enable of each function, and Mask and Pending of each vector under 2048 * function + vector (R377, R378). -/
  msixOn : Tbl Bool
  msixMask : Tbl Bool
  msixPend : Tbl Bool
  /-- The fuse array: logical rows under their number, spare Sk under 2048 + k; 64 data bits below 8 ECC bits (R150). -/
  fuses : Tbl (BitVec 72)
  /-- Bits of a row that fail the strict-margin read (R168). -/
  weak : Tbl (BitVec 72)
  /-- Rows whose retirement ended LIMIT and that no later program completed (R178). -/
  unretired : List Nat
  /-- The compute dies have been powered since the last PERST_N or device reset (R162). -/
  computeRan : Bool
  /-- The lifecycle transition in progress (R162, R163). -/
  lcRun : LcRun
  /-- The boot sequence beside its registers (R185-R210). -/
  boot : Boot
  /-- The rail channels 0-19 beside their registers (R109-R143). -/
  rails : Tbl Rail
  /-- Power groups that a GROUP_OFF reaction turned off (R120), and whether SUP drives THERMTRIP_N low (R133). -/
  groupsOff : Nat
  tripDriven : Bool
  /-- The Vault beside its registers (R260-R284). -/
  vault : Vault
  /-- The clerks 0-5 beside their registers (R293-R303). -/
  clerks : Tbl Clerk
  /-- Clerks whose crash dump the engine writes or has yet to write, first in progress (R301, R341). -/
  dumps : List Nat
  /-- Message ports by clerk and port: queued (sender component, message) pairs, oldest first (R298). -/
  ports : Tbl (List (Nat × List Byte))
  /-- The log port queue, oldest first, and the entries dropped since the last LOG_LOST entry (R326). -/
  logQueue : List LogEntry
  logLost : Nat
  /-- Jezama pairs under 2 * account + pair. -/
  pairs : Tbl Pair
  /-- The board management server (R318-R323). -/
  bmc : Bmc
  /-- The trace ring (R328, R329). -/
  trace : Trace
  /-- The serial ports, 0 and 1. -/
  spx : Tbl Spx
  /-- The junction sensors 0-135 (R343-R345). -/
  sensors : Tbl Sensor
  /-- Thermal control (R350, R352, R354): the local times of the last THERMAL_THROTTLE entry and since which every reading allows the hard
  clamp's release, successive estimates of each half at or above ICC_MAX, the level of ALERT_N, the local time since which both
  conditions of the current clamp are over, successive failed readouts of each stack, the tiles PWR gates (a mask), and its loop. -/
  throttleLogged : Option Nat
  coolSince : Option Nat
  iccHigh : Nat × Nat
  alertLow : Bool
  currentSince : Option Nat
  hbmFails : Tbl Nat
  gated : Nat
  loop : PwrLoop
  /-- Device memory by device address (R71): HBM and shared scratchpad. -/
  mem : Tbl Byte
  /-- Poisoned HBM lines under address / 64, and poisoned scratchpad words under address / 8 (R492, R508). -/
  poisonLine : Tbl Bool
  poisonWord : Tbl Bool
  /-- Error log FIFOs of the HMC and BNK pages under their page number, oldest first (R504). -/
  errFifo : Tbl (List DWord)
  /-- Patrol scrub: the next line of each stack in its order of R502. -/
  scrubPos : Tbl Nat
  /-- Banks of each half under a verified wipe (R515) and under a zero-fill (R391, R393); banks woken by an access (R510). -/
  wipeVerify : Tbl Nat
  wipeFill : Tbl Nat
  woken : Tbl Bool
  /-- Banks whose wake in progress began in OFF. -/
  wakeOff : Tbl Bool
  /-- Accesses that wait for their bank, oldest first (R510). -/
  bankWait : List BankAccess
  /-- Accesses held while their stack retrains, oldest first, each with the local time at which it was accepted (R490). -/
  hbmWait : List (Nat × Instr)
  /-- Admitted ops without an outcome record, in admission order. -/
  ops : List Op
  /-- Rings beside their registers, under 32 * account + ring. -/
  rings : Tbl Ring
  /-- The turns of the dispatchers under 0 and 1 (R427), and of the tiles of each half under 2 and 3 (R472). -/
  turns : Tbl Turns
  /-- Contexts saved on tiles: tile, account, ring, SEQ (R473). -/
  contexts : List (Nat × Nat × Nat × Nat)
  /-- Tallies; unlisted: 0 (R440). -/
  tallies : Tbl DWord
  /-- The run in progress of each half's march test engine, its repair log, the soft repairs mapped since reset, and the hard repairs applied
  (R518, R520, R523). -/
  mteRun : Tbl MteRun
  mteLog : Tbl (List Nat)
  softRepairs : List Nat
  hardRepairs : List Nat
  /-- Banks removed from an account and not yet zero-filled, under 2 * account + half (R391). -/
  scrub : Tbl Nat
  /-- Streams sent and received under 8 * node + channel, the SESSION last seen of each node, the requests whose response is due, and
  the messages arriving (R598-R613). -/
  txStreams : Tbl TxStream
  rxStreams : Tbl RxStream
  sessions : Tbl Nat
  requests : List FabReq
  inbox : List RxMsg
  /-- Collective groups under their number (R634-R637). -/
  groups : Tbl Group
  /-- Folios under 512 * half + folio (R540). -/
  folios : Tbl Folio
  /-- Page pools under 64 * half + pool (R546). -/
  pools : Tbl PoolStack
  /-- ATTENDs that wait for their runs (R564-R567). -/
  attends : List Attend
  /-- Collective steps issued and not complete, messages that wait for their step or its roster (with the local time of arrival and the
  residue mismatches their addition meets), and rosters kept by deciding candidates (R657, R667). -/
  steps : List CollStep
  early : List (CollMsg × Nat × Nat)
  rosters : List KeptRoster
  /-- The mirror state, the MIRRORs in progress, the step and granules of a MIRROR that waits for its COMMIT, and the commit queue
  (R733-R739). -/
  granules : Tbl Granule
  mirrors : List MirrorRun
  mirrored : Option (Nat × List Nat)
  commits : List Commit
  /-- Posts that a Jezama request waits for, by slot (R396, R671). -/
  postWait : Tbl PostWait
  /-- The range that HBM_ZERO zeroes: account and pair, base, bytes (R396). -/
  zeroRun : Option (Nat × Nat × Nat × Nat)
  /-- Functions whose function-level reset has begun to zero-fill their banks (a mask), and by account the local time of the last apply edge
  that incremented its epoch (R389, R393). -/
  flrFill : Nat
  epochAt : Tbl Nat
  /-- The fabric ports 0-17 beside their registers (R586-R605). -/
  fports : Tbl FabPort
  /-- Successive offsets within the bound, and whether the node was SYNCED since reset (R615, R617). -/
  goodOffsets : Nat
  everSynced : Bool
  /-- STEP of the last commit (R739, R746). -/
  lastCommit : Option Nat
  /-- What left the block, newest first. -/
  out : List Out
  /-- The model's own counter behind the free values of Config.lean. -/
  free : Nat
  /-- The commands that wait, the next one first. -/
  pending : List Instr
deriving DecidableEq, Repr, Inhabited

/-- Why a step could stop for want of a rule. The manual gives every command of the table an effect, so no meaning answers a fault. -/
inductive Fault where
  /-- A rule leaves the whole effect undefined. Raised by no meaning (safe: the name alone stands here). -/
  | undefinedByRule (rule : Nat)
deriving DecidableEq, Repr

/-- Why a step could stop for want of a model. -/
inductive Refusal where
  /-- Raised only by an arm of `exec` that has no meaning yet; every arm has one (safe). -/
  | notModelled (mnemonic : String)
deriving DecidableEq, Repr

/-- The machine before its supply has come up: every register at its Reset column (or, where the manual prints a dash, at the value of
`regReset`), a blank fuse array, memory and every table with nothing listed, nothing waiting, and the health test of R273 due. -/
def State.reset : State := { (default : State) with vault := { (default : Vault) with testDue := true } }

end Sys2Proof.Machine
end

