-- ==== Sys2Proof/Machine/RegMap.lean ====
section
/-!
DEFINITION. The register map: the page index of PF BAR 0 (R68), every register of every page with its access masks and reset
value (the register tables of R49, R51, R52, R61, R78, R135, R137, R176, R211, R248, R284, R332, R333, R364, R366, R397, R399,
R441, R442, R478, R524-R527, R570, R620, R622, R624, R672, R705, R744, R745), and one constant per field.

A register lives in the register file under its PF BAR 0 byte offset, a `Nat`. `Reg.<REGISTER>.<FIELD>` is the field of that name;
its first argument is the instance of a page of which there are several, its last the array index.
-/
namespace Sys2Proof.Machine

/-- One field of a register: the register's PF BAR 0 offset, the field's lowest bit and its width. -/
structure Fld where
  key : Nat
  lo : Nat
  width : Nat
deriving DecidableEq, Repr

/-- The kinds of page of R68 that hold registers of their own. -/
inductive PageKind where
  | glb
  | clk
  | dlk
  | sup
  | otp
  | boot
  | spx
  | vlt
  | fwp
  | mbx
  | thm
  | act
  | pcx
  | ring
  | dsp
  | til
  | hmc
  | mpu
  | bnk
  | mte
  | fol
  | fpt
  | xpt
  | tsy
  | col
  | mnt
  | upd
  | lsc
deriving DecidableEq, Repr

/-- One row of a register table: page offset, number of array elements and their distance, width in bytes, the bits a write sets,
the bits a 1 clears, whether it is a counterfoil, whether it is postable, the reset value, and the bits that have no fixed reset value
because they follow live state (R14-R16). -/
structure RegRow where
  off : Nat
  count : Nat
  stride : Nat
  bytes : Nat
  rw : Nat
  w1c : Nat
  cf : Bool
  posted : Bool
  reset : Nat
  live : Nat
deriving DecidableEq, Repr

/-- The page index of R68: the kind and instance of a PF BAR 0 page number (offset divided by 0x1000). -/
def pageKind (p : Nat) : Option (PageKind × Nat) :=
  if p = 0x0 then some (.glb, 0)
  else if p = 0x1 then some (.clk, 0)
  else if 0x200 ≤ p ∧ p < 0x202 then some (.dlk, p - 0x200)
  else if p = 0x2 then some (.sup, 0)
  else if p = 0x3 then some (.otp, 0)
  else if p = 0x4 then some (.boot, 0)
  else if 0x5 ≤ p ∧ p < 0x7 then some (.spx, p - 0x5)
  else if p = 0x7 then some (.vlt, 0)
  else if 0x10 ≤ p ∧ p < 0x16 then some (.fwp, p - 0x10)
  else if 0x20 ≤ p ∧ p < 0x40 then some (.mbx, p - 0x20)
  else if p = 0x8 then some (.thm, 0)
  else if 0x40 ≤ p ∧ p < 0x60 then some (.act, p - 0x40)
  else if p = 0x9 then some (.pcx, 0)
  else if 0x3000 ≤ p ∧ p < 0x3400 then some (.ring, p - 0x3000)
  else if 0x80 ≤ p ∧ p < 0x82 then some (.dsp, p - 0x80)
  else if 0x100 ≤ p ∧ p < 0x130 then some (.til, p - 0x100)
  else if 0x180 ≤ p ∧ p < 0x188 then some (.hmc, p - 0x180)
  else if 0x188 ≤ p ∧ p < 0x18a then some (.mpu, p - 0x188)
  else if 0x140 ≤ p ∧ p < 0x142 then some (.bnk, p - 0x140)
  else if 0x142 ≤ p ∧ p < 0x144 then some (.mte, p - 0x142)
  else if 0x1c0 ≤ p ∧ p < 0x1c2 then some (.fol, p - 0x1c0)
  else if 0x240 ≤ p ∧ p < 0x252 then some (.fpt, p - 0x240)
  else if p = 0x260 then some (.xpt, 0)
  else if p = 0x261 then some (.tsy, 0)
  else if 0x280 ≤ p ∧ p < 0x282 then some (.col, p - 0x280)
  else if 0x2a0 ≤ p ∧ p < 0x2a2 then some (.mnt, p - 0x2a0)
  else if 0x2b0 ≤ p ∧ p < 0x2b2 then some (.upd, p - 0x2b0)
  else if p = 0x2b2 then some (.lsc, 0)
  else none

/-- The registers of a GLB page (R49, R78). -/
def rowsGlb : List RegRow :=
  [⟨0x40, 1, 4, 4, 0x0, 0x0, false, false, 0x0, 0xfffff0f⟩,
   ⟨0x44, 1, 4, 4, 0x0, 0x0, false, false, 0x0, 0xffff⟩,
   ⟨0x48, 1, 4, 4, 0x0, 0x0, false, false, 0x0, 0x3ffff⟩,
   ⟨0x4c, 1, 4, 4, 0x0, 0x0, false, false, 0x0, 0x3ffff⟩,
   ⟨0x50, 1, 4, 4, 0x0, 0x0, false, false, 0x0, 0x7f⟩,
   ⟨0x54, 1, 4, 4, 0x0, 0x0, false, false, 0x0, 0x7f⟩,
   ⟨0x58, 1, 4, 4, 0x0, 0x0, false, false, 0x0, 0xffffffff⟩,
   ⟨0x5c, 1, 4, 4, 0xffff0000, 0x0, false, false, 0x0, 0x0⟩,
   ⟨0x60, 1, 8, 8, 0x0, 0x0, false, false, 0x0, 0xffffffffffffffff⟩,
   ⟨0x100, 1, 8, 8, 0x0, 0x0, false, false, 0x0, 0x0⟩,
   ⟨0x108, 1, 4, 4, 0x0, 0x0, false, false, 0x0, 0x8000ffff⟩,
   ⟨0x140, 4, 32, 8, 0xffffffffffffffff, 0x0, true, false, 0xffffffff00000000, 0x0⟩,
   ⟨0x148, 4, 32, 4, 0x13, 0x0, false, false, 0x0, 0x0⟩,
   ⟨0x150, 4, 32, 8, 0xffffffffffffffff, 0x0, false, false, 0x0, 0x0⟩,
   ⟨0x158, 4, 32, 8, 0x0, 0x0, false, false, 0x0, 0x0⟩,
   ⟨0x1c0, 4, 8, 8, 0x0, 0x0, false, false, 0x0, 0x0⟩,
   ⟨0x1e0, 1, 4, 4, 0x0, 0x0, false, false, 0x0, 0x0⟩]

/-- The registers of a CLK page (R51). -/
def rowsClk : List RegRow :=
  [⟨0x40, 1, 4, 4, 0x0, 0x0, false, false, 0x30, 0xf01⟩,
   ⟨0x44, 1, 4, 4, 0x3, 0x0, false, false, 0x0, 0x0⟩,
   ⟨0x48, 1, 4, 4, 0x3, 0x0, false, false, 0x3, 0x0⟩,
   ⟨0x4c, 1, 4, 4, 0x0, 0x0, false, false, 0x0, 0x0⟩,
   ⟨0x50, 1, 4, 4, 0x0, 0x0, false, false, 0x0, 0x8001ffff⟩]

/-- The registers of a DLK page (R52). -/
def rowsDlk : List RegRow :=
  [⟨0x40, 1, 4, 4, 0x0, 0x0, false, false, 0x0, 0x1⟩,
   ⟨0x44, 1, 4, 4, 0xffffffff, 0x0, false, false, 0x0, 0x0⟩,
   ⟨0x48, 1, 4, 4, 0xffffffff, 0x0, false, false, 0x0, 0x0⟩,
   ⟨0x4c, 1, 4, 4, 0xffffffff, 0x0, false, false, 0x0, 0x0⟩,
   ⟨0x50, 1, 8, 8, 0x0, 0x0, false, false, 0x0, 0x0⟩]

/-- The registers of every page (R61). -/
def rowsCommon : List RegRow :=
  [⟨0x0, 1, 4, 4, 0x0, 0x0, false, false, 0x0, 0xffffffff⟩,
   ⟨0x4, 1, 4, 4, 0x0, 0x0, false, false, 0x0, 0xffffffff⟩,
   ⟨0x8, 1, 4, 4, 0xf3, 0x0, false, false, 0x0, 0x0⟩,
   ⟨0xc, 1, 4, 4, 0x0, 0x0, false, false, 0x0, 0xffffffff⟩,
   ⟨0x10, 1, 4, 4, 0x0, 0xffffffff, false, false, 0x0, 0x0⟩,
   ⟨0x14, 1, 4, 4, 0xffffffff, 0x0, false, false, 0x0, 0x0⟩,
   ⟨0x18, 1, 4, 4, 0x0, 0x0, false, false, 0x0, 0x0⟩,
   ⟨0x1c, 1, 4, 4, 0x0, 0x0, false, false, 0x0, 0x0⟩,
   ⟨0x20, 1, 4, 4, 0xf, 0x0, false, false, 0x0, 0x0⟩,
   ⟨0x24, 1, 4, 4, 0x0, 0x0, false, false, 0x0, 0x0⟩,
   ⟨0x28, 1, 4, 4, 0x0, 0x0, false, false, 0x0, 0x0⟩]

/-- The registers of a SUP page (R135, R137). -/
def rowsSup : List RegRow :=
  [⟨0x40, 1, 4, 4, 0x0, 0x0, false, false, 0x0, 0x0⟩,
   ⟨0x44, 1, 4, 4, 0x0, 0x0, false, false, 0x0, 0x0⟩,
   ⟨0x48, 1, 4, 4, 0x0, 0x0, false, false, 0x0, 0x0⟩,
   ⟨0x4c, 1, 4, 4, 0x0, 0x0, false, false, 0x0, 0x0⟩,
   ⟨0x50, 1, 4, 4, 0x0, 0x0, false, false, 0x0, 0x0⟩,
   ⟨0x54, 1, 4, 4, 0xff, 0x0, false, true, 0x0, 0x0⟩,
   ⟨0x58, 1, 4, 4, 0x1, 0x0, false, true, 0x0, 0x0⟩,
   ⟨0x5c, 1, 4, 4, 0x7, 0x0, false, true, 0x5, 0x0⟩,
   ⟨0x60, 1, 4, 4, 0xffff, 0x0, false, false, 0x0, 0x0⟩,
   ⟨0x64, 1, 4, 4, 0x0, 0x0, false, false, 0x0, 0xffff0000⟩,
   ⟨0x68, 1, 4, 4, 0x0, 0x0, false, false, 0x0, 0x0⟩,
   ⟨0x6c, 1, 4, 4, 0x0, 0x0, false, false, 0x0, 0x0⟩,
   ⟨0x100, 20, 64, 4, 0x7f7fffff, 0x0, false, true, 0x0, 0x7f7fffff⟩,
   ⟨0x104, 20, 64, 4, 0x3ffffff, 0x0, false, true, 0x0, 0x3ffffff⟩,
   ⟨0x108, 20, 64, 4, 0xffff, 0x0, false, true, 0x0, 0xffff⟩,
   ⟨0x10c, 20, 64, 4, 0x1fff, 0x0, false, true, 0x0, 0x1fff⟩,
   ⟨0x110, 20, 64, 8, 0xffffffffffffffff, 0x0, true, true, 0xffffffff00000000, 0xffffffffffffffff⟩,
   ⟨0x118, 20, 64, 8, 0xffffffffffffffff, 0x0, true, true, 0xffffffff00000000, 0xffffffffffffffff⟩,
   ⟨0x120, 20, 64, 4, 0xffffffff, 0x0, false, true, 0x0, 0xffffffff⟩,
   ⟨0x124, 20, 64, 4, 0x1fff, 0x0, false, true, 0x0, 0x1fff⟩,
   ⟨0x128, 20, 64, 4, 0x0, 0x0, false, false, 0x0, 0xffff0000⟩,
   ⟨0x12c, 20, 64, 4, 0xffffffff, 0x0, false, false, 0x0, 0x0⟩,
   ⟨0x130, 20, 64, 4, 0x0, 0x0, false, false, 0x0, 0xffffffff⟩,
   ⟨0x134, 20, 64, 4, 0xffff, 0x0, false, false, 0x0, 0xffff⟩]

/-- The registers of a OTP page (R176). -/
def rowsOtp : List RegRow :=
  [⟨0x40, 1, 4, 4, 0x0, 0x0, false, false, 0x0, 0x7f000f⟩,
   ⟨0x48, 1, 8, 8, 0x0, 0x0, false, false, 0x0, 0xffffffffffffffff⟩,
   ⟨0x50, 1, 4, 4, 0x0, 0x0, false, false, 0x0, 0x701ff⟩,
   ⟨0x58, 1, 4, 4, 0xffffffff, 0x0, false, false, 0x0, 0x0⟩,
   ⟨0x60, 1, 4, 4, 0x7ff, 0x0, false, false, 0x0, 0x0⟩,
   ⟨0x68, 1, 8, 8, 0x0, 0x0, false, false, 0x0, 0x0⟩,
   ⟨0x70, 1, 4, 4, 0x0, 0x0, false, false, 0x0, 0x0⟩,
   ⟨0x78, 1, 4, 4, 0xffffffff, 0x0, false, false, 0x0, 0x0⟩,
   ⟨0x7c, 1, 4, 4, 0x0, 0x0, false, false, 0x0, 0x0⟩]

/-- The registers of a BOOT page (R211). -/
def rowsBoot : List RegRow :=
  [⟨0x40, 1, 4, 4, 0x0, 0x0, false, false, 0x0, 0x7ff⟩,
   ⟨0x48, 1, 8, 8, 0xffffffffffffffff, 0x0, false, false, 0x0, 0x0⟩,
   ⟨0x50, 1, 4, 4, 0xffffffff, 0x0, false, false, 0x0, 0x0⟩,
   ⟨0x54, 1, 4, 4, 0x0, 0x0, false, false, 0x0, 0x0⟩,
   ⟨0x58, 1, 4, 4, 0x0, 0x0, false, false, 0x0, 0x0⟩,
   ⟨0x60, 1, 8, 8, 0x0, 0x0, false, false, 0x0, 0x0⟩,
   ⟨0x68, 1, 4, 4, 0x0, 0x0, false, false, 0x0, 0x0⟩,
   ⟨0x70, 1, 4, 4, 0x0, 0x0, false, false, 0x0, 0xffffffff⟩]

/-- The registers of a SPX page (R248). -/
def rowsSpx : List RegRow :=
  [⟨0x40, 1, 4, 4, 0x1, 0x0, false, true, 0x0, 0x0⟩,
   ⟨0x44, 1, 4, 4, 0x0, 0x0, false, false, 0x0, 0x0⟩,
   ⟨0x80, 4, 16, 4, 0xf1ff, 0x0, false, true, 0x5, 0x0⟩,
   ⟨0x84, 4, 16, 4, 0x3f3f3f, 0x0, false, true, 0xf0707, 0x0⟩,
   ⟨0x88, 4, 16, 4, 0xff1f0fff, 0x0, false, true, 0x0, 0x0⟩,
   ⟨0x8c, 4, 16, 4, 0x1ff, 0x0, false, true, 0x0, 0x0⟩,
   ⟨0xc0, 1, 4, 4, 0x1fffff, 0x0, false, false, 0x0, 0x0⟩,
   ⟨0xc4, 1, 4, 4, 0xffffff, 0x0, false, false, 0x0, 0x0⟩,
   ⟨0xc8, 1, 4, 4, 0xffffffff, 0x0, false, false, 0x0, 0x0⟩,
   ⟨0xcc, 1, 4, 4, 0x1ff, 0x0, false, false, 0x0, 0x0⟩,
   ⟨0xd0, 1, 4, 4, 0x0, 0x0, false, false, 0x0, 0x0⟩,
   ⟨0xd4, 1, 4, 4, 0x0, 0x0, false, false, 0x0, 0x0⟩,
   ⟨0xe0, 1, 4, 4, 0x0, 0x0, false, false, 0x0, 0x0⟩,
   ⟨0xe4, 1, 4, 4, 0x0, 0x0, false, false, 0x0, 0x0⟩,
   ⟨0xe8, 1, 4, 4, 0x3f3f0000, 0x0, false, false, 0x38080000, 0x0⟩,
   ⟨0x100, 1, 4, 4, 0xffffffff, 0x0, false, false, 0x0, 0x0⟩,
   ⟨0x104, 1, 4, 4, 0x0, 0x0, false, false, 0x0, 0x7f⟩,
   ⟨0x108, 1, 4, 4, 0xffffffff, 0x0, false, false, 0x0, 0x0⟩,
   ⟨0x10c, 1, 4, 4, 0xffff, 0x0, false, false, 0x0, 0x0⟩,
   ⟨0x110, 1, 4, 4, 0x0, 0x0, false, false, 0x0, 0x0⟩,
   ⟨0x114, 1, 4, 4, 0x0, 0x0, false, false, 0x0, 0x0⟩,
   ⟨0x118, 1, 4, 4, 0x0, 0x0, false, false, 0x0, 0x0⟩,
   ⟨0x11c, 1, 4, 4, 0x0, 0x0, false, false, 0x0, 0x0⟩]

/-- The registers of a VLT page (R284). -/
def rowsVlt : List RegRow :=
  [⟨0x40, 1, 4, 4, 0x0, 0x0, false, false, 0x0, 0x1090⟩,
   ⟨0x44, 1, 4, 4, 0x0, 0x0, false, false, 0x0, 0x0⟩,
   ⟨0x48, 1, 4, 4, 0x0, 0x0, false, false, 0x0, 0x0⟩,
   ⟨0x50, 1, 8, 8, 0xffffffffffffffff, 0x0, true, true, 0xfffffc6700000398, 0x0⟩,
   ⟨0x58, 1, 8, 8, 0xffffffffffffffff, 0x0, true, true, 0xfffffcad00000352, 0x0⟩,
   ⟨0x60, 1, 8, 8, 0xffffffffffffffff, 0x0, true, true, 0xfffffcdf00000320, 0x0⟩,
   ⟨0x68, 1, 4, 4, 0xfff, 0x0, false, true, 0xa, 0x0⟩,
   ⟨0x6c, 1, 4, 4, 0x0, 0x0, false, false, 0x0, 0x3ff03ff⟩,
   ⟨0x70, 1, 8, 8, 0x0, 0x0, false, false, 0x0, 0xffffffffffffffff⟩,
   ⟨0x78, 1, 4, 4, 0xffffffff, 0x0, false, false, 0x0, 0x0⟩,
   ⟨0x7c, 1, 4, 4, 0xffffffff, 0x0, false, false, 0x0, 0x0⟩,
   ⟨0x80, 1, 8, 8, 0x0, 0x0, false, false, 0x0, 0xffffffffffffffff⟩,
   ⟨0x88, 1, 4, 4, 0x0, 0x0, false, false, 0x0, 0x0⟩,
   ⟨0x8c, 1, 4, 4, 0x0, 0x0, false, false, 0x0, 0xffffffff⟩,
   ⟨0x90, 1, 4, 4, 0x0, 0xffffffff, false, false, 0x0, 0x0⟩]

/-- The registers of a FWP page (R332, R366). -/
def rowsFwp : List RegRow :=
  [⟨0x40, 1, 4, 4, 0x0, 0x0, false, false, 0xf00, 0x0⟩,
   ⟨0x44, 1, 4, 4, 0xfff0fff, 0x0, false, false, 0x3e80000, 0x0⟩,
   ⟨0x48, 1, 4, 4, 0x0, 0x0, false, false, 0x0, 0x0⟩,
   ⟨0x50, 1, 8, 8, 0x0, 0x0, false, false, 0x0, 0x0⟩,
   ⟨0x58, 1, 4, 4, 0x0, 0x0, false, false, 0x0, 0x0⟩,
   ⟨0x5c, 1, 4, 4, 0x7, 0x0, false, false, 0x3, 0x0⟩,
   ⟨0x60, 1, 4, 4, 0xffffffff, 0x0, false, false, 0x0, 0x0⟩,
   ⟨0x80, 1, 4, 4, 0x0, 0x0, false, false, 0x0, 0x0⟩,
   ⟨0x100, 1, 4, 4, 0x0, 0x0, false, false, 0x83, 0x0⟩,
   ⟨0x104, 1, 4, 4, 0x0, 0x0, false, false, 0x0, 0x0⟩,
   ⟨0x108, 1, 4, 4, 0x0, 0x0, false, false, 0x0, 0x0⟩,
   ⟨0x10c, 1, 4, 4, 0x0, 0x0, false, false, 0x0, 0x0⟩]

/-- The registers of a MBX page (R333). -/
def rowsMbx : List RegRow :=
  [⟨0x40, 2, 64, 8, 0xfffffffffffff000, 0x0, false, false, 0x0, 0x0⟩,
   ⟨0x48, 2, 64, 8, 0xfffffffffffff000, 0x0, false, false, 0x0, 0x0⟩,
   ⟨0x50, 2, 64, 4, 0x0, 0x0, false, false, 0x0, 0x0⟩,
   ⟨0x54, 2, 64, 4, 0x0, 0x0, false, false, 0x0, 0x0⟩,
   ⟨0x58, 2, 64, 4, 0x0, 0x0, false, false, 0x0, 0x0⟩,
   ⟨0x5c, 2, 64, 4, 0xffffffff, 0x0, false, false, 0x0, 0x0⟩,
   ⟨0xc0, 1, 8, 8, 0xfffffffffffff000, 0x0, false, false, 0x0, 0x0⟩,
   ⟨0xc8, 1, 4, 4, 0x8000007f, 0x0, false, false, 0x0, 0x0⟩,
   ⟨0xcc, 1, 4, 4, 0x0, 0x0, false, false, 0x0, 0x0⟩,
   ⟨0xd0, 1, 4, 4, 0xffffffff, 0x0, false, false, 0x0, 0x0⟩,
   ⟨0xd4, 1, 4, 4, 0xffffffff, 0x0, false, false, 0x0, 0x0⟩]

/-- The registers of a THM page (R364). -/
def rowsThm : List RegRow :=
  [⟨0x40, 1, 4, 4, 0x0, 0x0, false, false, 0x0, 0xffffff⟩,
   ⟨0x48, 1, 8, 8, 0x0, 0x0, false, false, 0x0, 0x0⟩,
   ⟨0x50, 1, 8, 8, 0x0, 0x0, false, false, 0x0, 0x0⟩,
   ⟨0x58, 1, 4, 4, 0x0, 0x0, false, false, 0x0, 0x0⟩,
   ⟨0x5c, 1, 4, 4, 0x0, 0x0, false, false, 0x0, 0xffffffff⟩,
   ⟨0x60, 1, 4, 4, 0xffffffff, 0x0, false, false, 0x0, 0x0⟩,
   ⟨0x80, 1, 4, 4, 0xffff, 0x0, false, true, 0x3b6, 0x0⟩,
   ⟨0x84, 1, 4, 4, 0xffff, 0x0, false, true, 0x384, 0x0⟩,
   ⟨0x88, 1, 4, 4, 0xfff, 0x0, false, true, 0x0, 0xfff⟩,
   ⟨0x8c, 1, 4, 4, 0xfff, 0x0, false, true, 0x0, 0x0⟩,
   ⟨0x90, 1, 4, 4, 0xffffffff, 0x0, false, true, 0xffffffff, 0x0⟩,
   ⟨0x94, 1, 4, 4, 0xffffffff, 0x0, false, true, 0x0, 0xffffffff⟩,
   ⟨0x98, 4, 8, 8, 0xffffffffffffffff, 0x0, false, true, 0x0, 0x0⟩,
   ⟨0xc0, 20, 4, 4, 0xffff, 0x0, false, true, 0x0, 0x0⟩,
   ⟨0x140, 8, 4, 4, 0x0, 0x0, false, false, 0x0, 0x13ff⟩,
   ⟨0x160, 8, 4, 4, 0x1f, 0x0, false, false, 0x10, 0x0⟩,
   ⟨0x200, 68, 4, 4, 0x0, 0x0, false, false, 0x0, 0xffffffff⟩]

/-- The registers of a ACT page (R397). -/
def rowsAct : List RegRow :=
  [⟨0x40, 1, 4, 4, 0x0, 0x0, false, false, 0x1, 0x1f8⟩,
   ⟨0x48, 1, 8, 8, 0xffffffffffffffff, 0x0, true, false, 0xffffffff00000000, 0x0⟩,
   ⟨0x50, 1, 8, 8, 0x0, 0x0, false, false, 0x0, 0x0⟩,
   ⟨0x58, 1, 4, 4, 0x0, 0x0, false, false, 0x0, 0x0⟩,
   ⟨0x5c, 1, 4, 4, 0xffffffff, 0x0, false, false, 0x0, 0x0⟩,
   ⟨0x80, 1, 4, 4, 0x3, 0x0, false, true, 0x1, 0x0⟩,
   ⟨0x84, 1, 4, 4, 0x3f, 0x0, false, true, 0x0, 0x0⟩,
   ⟨0x88, 1, 4, 4, 0x1fffffff, 0x0, false, true, 0x0, 0x0⟩,
   ⟨0x8c, 1, 4, 4, 0x7ff03ff, 0x0, false, true, 0x0, 0x0⟩,
   ⟨0x90, 1, 4, 4, 0x1fff0fff, 0x0, false, true, 0x0, 0x0⟩,
   ⟨0x94, 1, 4, 4, 0x1f1f, 0x0, false, true, 0x0, 0x0⟩,
   ⟨0x98, 1, 4, 4, 0xff, 0x0, false, true, 0x0, 0x0⟩,
   ⟨0xa0, 1, 8, 8, 0xffffffffffff, 0x0, false, true, 0x0, 0x0⟩,
   ⟨0xa8, 1, 8, 8, 0xffffffffffff, 0x0, false, true, 0x0, 0x0⟩,
   ⟨0xb0, 1, 8, 8, 0xfffffffe00001, 0x0, false, true, 0x0, 0x0⟩,
   ⟨0x100, 16, 16, 8, 0xfffffffe00000, 0x0, false, true, 0x0, 0x0⟩,
   ⟨0x108, 16, 16, 4, 0xc003ffff, 0x0, false, true, 0x0, 0x0⟩]

/-- The registers of a PCX page (R399). -/
def rowsPcx : List RegRow :=
  [⟨0x40, 1, 4, 4, 0x0, 0x0, false, false, 0x0, 0x7ff⟩,
   ⟨0x44, 1, 4, 4, 0x0, 0x0, false, false, 0x0, 0x0⟩,
   ⟨0x48, 1, 4, 4, 0x0, 0x0, false, false, 0x0, 0x0⟩,
   ⟨0x4c, 1, 4, 4, 0xffffffff, 0x0, false, false, 0x0, 0x0⟩,
   ⟨0x50, 1, 8, 8, 0x0, 0x0, false, false, 0x0, 0x0⟩,
   ⟨0x58, 1, 8, 8, 0xffffffffffffffff, 0x0, true, false, 0x0, 0x0⟩,
   ⟨0x60, 1, 4, 4, 0x0, 0x0, false, false, 0x0, 0x0⟩]

/-- The registers of a RING page (R441). -/
def rowsRing : List RegRow :=
  [⟨0x0, 1, 4, 4, 0x0, 0x0, false, false, 0x0, 0x0⟩,
   ⟨0x8, 1, 8, 8, 0xfffffffffffff001, 0x0, false, false, 0x0, 0x0⟩,
   ⟨0x10, 1, 8, 8, 0xfffffffffffff001, 0x0, false, false, 0x0, 0x0⟩,
   ⟨0x18, 1, 4, 4, 0xffff011f, 0x0, false, false, 0x0, 0x0⟩,
   ⟨0x1c, 1, 4, 4, 0x1, 0x0, false, false, 0x0, 0x0⟩,
   ⟨0x20, 1, 4, 4, 0x0, 0x0, false, false, 0x0, 0x0⟩,
   ⟨0x24, 1, 4, 4, 0x0, 0x0, false, false, 0x0, 0x0⟩,
   ⟨0x28, 1, 4, 4, 0x0, 0x0, false, false, 0x0, 0x0⟩,
   ⟨0x30, 1, 8, 8, 0x0, 0x0, false, false, 0x0, 0x0⟩,
   ⟨0x38, 1, 8, 8, 0x0, 0x0, false, false, 0x0, 0x0⟩,
   ⟨0x40, 1, 4, 4, 0x0, 0x0, false, false, 0x0, 0x0⟩,
   ⟨0x44, 1, 4, 4, 0xffffffff, 0x0, false, false, 0x0, 0x0⟩,
   ⟨0x48, 1, 4, 4, 0x13f, 0x0, false, false, 0x2, 0x0⟩,
   ⟨0x4c, 1, 4, 4, 0x8003ffff, 0x0, false, false, 0x0, 0x0⟩,
   ⟨0x50, 1, 8, 8, 0x0, 0x0, false, false, 0x0, 0x0⟩,
   ⟨0x58, 1, 4, 4, 0x0, 0x0, false, false, 0x0, 0x0⟩,
   ⟨0x60, 1, 4, 4, 0xbf03ffff, 0x0, false, false, 0x0, 0x0⟩,
   ⟨0x68, 1, 8, 8, 0xffffffffffffffff, 0x0, false, false, 0x0, 0x0⟩]

/-- The registers of a DSP page (R442). -/
def rowsDsp : List RegRow :=
  [⟨0x40, 1, 4, 4, 0xf1f, 0x0, false, true, 0x71f, 0x0⟩,
   ⟨0x44, 1, 4, 4, 0x0, 0x0, false, false, 0x0, 0x0⟩,
   ⟨0x48, 1, 8, 8, 0x0, 0x0, false, false, 0x0, 0x0⟩,
   ⟨0x50, 1, 4, 4, 0xffffffff, 0x0, false, false, 0x0, 0x0⟩,
   ⟨0x54, 1, 4, 4, 0xffffffff, 0x0, false, false, 0x0, 0x0⟩,
   ⟨0x58, 1, 4, 4, 0x0, 0x0, false, false, 0x0, 0x0⟩]

/-- The registers of a TIL page (R478). -/
def rowsTil : List RegRow :=
  [⟨0x40, 1, 4, 4, 0x0, 0x0, false, false, 0x0, 0x4⟩,
   ⟨0x44, 1, 4, 4, 0x3, 0x0, false, false, 0x0, 0x0⟩,
   ⟨0x48, 1, 8, 8, 0x0, 0x0, false, false, 0x0, 0x0⟩,
   ⟨0x50, 1, 4, 4, 0x0, 0x0, false, false, 0x0, 0x0⟩,
   ⟨0x58, 1, 8, 8, 0x0, 0x0, false, false, 0x0, 0x0⟩,
   ⟨0x60, 1, 8, 8, 0x0, 0x0, false, false, 0x0, 0x0⟩,
   ⟨0x68, 1, 4, 4, 0xffffffff, 0x0, false, false, 0x0, 0x0⟩,
   ⟨0x6c, 1, 4, 4, 0xffffffff, 0x0, false, false, 0x0, 0x0⟩]

/-- The registers of a HMC page (R524). -/
def rowsHmc : List RegRow :=
  [⟨0x40, 1, 4, 4, 0x0, 0x0, false, false, 0x0, 0x75⟩,
   ⟨0x44, 1, 4, 4, 0xffffffff, 0x0, false, false, 0x0, 0x0⟩,
   ⟨0x48, 1, 4, 4, 0xffffffff, 0x0, false, false, 0x0, 0x0⟩,
   ⟨0x4c, 1, 4, 4, 0x0, 0x0, false, false, 0x0, 0x0⟩,
   ⟨0x50, 1, 4, 4, 0xffffffff, 0x0, false, false, 0x0, 0x0⟩,
   ⟨0x58, 1, 8, 8, 0x0, 0x0, false, false, 0x0, 0x0⟩,
   ⟨0x60, 1, 4, 4, 0xffff0000, 0x0, false, false, 0x0, 0x0⟩,
   ⟨0x64, 1, 4, 4, 0xff, 0x0, false, true, 0x18, 0x0⟩,
   ⟨0x68, 1, 4, 4, 0x0, 0x0, false, false, 0x0, 0x0⟩]

/-- The registers of a MPU page (R525). -/
def rowsMpu : List RegRow :=
  [⟨0x40, 1, 4, 4, 0xf1f, 0x0, false, true, 0x704, 0x0⟩,
   ⟨0x44, 1, 4, 4, 0xffffffff, 0x0, false, false, 0x0, 0x0⟩,
   ⟨0x48, 3, 4, 4, 0xffff, 0x0, false, false, 0x0, 0x0⟩]

/-- The registers of a BNK page (R526). -/
def rowsBnk : List RegRow :=
  [⟨0x40, 1, 4, 4, 0x7, 0x0, false, true, 0x2, 0x0⟩,
   ⟨0x44, 1, 4, 4, 0xff00, 0x0, false, false, 0x0, 0x1⟩,
   ⟨0x48, 1, 8, 8, 0x0, 0x0, false, false, 0x0, 0xffffffffffff⟩,
   ⟨0x50, 1, 8, 8, 0x0, 0x0, false, false, 0x0, 0x0⟩,
   ⟨0x58, 1, 8, 8, 0xffffffffffff, 0x0, false, false, 0x0, 0x0⟩,
   ⟨0x60, 1, 8, 8, 0x0, 0x0, false, false, 0x0, 0x0⟩,
   ⟨0x68, 3, 4, 4, 0xffffffff, 0x0, false, false, 0x0, 0x0⟩,
   ⟨0x74, 3, 4, 4, 0x0, 0x0, false, false, 0x0, 0x0⟩,
   ⟨0x80, 1, 4, 4, 0xffffffff, 0x0, false, false, 0x0, 0x0⟩,
   ⟨0x84, 1, 4, 4, 0xffffffff, 0x0, false, false, 0x0, 0x0⟩,
   ⟨0x88, 1, 8, 8, 0x0, 0x0, false, false, 0x0, 0x0⟩,
   ⟨0x90, 1, 4, 4, 0xffff0000, 0x0, false, false, 0x0, 0x0⟩]

/-- The registers of a MTE page (R527). -/
def rowsMte : List RegRow :=
  [⟨0x40, 1, 4, 4, 0x33f03, 0x0, false, false, 0x20000, 0x0⟩,
   ⟨0x44, 1, 4, 4, 0x0, 0x0, false, false, 0x0, 0x0⟩,
   ⟨0x48, 1, 4, 4, 0x0, 0x0, false, false, 0x0, 0x0⟩,
   ⟨0x50, 1, 8, 8, 0x0, 0x0, false, false, 0x0, 0x0⟩,
   ⟨0x58, 1, 4, 4, 0x0, 0x0, false, false, 0x0, 0x0⟩]

/-- The registers of a FOL page (R570). -/
def rowsFol : List RegRow :=
  [⟨0x40, 1, 4, 4, 0x0, 0x0, false, false, 0x0, 0x0⟩,
   ⟨0x44, 1, 4, 4, 0x0, 0x0, false, false, 0x2000000, 0x0⟩,
   ⟨0x48, 1, 4, 4, 0x7f03ff, 0x0, false, false, 0x0, 0x0⟩,
   ⟨0x4c, 1, 4, 4, 0x0, 0x0, false, false, 0x0, 0x0⟩,
   ⟨0x50, 1, 4, 4, 0x0, 0x0, false, false, 0x0, 0x0⟩,
   ⟨0x54, 1, 4, 4, 0x0, 0x0, false, false, 0x0, 0x0⟩,
   ⟨0x58, 1, 8, 8, 0x0, 0x0, false, false, 0x0, 0x0⟩,
   ⟨0x60, 1, 8, 8, 0x0, 0x0, false, false, 0x0, 0x0⟩,
   ⟨0x68, 1, 8, 8, 0x0, 0x0, false, false, 0x0, 0x0⟩,
   ⟨0x70, 1, 4, 4, 0xffffffff, 0x0, false, false, 0x0, 0x0⟩,
   ⟨0x74, 1, 4, 4, 0xffffffff, 0x0, false, false, 0x0, 0x0⟩,
   ⟨0x100, 64, 16, 8, 0xfffffffe00000, 0x0, false, true, 0x0, 0x0⟩,
   ⟨0x108, 64, 16, 4, 0x1f3fffff, 0x0, false, true, 0x0, 0x0⟩,
   ⟨0x10c, 64, 16, 4, 0xffff, 0x0, false, true, 0x0, 0x0⟩,
   ⟨0x500, 64, 4, 4, 0x0, 0x0, false, false, 0x0, 0x0⟩]

/-- The registers of a FPT page (R620). -/
def rowsFpt : List RegRow :=
  [⟨0x40, 1, 4, 4, 0xff, 0x0, false, true, 0xf0, 0x0⟩,
   ⟨0x44, 1, 4, 4, 0x3ff, 0x0, false, true, 0xc8, 0x0⟩,
   ⟨0x48, 1, 4, 4, 0xffff, 0x0, false, true, 0x3e8, 0x0⟩,
   ⟨0x4c, 1, 4, 4, 0xffffffff, 0x0, false, true, 0x100200ff, 0x0⟩,
   ⟨0x50, 1, 4, 4, 0x0, 0x0, false, false, 0x0, 0x0⟩,
   ⟨0x54, 1, 4, 4, 0x0, 0x0, false, false, 0x30, 0x0⟩,
   ⟨0x58, 1, 4, 4, 0x0, 0x0, false, false, 0x0, 0x0⟩,
   ⟨0x60, 1, 8, 8, 0x0, 0x0, false, false, 0x0, 0x0⟩,
   ⟨0x68, 1, 8, 8, 0x0, 0x0, false, false, 0x0, 0x0⟩,
   ⟨0x70, 1, 4, 4, 0xffffffff, 0x0, false, false, 0x0, 0x0⟩,
   ⟨0x74, 1, 4, 4, 0xffffffff, 0x0, false, false, 0x0, 0x0⟩,
   ⟨0x78, 1, 4, 4, 0xffffffff, 0x0, false, false, 0x0, 0x0⟩,
   ⟨0x7c, 1, 4, 4, 0xffffffff, 0x0, false, false, 0x0, 0x0⟩,
   ⟨0x80, 1, 4, 4, 0xffff0000, 0x0, false, false, 0x0, 0x0⟩,
   ⟨0x84, 1, 4, 4, 0xffffffff, 0x0, false, false, 0x0, 0x0⟩]

/-- The registers of a XPT page (R622). -/
def rowsXpt : List RegRow :=
  [⟨0x40, 1, 4, 4, 0xffff, 0x0, false, true, 0x0, 0x0⟩,
   ⟨0x44, 1, 4, 4, 0xffffffff, 0x0, false, true, 0x0, 0x0⟩,
   ⟨0x48, 1, 4, 4, 0xffff, 0x0, false, true, 0x88b5, 0x0⟩,
   ⟨0x4c, 1, 4, 4, 0xffffff, 0x0, false, true, 0x24844, 0x0⟩,
   ⟨0x50, 1, 4, 4, 0xfff, 0x0, false, true, 0x0, 0x0⟩,
   ⟨0x54, 1, 4, 4, 0x1fffff, 0x0, false, true, 0xca977, 0x0⟩,
   ⟨0x58, 1, 4, 4, 0xffff, 0x0, false, true, 0xc8, 0x0⟩,
   ⟨0x5c, 1, 4, 4, 0xffff, 0x0, false, true, 0x64, 0x0⟩,
   ⟨0x60, 4, 4, 4, 0xffffffff, 0x0, false, true, 0xffffffff, 0x0⟩,
   ⟨0x70, 1, 4, 4, 0xffffff, 0x0, false, true, 0xffffff, 0x0⟩,
   ⟨0x74, 1, 4, 4, 0x0, 0x0, false, false, 0x0, 0xffff⟩,
   ⟨0x80, 1, 8, 8, 0x0, 0x0, false, false, 0x0, 0x0⟩,
   ⟨0x88, 1, 4, 4, 0xffffffff, 0x0, false, false, 0x0, 0x0⟩,
   ⟨0x8c, 1, 4, 4, 0xffffffff, 0x0, false, false, 0x0, 0x0⟩,
   ⟨0x90, 1, 4, 4, 0xffffffff, 0x0, false, false, 0x0, 0x0⟩,
   ⟨0x94, 1, 4, 4, 0xffffffff, 0x0, false, false, 0x0, 0x0⟩,
   ⟨0x98, 1, 4, 4, 0xffffffff, 0x0, false, false, 0x0, 0x0⟩,
   ⟨0x200, 32, 16, 8, 0xffffffffffffffff, 0x0, false, true, 0x0, 0x0⟩,
   ⟨0x208, 32, 16, 4, 0xffffffff, 0x0, false, true, 0x0, 0x0⟩,
   ⟨0x20c, 32, 16, 4, 0x1, 0x0, false, true, 0x0, 0x0⟩]

/-- The registers of a TSY page (R624). -/
def rowsTsy : List RegRow :=
  [⟨0x40, 1, 4, 4, 0xffff03, 0x0, false, true, 0x70002, 0x0⟩,
   ⟨0x44, 1, 4, 4, 0x1f, 0x0, false, true, 0x1f, 0x0⟩,
   ⟨0x48, 1, 4, 4, 0x0, 0x0, false, false, 0x0, 0x0⟩,
   ⟨0x50, 1, 8, 8, 0x0, 0x0, false, false, 0x0, 0x0⟩,
   ⟨0x58, 1, 8, 8, 0x0, 0x0, false, false, 0x0, 0x0⟩,
   ⟨0x60, 1, 4, 4, 0xffffffff, 0x0, false, false, 0x0, 0x0⟩,
   ⟨0x68, 1, 8, 8, 0x0, 0x0, false, false, 0x0, 0x0⟩,
   ⟨0x70, 1, 4, 4, 0xffffffff, 0x0, false, false, 0x0, 0x0⟩,
   ⟨0x100, 18, 4, 4, 0xffff, 0x0, false, true, 0x0, 0x0⟩]

/-- The registers of a COL page (R672). -/
def rowsCol : List RegRow :=
  [⟨0x40, 1, 4, 4, 0x3fff, 0x0, false, true, 0x64, 0x0⟩,
   ⟨0x44, 1, 4, 4, 0x0, 0x0, false, false, 0x0, 0x0⟩,
   ⟨0x48, 1, 4, 4, 0x0, 0x0, false, false, 0x0, 0x0⟩,
   ⟨0x50, 1, 8, 8, 0x0, 0x0, false, false, 0x0, 0x0⟩,
   ⟨0x58, 1, 4, 4, 0xffffffff, 0x0, false, false, 0x0, 0x0⟩,
   ⟨0x5c, 1, 4, 4, 0xffffffff, 0x0, false, false, 0x0, 0x0⟩,
   ⟨0x60, 1, 4, 4, 0xffffffff, 0x0, false, false, 0x0, 0x0⟩,
   ⟨0x64, 1, 4, 4, 0xffffffff, 0x0, false, false, 0x0, 0x0⟩,
   ⟨0x68, 1, 4, 4, 0xffffffff, 0x0, false, false, 0x0, 0x0⟩,
   ⟨0x6c, 1, 4, 4, 0xffffffff, 0x0, false, false, 0x0, 0x0⟩,
   ⟨0x100, 16, 16, 4, 0x80000fff, 0x0, false, true, 0x0, 0x0⟩,
   ⟨0x108, 16, 16, 8, 0xffffffffffffffff, 0x0, true, true, 0xffffffff00000000, 0x0⟩]

/-- The registers of a MNT page (R705). -/
def rowsMnt : List RegRow :=
  [⟨0x40, 1, 4, 4, 0x0, 0x0, false, false, 0x0, 0x0⟩,
   ⟨0x44, 1, 4, 4, 0x0, 0x0, false, false, 0x0, 0x0⟩,
   ⟨0x48, 1, 8, 8, 0x0, 0x0, false, false, 0x0, 0x0⟩,
   ⟨0x50, 1, 8, 8, 0x0, 0x0, false, false, 0x0, 0x0⟩,
   ⟨0x58, 1, 8, 8, 0x0, 0x0, false, false, 0x0, 0x0⟩,
   ⟨0x60, 1, 4, 4, 0xffffffff, 0x0, false, false, 0x0, 0x0⟩,
   ⟨0x64, 1, 4, 4, 0xffffffff, 0x0, false, false, 0x0, 0x0⟩,
   ⟨0x68, 1, 4, 4, 0xffffffff, 0x0, false, false, 0x0, 0x0⟩,
   ⟨0x6c, 1, 4, 4, 0xffffffff, 0x0, false, false, 0x0, 0x0⟩]

/-- The registers of a UPD page (R744). -/
def rowsUpd : List RegRow :=
  [⟨0x40, 1, 4, 4, 0x0, 0x0, false, false, 0x0, 0x0⟩,
   ⟨0x48, 1, 8, 8, 0x0, 0x0, false, false, 0x0, 0x0⟩,
   ⟨0x50, 1, 4, 4, 0xffffffff, 0x0, false, false, 0x0, 0x0⟩,
   ⟨0x54, 1, 4, 4, 0xffffffff, 0x0, false, false, 0x0, 0x0⟩,
   ⟨0x58, 1, 8, 8, 0x0, 0x0, false, false, 0x0, 0x0⟩]

/-- The registers of a LSC page (R745). -/
def rowsLsc : List RegRow :=
  [⟨0x40, 1, 4, 4, 0x11f, 0x0, false, true, 0x0, 0x0⟩,
   ⟨0x44, 1, 4, 4, 0xffff, 0x0, false, true, 0x7d0, 0x0⟩,
   ⟨0x48, 1, 8, 8, 0xfffffffffffc0, 0x0, false, true, 0x0, 0x0⟩,
   ⟨0x50, 1, 8, 8, 0xffffffffffffffff, 0x0, false, true, 0x0, 0x0⟩,
   ⟨0x58, 1, 8, 8, 0xffffffffffffffff, 0x0, true, true, 0xffffffff00000000, 0x0⟩,
   ⟨0x60, 1, 4, 4, 0x8000ffff, 0x0, false, true, 0x0, 0x0⟩,
   ⟨0x68, 1, 8, 8, 0xffffffffffffffff, 0x0, false, true, 0x0, 0x0⟩,
   ⟨0x70, 1, 8, 8, 0xffffffffffffffff, 0x0, true, false, 0xffffffff00000000, 0x0⟩,
   ⟨0x78, 1, 4, 4, 0x0, 0x0, false, false, 0x0, 0x0⟩,
   ⟨0x80, 1, 8, 8, 0x0, 0x0, false, false, 0x0, 0x0⟩,
   ⟨0x88, 1, 4, 4, 0x0, 0x0, false, false, 0x0, 0x0⟩,
   ⟨0x8c, 1, 4, 4, 0x0, 0x0, false, false, 0x0, 0x0⟩,
   ⟨0x90, 1, 4, 4, 0x0, 0x0, false, false, 0x0, 0x0⟩,
   ⟨0x94, 1, 4, 4, 0x0, 0x0, false, false, 0x0, 0x0⟩,
   ⟨0x98, 1, 4, 4, 0x0, 0x0, false, false, 0x0, 0x0⟩,
   ⟨0xa0, 1, 4, 4, 0x0, 0x0, false, false, 0x0, 0x0⟩,
   ⟨0xa8, 1, 8, 8, 0x0, 0x0, false, false, 0x0, 0x0⟩,
   ⟨0xb0, 1, 4, 4, 0x0, 0x0, false, false, 0x0, 0x0⟩,
   ⟨0xc0, 1, 4, 4, 0xffffffff, 0x0, false, false, 0x0, 0x0⟩,
   ⟨0x100, 8, 8, 8, 0xfffffffe1ffff, 0x0, false, true, 0x0, 0x0⟩,
   ⟨0x140, 1, 8, 8, 0x1ffff8f1fffff, 0x0, false, true, 0x0, 0x0⟩,
   ⟨0x148, 1, 8, 8, 0xfffffffe00000, 0x0, false, true, 0x0, 0x0⟩]

/-- The registers of a kind of page, the common ones first; a ring page has no common registers (R441). -/
def pageRows : PageKind → List RegRow
  | .glb => rowsCommon ++ rowsGlb
  | .clk => rowsCommon ++ rowsClk
  | .dlk => rowsCommon ++ rowsDlk
  | .sup => rowsCommon ++ rowsSup
  | .otp => rowsCommon ++ rowsOtp
  | .boot => rowsCommon ++ rowsBoot
  | .spx => rowsCommon ++ rowsSpx
  | .vlt => rowsCommon ++ rowsVlt
  | .fwp => rowsCommon ++ rowsFwp
  | .mbx => rowsCommon ++ rowsMbx
  | .thm => rowsCommon ++ rowsThm
  | .act => rowsCommon ++ rowsAct
  | .pcx => rowsCommon ++ rowsPcx
  | .ring => rowsRing
  | .dsp => rowsCommon ++ rowsDsp
  | .til => rowsCommon ++ rowsTil
  | .hmc => rowsCommon ++ rowsHmc
  | .mpu => rowsCommon ++ rowsMpu
  | .bnk => rowsCommon ++ rowsBnk
  | .mte => rowsCommon ++ rowsMte
  | .fol => rowsCommon ++ rowsFol
  | .fpt => rowsCommon ++ rowsFpt
  | .xpt => rowsCommon ++ rowsXpt
  | .tsy => rowsCommon ++ rowsTsy
  | .col => rowsCommon ++ rowsCol
  | .mnt => rowsCommon ++ rowsMnt
  | .upd => rowsCommon ++ rowsUpd
  | .lsc => rowsCommon ++ rowsLsc

/-- R49. -/ def Reg.GLB_PART.PART_CODE : Fld := ⟨0x40, 0, 4⟩
def Reg.GLB_PART.STEPPING : Fld := ⟨0x40, 8, 8⟩
def Reg.GLB_PART.POWER_LIMIT : Fld := ⟨0x40, 16, 12⟩
def Reg.GLB_STACK_MAP.PRESENT : Fld := ⟨0x44, 0, 8⟩
def Reg.GLB_STACK_MAP.FAULT : Fld := ⟨0x44, 8, 8⟩
def Reg.GLB_PORT_MAP.PRESENT : Fld := ⟨0x48, 0, 18⟩
def Reg.GLB_PORT_FAULT.FAULT : Fld := ⟨0x4c, 0, 18⟩
def Reg.GLB_UNIT_MAP.UPD_A : Fld := ⟨0x50, 0, 1⟩
def Reg.GLB_UNIT_MAP.UPD_B : Fld := ⟨0x50, 1, 1⟩
def Reg.GLB_UNIT_MAP.LSC : Fld := ⟨0x50, 2, 1⟩
def Reg.GLB_UNIT_MAP.MNT_A : Fld := ⟨0x50, 3, 1⟩
def Reg.GLB_UNIT_MAP.MNT_B : Fld := ⟨0x50, 4, 1⟩
def Reg.GLB_UNIT_MAP.VLT : Fld := ⟨0x50, 5, 1⟩
def Reg.GLB_UNIT_MAP.DLK : Fld := ⟨0x50, 6, 1⟩
def Reg.GLB_UNIT_FAULT.UPD_A : Fld := ⟨0x54, 0, 1⟩
def Reg.GLB_UNIT_FAULT.UPD_B : Fld := ⟨0x54, 1, 1⟩
def Reg.GLB_UNIT_FAULT.LSC : Fld := ⟨0x54, 2, 1⟩
def Reg.GLB_UNIT_FAULT.MNT_A : Fld := ⟨0x54, 3, 1⟩
def Reg.GLB_UNIT_FAULT.MNT_B : Fld := ⟨0x54, 4, 1⟩
def Reg.GLB_UNIT_FAULT.VLT : Fld := ⟨0x54, 5, 1⟩
def Reg.GLB_UNIT_FAULT.DLK : Fld := ⟨0x54, 6, 1⟩
def Reg.GLB_MEM_SIZE.HALF_A_GIB : Fld := ⟨0x58, 0, 16⟩
def Reg.GLB_MEM_SIZE.HALF_B_GIB : Fld := ⟨0x58, 16, 16⟩
def Reg.GLB_ABSENT_LOG.PAGE : Fld := ⟨0x5c, 0, 14⟩
def Reg.GLB_ABSENT_LOG.COUNT : Fld := ⟨0x5c, 16, 16⟩
def Reg.GLB_CHIP_ID.CHIP_ID : Fld := ⟨0x60, 0, 64⟩
/-- R51. -/ def Reg.CLK_STA.ROOT_LOCK : Fld := ⟨0x1040, 0, 1⟩
def Reg.CLK_STA.GLITCH : Fld := ⟨0x1040, 1, 1⟩
def Reg.CLK_STA.EFF_DIV : Fld := ⟨0x1040, 4, 2⟩
def Reg.CLK_STA.CLAMP_VWARN : Fld := ⟨0x1040, 8, 1⟩
def Reg.CLK_STA.CLAMP_SAFE : Fld := ⟨0x1040, 9, 1⟩
def Reg.CLK_STA.CLAMP_CURRENT : Fld := ⟨0x1040, 10, 1⟩
def Reg.CLK_STA.CLAMP_THERMAL : Fld := ⟨0x1040, 11, 1⟩
def Reg.CLK_HOST_DIV.DIV : Fld := ⟨0x1044, 0, 2⟩
def Reg.CLK_PWR_DIV.DIV : Fld := ⟨0x1048, 0, 2⟩
def Reg.CLK_STEP_CNT.COUNT : Fld := ⟨0x104c, 0, 32⟩
def Reg.CLK_REF_MON.REF_KHZ : Fld := ⟨0x1050, 0, 17⟩
def Reg.CLK_REF_MON.REF_OK : Fld := ⟨0x1050, 31, 1⟩
/-- R52. -/ def Reg.DLK_STA.UP (u : Nat) : Fld := ⟨0x200040 + 0x1000 * u, 0, 1⟩
def Reg.DLK_STA.RETRAINING (u : Nat) : Fld := ⟨0x200040 + 0x1000 * u, 1, 1⟩
def Reg.DLK_STA.FAILED (u : Nat) : Fld := ⟨0x200040 + 0x1000 * u, 2, 1⟩
def Reg.DLK_CRC_CNT.COUNT (u : Nat) : Fld := ⟨0x200044 + 0x1000 * u, 0, 32⟩
def Reg.DLK_REPLAY_CNT.COUNT (u : Nat) : Fld := ⟨0x200048 + 0x1000 * u, 0, 32⟩
def Reg.DLK_RETRAIN_CNT.COUNT (u : Nat) : Fld := ⟨0x20004c + 0x1000 * u, 0, 32⟩
def Reg.DLK_RX_BYTES.BYTES (u : Nat) : Fld := ⟨0x200050 + 0x1000 * u, 0, 64⟩
/-- R61. -/ def Reg.ID.CLASS (pg : Nat) : Fld := ⟨0x1000 * pg + 0x0, 0, 16⟩
def Reg.ID.INSTANCE (pg : Nat) : Fld := ⟨0x1000 * pg + 0x0, 16, 8⟩
def Reg.ID.REVISION (pg : Nat) : Fld := ⟨0x1000 * pg + 0x0, 24, 8⟩
def Reg.CAP.CAP (pg : Nat) : Fld := ⟨0x1000 * pg + 0x4, 0, 32⟩
def Reg.CTL.ENABLE (pg : Nat) : Fld := ⟨0x1000 * pg + 0x8, 0, 1⟩
def Reg.CTL.SOFT_RESET (pg : Nat) : Fld := ⟨0x1000 * pg + 0x8, 1, 1⟩
def Reg.CTL.UNIT (pg : Nat) : Fld := ⟨0x1000 * pg + 0x8, 4, 4⟩
def Reg.STA.READY (pg : Nat) : Fld := ⟨0x1000 * pg + 0xc, 0, 1⟩
def Reg.STA.BUSY (pg : Nat) : Fld := ⟨0x1000 * pg + 0xc, 1, 1⟩
def Reg.STA.FAULT (pg : Nat) : Fld := ⟨0x1000 * pg + 0xc, 2, 1⟩
def Reg.STA.ABSENT (pg : Nat) : Fld := ⟨0x1000 * pg + 0xc, 3, 1⟩
def Reg.STA.UNIT (pg : Nat) : Fld := ⟨0x1000 * pg + 0xc, 4, 28⟩
def Reg.EVT_RAW.RAW (pg : Nat) : Fld := ⟨0x1000 * pg + 0x10, 0, 32⟩
def Reg.EVT_EN.EN (pg : Nat) : Fld := ⟨0x1000 * pg + 0x14, 0, 32⟩
def Reg.EVT_PEND.PEND (pg : Nat) : Fld := ⟨0x1000 * pg + 0x18, 0, 32⟩
def Reg.EVT_FORCE.FORCE (pg : Nat) : Fld := ⟨0x1000 * pg + 0x1c, 0, 32⟩
def Reg.POST_GRP.GROUP (pg : Nat) : Fld := ⟨0x1000 * pg + 0x20, 0, 4⟩
def Reg.STAGE_DIRTY.CLUSTER (pg : Nat) : Fld := ⟨0x1000 * pg + 0x24, 0, 32⟩
def Reg.LAST_STATUS.CODE (pg : Nat) : Fld := ⟨0x1000 * pg + 0x28, 0, 8⟩
/-- R78. -/ def Reg.GLB_TIME.NS : Fld := ⟨0x100, 0, 64⟩
def Reg.GLB_TIME_FRAC.FRAC : Fld := ⟨0x108, 0, 16⟩
def Reg.GLB_TIME_FRAC.SYNCED : Fld := ⟨0x108, 31, 1⟩
def Reg.GLB_POST_CTL.MASK (n : Nat) : Fld := ⟨0x140 + 0x20 * n, 0, 16⟩
def Reg.GLB_POST_CTL.TOKEN (n : Nat) : Fld := ⟨0x140 + 0x20 * n, 16, 16⟩
def Reg.GLB_POST_MODE.ACTION (n : Nat) : Fld := ⟨0x148 + 0x20 * n, 0, 2⟩
def Reg.GLB_POST_MODE.TIMED (n : Nat) : Fld := ⟨0x148 + 0x20 * n, 4, 1⟩
def Reg.GLB_POST_TIME.NS (n : Nat) : Fld := ⟨0x150 + 0x20 * n, 0, 64⟩
def Reg.GLB_POST_STA.STATE (n : Nat) : Fld := ⟨0x158 + 0x20 * n, 0, 3⟩
def Reg.GLB_POST_STA.CODE (n : Nat) : Fld := ⟨0x158 + 0x20 * n, 8, 8⟩
def Reg.GLB_POST_STA.REASON (n : Nat) : Fld := ⟨0x158 + 0x20 * n, 16, 8⟩
def Reg.GLB_POST_STA.ACK (n : Nat) : Fld := ⟨0x158 + 0x20 * n, 24, 8⟩
def Reg.GLB_POST_STA.PAGE (n : Nat) : Fld := ⟨0x158 + 0x20 * n, 32, 14⟩
def Reg.GLB_POST_STA.TOKEN (n : Nat) : Fld := ⟨0x158 + 0x20 * n, 48, 16⟩
def Reg.GLB_POST_AT.NS (n : Nat) : Fld := ⟨0x1c0 + 0x8 * n, 0, 64⟩
def Reg.GLB_POST_BUSY.GROUPS : Fld := ⟨0x1e0, 0, 16⟩
/-- R135. -/ def Reg.SUP_CMD.OP : Fld := ⟨0x2040, 0, 2⟩
def Reg.SUP_STA.SEQ : Fld := ⟨0x2044, 0, 3⟩
def Reg.SUP_STA.RESET_REQ : Fld := ⟨0x2044, 3, 1⟩
def Reg.SUP_STA.THERMTRIP : Fld := ⟨0x2044, 4, 1⟩
def Reg.SUP_STA.GROUPS_ON : Fld := ⟨0x2044, 5, 8⟩
def Reg.SUP_RAIL_ON.ON : Fld := ⟨0x2048, 0, 20⟩
def Reg.SUP_RAIL_FAULT.FAULT : Fld := ⟨0x204c, 0, 20⟩
def Reg.SUP_GROUP_CMD.ON : Fld := ⟨0x2050, 0, 8⟩
def Reg.SUP_GROUP_CMD.OFF : Fld := ⟨0x2050, 8, 8⟩
def Reg.SUP_COMPUTE_GRP.GROUPS : Fld := ⟨0x2054, 0, 8⟩
def Reg.SUP_AUTO_RESUME.ENABLE : Fld := ⟨0x2058, 0, 1⟩
def Reg.SUP_PMB_CTL.RATE : Fld := ⟨0x205c, 0, 2⟩
def Reg.SUP_PMB_CTL.PEC : Fld := ⟨0x205c, 2, 1⟩
def Reg.SUP_PMB_STA.ERRORS : Fld := ⟨0x2060, 0, 16⟩
def Reg.SUP_HOLD_STA.REVERSED : Fld := ⟨0x2064, 0, 1⟩
def Reg.SUP_HOLD_STA.VHOLD : Fld := ⟨0x2064, 16, 16⟩
def Reg.SUP_LAST_FAULT.CHANNEL : Fld := ⟨0x2068, 0, 5⟩
def Reg.SUP_LAST_FAULT.CAUSE : Fld := ⟨0x2068, 8, 4⟩
def Reg.SUP_LAST_FAULT.REACTION : Fld := ⟨0x2068, 12, 2⟩
def Reg.SUP_DOWN_CUT.CUT : Fld := ⟨0x206c, 0, 20⟩
/-- R137. -/ def Reg.RAIL_CFG.DEPS (n : Nat) : Fld := ⟨0x2100 + 0x40 * n, 0, 20⟩
def Reg.RAIL_CFG.GROUP (n : Nat) : Fld := ⟨0x2100 + 0x40 * n, 20, 3⟩
def Reg.RAIL_CFG.REACTION (n : Nat) : Fld := ⟨0x2100 + 0x40 * n, 24, 2⟩
def Reg.RAIL_CFG.RETRIES (n : Nat) : Fld := ⟨0x2100 + 0x40 * n, 26, 3⟩
def Reg.RAIL_CFG.PG_USED (n : Nat) : Fld := ⟨0x2100 + 0x40 * n, 29, 1⟩
def Reg.RAIL_CFG.USED (n : Nat) : Fld := ⟨0x2100 + 0x40 * n, 30, 1⟩
def Reg.RAIL_START.START_DELAY (n : Nat) : Fld := ⟨0x2104 + 0x40 * n, 0, 16⟩
def Reg.RAIL_START.SS_TIMEOUT (n : Nat) : Fld := ⟨0x2104 + 0x40 * n, 16, 10⟩
def Reg.RAIL_STOP.STOP_DELAY (n : Nat) : Fld := ⟨0x2108 + 0x40 * n, 0, 16⟩
def Reg.RAIL_SCALE.SCALE (n : Nat) : Fld := ⟨0x210c + 0x40 * n, 0, 13⟩
def Reg.RAIL_UV.UV (n : Nat) : Fld := ⟨0x2110 + 0x40 * n, 0, 64⟩
def Reg.RAIL_OV.OV (n : Nat) : Fld := ⟨0x2118 + 0x40 * n, 0, 64⟩
def Reg.RAIL_VOUT.VMIN (n : Nat) : Fld := ⟨0x2120 + 0x40 * n, 0, 16⟩
def Reg.RAIL_VOUT.VMAX (n : Nat) : Fld := ⟨0x2120 + 0x40 * n, 16, 16⟩
def Reg.RAIL_PMB.ADDR (n : Nat) : Fld := ⟨0x2124 + 0x40 * n, 0, 7⟩
def Reg.RAIL_PMB.BOUND (n : Nat) : Fld := ⟨0x2124 + 0x40 * n, 7, 1⟩
def Reg.RAIL_PMB.PAGE (n : Nat) : Fld := ⟨0x2124 + 0x40 * n, 8, 5⟩
def Reg.RAIL_STA.STATE (n : Nat) : Fld := ⟨0x2128 + 0x40 * n, 0, 4⟩
def Reg.RAIL_STA.CAUSE (n : Nat) : Fld := ⟨0x2128 + 0x40 * n, 4, 4⟩
def Reg.RAIL_STA.RETRY_N (n : Nat) : Fld := ⟨0x2128 + 0x40 * n, 8, 3⟩
def Reg.RAIL_STA.PMB_STALE (n : Nat) : Fld := ⟨0x2128 + 0x40 * n, 11, 1⟩
def Reg.RAIL_STA.PMB_FORMAT (n : Nat) : Fld := ⟨0x2128 + 0x40 * n, 12, 1⟩
def Reg.RAIL_STA.SENSE (n : Nat) : Fld := ⟨0x2128 + 0x40 * n, 16, 16⟩
def Reg.RAIL_CNT.FAULTS (n : Nat) : Fld := ⟨0x212c + 0x40 * n, 0, 16⟩
def Reg.RAIL_CNT.CUTS (n : Nat) : Fld := ⟨0x212c + 0x40 * n, 16, 16⟩
def Reg.RAIL_TELEM.VOUT (n : Nat) : Fld := ⟨0x2130 + 0x40 * n, 0, 16⟩
def Reg.RAIL_TELEM.IOUT (n : Nat) : Fld := ⟨0x2130 + 0x40 * n, 16, 16⟩
def Reg.RAIL_SET.VOUT (n : Nat) : Fld := ⟨0x2134 + 0x40 * n, 0, 16⟩
/-- R176. -/ def Reg.OTP_STA.STATE : Fld := ⟨0x3040, 0, 3⟩
def Reg.OTP_STA.TORN : Fld := ⟨0x3040, 3, 1⟩
def Reg.OTP_STA.BUSY : Fld := ⟨0x3040, 4, 1⟩
def Reg.OTP_STA.HALT_REASON : Fld := ⟨0x3040, 8, 4⟩
def Reg.OTP_STA.SPARES_USED : Fld := ⟨0x3040, 16, 7⟩
def Reg.OTP_LC.LC : Fld := ⟨0x3048, 0, 64⟩
def Reg.OTP_SEALED.IDENTITY : Fld := ⟨0x3050, 0, 1⟩
def Reg.OTP_SEALED.UNIT_DISABLE : Fld := ⟨0x3050, 1, 1⟩
def Reg.OTP_SEALED.KEY_SLOT : Fld := ⟨0x3050, 2, 3⟩
def Reg.OTP_SEALED.ACCOUNT_DEFAULTS : Fld := ⟨0x3050, 5, 1⟩
def Reg.OTP_SEALED.REPAIR : Fld := ⟨0x3050, 6, 1⟩
def Reg.OTP_SEALED.TRIMS : Fld := ⟨0x3050, 7, 1⟩
def Reg.OTP_SEALED.VAULT_CAL : Fld := ⟨0x3050, 8, 1⟩
def Reg.OTP_SEALED.REVOKED : Fld := ⟨0x3050, 16, 3⟩
def Reg.OTP_ECC_CNT.CORRECTED : Fld := ⟨0x3058, 0, 16⟩
def Reg.OTP_ECC_CNT.UNCORR : Fld := ⟨0x3058, 16, 16⟩
def Reg.OTP_READ_ROW.ROW : Fld := ⟨0x3060, 0, 11⟩
def Reg.OTP_READ_DATA.DATA : Fld := ⟨0x3068, 0, 64⟩
def Reg.OTP_READ_STA.ECC : Fld := ⟨0x3070, 0, 8⟩
def Reg.OTP_READ_STA.CORR : Fld := ⟨0x3070, 8, 1⟩
def Reg.OTP_READ_STA.UNCORR : Fld := ⟨0x3070, 9, 1⟩
def Reg.OTP_READ_STA.REMAPPED : Fld := ⟨0x3070, 10, 1⟩
def Reg.OTP_READ_STA.SPARE : Fld := ⟨0x3070, 11, 6⟩
def Reg.OTP_READ_STA.VALID : Fld := ⟨0x3070, 31, 1⟩
def Reg.OTP_PROG_CNT.ROWS : Fld := ⟨0x3078, 0, 16⟩
def Reg.OTP_PROG_CNT.EXTRA : Fld := ⟨0x3078, 16, 8⟩
def Reg.OTP_PROG_CNT.RETIRED : Fld := ⟨0x3078, 24, 8⟩
def Reg.OTP_LAST_PROG.ROW : Fld := ⟨0x307c, 0, 11⟩
def Reg.OTP_LAST_PROG.CODE : Fld := ⟨0x307c, 16, 8⟩
/-- R211. -/ def Reg.BOOT_STA.STAGE : Fld := ⟨0x4040, 0, 4⟩
def Reg.BOOT_STA.MODE : Fld := ⟨0x4040, 4, 2⟩
def Reg.BOOT_STA.STRAP : Fld := ⟨0x4040, 6, 2⟩
def Reg.BOOT_STA.BOARD : Fld := ⟨0x4040, 8, 3⟩
def Reg.BOOT_STA.HOOK_FAULT : Fld := ⟨0x4040, 11, 1⟩
def Reg.BOOT_STA.RAIL_FALLBACK : Fld := ⟨0x4040, 12, 1⟩
def Reg.BOOT_STA.RAILS_FAULT : Fld := ⟨0x4040, 13, 1⟩
def Reg.BOOT_STA.MARCH_REPAIRED : Fld := ⟨0x4040, 14, 1⟩
def Reg.BOOT_STA.BOARD_CODE : Fld := ⟨0x4040, 16, 8⟩
def Reg.BOOT_FW_ADDR.ADDR : Fld := ⟨0x4048, 0, 64⟩
def Reg.BOOT_FW_LEN.LEN : Fld := ⟨0x4050, 0, 32⟩
def Reg.BOOT_CMD.OP : Fld := ⟨0x4054, 0, 2⟩
def Reg.BOOT_LOAD_STA.CODE : Fld := ⟨0x4058, 0, 8⟩
def Reg.BOOT_LOAD_STA.CHECK : Fld := ⟨0x4058, 8, 4⟩
def Reg.BOOT_LOAD_STA.KEY_SLOT : Fld := ⟨0x4058, 16, 8⟩
def Reg.BOOT_IMAGE.VERSION : Fld := ⟨0x4060, 0, 32⟩
def Reg.BOOT_IMAGE.PROTO_MAJOR : Fld := ⟨0x4060, 32, 16⟩
def Reg.BOOT_IMAGE.PROTO_MINOR : Fld := ⟨0x4060, 48, 16⟩
def Reg.BOOT_SESSION.SESSION : Fld := ⟨0x4068, 0, 16⟩
def Reg.BOOT_SESSION.DRV_MAJOR : Fld := ⟨0x4068, 16, 8⟩
def Reg.BOOT_SESSION.DRV_MINOR : Fld := ⟨0x4068, 24, 8⟩
def Reg.BOOT_TIME.US : Fld := ⟨0x4070, 0, 32⟩
/-- R248. -/ def Reg.SPX_MODE.ROLE (u : Nat) : Fld := ⟨0x5040 + 0x1000 * u, 0, 1⟩
def Reg.SPX_PORT_STA.OP (u : Nat) : Fld := ⟨0x5044 + 0x1000 * u, 0, 2⟩
def Reg.SPX_PORT_STA.OMIT_ACTIVE (u : Nat) : Fld := ⟨0x5044 + 0x1000 * u, 4, 4⟩
def Reg.SPX_SEL_CFG.DIV (u n : Nat) : Fld := ⟨0x5080 + 0x1000 * u + 0x10 * n, 0, 8⟩
def Reg.SPX_SEL_CFG.MODE3 (u n : Nat) : Fld := ⟨0x5080 + 0x1000 * u + 0x10 * n, 8, 1⟩
def Reg.SPX_SEL_CFG.RX_DLY (u n : Nat) : Fld := ⟨0x5080 + 0x1000 * u + 0x10 * n, 12, 4⟩
def Reg.SPX_SEL_TIM.SETUP (u n : Nat) : Fld := ⟨0x5084 + 0x1000 * u + 0x10 * n, 0, 6⟩
def Reg.SPX_SEL_TIM.HOLD (u n : Nat) : Fld := ⟨0x5084 + 0x1000 * u + 0x10 * n, 8, 6⟩
def Reg.SPX_SEL_TIM.GAP (u n : Nat) : Fld := ⟨0x5084 + 0x1000 * u + 0x10 * n, 16, 6⟩
def Reg.SPX_XIP_CFG.ENABLE (u n : Nat) : Fld := ⟨0x5088 + 0x1000 * u + 0x10 * n, 0, 1⟩
def Reg.SPX_XIP_CFG.OMIT (u n : Nat) : Fld := ⟨0x5088 + 0x1000 * u + 0x10 * n, 1, 1⟩
def Reg.SPX_XIP_CFG.ADDR4 (u n : Nat) : Fld := ⟨0x5088 + 0x1000 * u + 0x10 * n, 2, 1⟩
def Reg.SPX_XIP_CFG.MODE_EN (u n : Nat) : Fld := ⟨0x5088 + 0x1000 * u + 0x10 * n, 3, 1⟩
def Reg.SPX_XIP_CFG.CMD_W (u n : Nat) : Fld := ⟨0x5088 + 0x1000 * u + 0x10 * n, 4, 2⟩
def Reg.SPX_XIP_CFG.ADDR_W (u n : Nat) : Fld := ⟨0x5088 + 0x1000 * u + 0x10 * n, 6, 2⟩
def Reg.SPX_XIP_CFG.MODE_W (u n : Nat) : Fld := ⟨0x5088 + 0x1000 * u + 0x10 * n, 8, 2⟩
def Reg.SPX_XIP_CFG.DATA_W (u n : Nat) : Fld := ⟨0x5088 + 0x1000 * u + 0x10 * n, 10, 2⟩
def Reg.SPX_XIP_CFG.DUMMY (u n : Nat) : Fld := ⟨0x5088 + 0x1000 * u + 0x10 * n, 16, 5⟩
def Reg.SPX_XIP_CFG.CMD (u n : Nat) : Fld := ⟨0x5088 + 0x1000 * u + 0x10 * n, 24, 8⟩
def Reg.SPX_XIP_MODE.ENTER (u n : Nat) : Fld := ⟨0x508c + 0x1000 * u + 0x10 * n, 0, 8⟩
def Reg.SPX_XIP_MODE.EXIT16 (u n : Nat) : Fld := ⟨0x508c + 0x1000 * u + 0x10 * n, 8, 1⟩
def Reg.SPX_XFER_A.SEL (u : Nat) : Fld := ⟨0x50c0 + 0x1000 * u, 0, 2⟩
def Reg.SPX_XFER_A.CMD_W (u : Nat) : Fld := ⟨0x50c0 + 0x1000 * u, 2, 2⟩
def Reg.SPX_XFER_A.ADDR_W (u : Nat) : Fld := ⟨0x50c0 + 0x1000 * u, 4, 2⟩
def Reg.SPX_XFER_A.MODE_W (u : Nat) : Fld := ⟨0x50c0 + 0x1000 * u, 6, 2⟩
def Reg.SPX_XFER_A.DATA_W (u : Nat) : Fld := ⟨0x50c0 + 0x1000 * u, 8, 2⟩
def Reg.SPX_XFER_A.CMD_LEN (u : Nat) : Fld := ⟨0x50c0 + 0x1000 * u, 10, 2⟩
def Reg.SPX_XFER_A.ADDR_LEN (u : Nat) : Fld := ⟨0x50c0 + 0x1000 * u, 12, 2⟩
def Reg.SPX_XFER_A.MODE_EN (u : Nat) : Fld := ⟨0x50c0 + 0x1000 * u, 14, 1⟩
def Reg.SPX_XFER_A.DIR (u : Nat) : Fld := ⟨0x50c0 + 0x1000 * u, 15, 1⟩
def Reg.SPX_XFER_A.DUMMY (u : Nat) : Fld := ⟨0x50c0 + 0x1000 * u, 16, 5⟩
def Reg.SPX_XFER_B.CMD (u : Nat) : Fld := ⟨0x50c4 + 0x1000 * u, 0, 16⟩
def Reg.SPX_XFER_B.MODE (u : Nat) : Fld := ⟨0x50c4 + 0x1000 * u, 16, 8⟩
def Reg.SPX_XFER_ADDR.ADDR (u : Nat) : Fld := ⟨0x50c8 + 0x1000 * u, 0, 32⟩
def Reg.SPX_XFER_LEN.LEN (u : Nat) : Fld := ⟨0x50cc + 0x1000 * u, 0, 9⟩
def Reg.SPX_XFER_GO.START (u : Nat) : Fld := ⟨0x50d0 + 0x1000 * u, 0, 1⟩
def Reg.SPX_XFER_GO.FLUSH (u : Nat) : Fld := ⟨0x50d0 + 0x1000 * u, 1, 1⟩
def Reg.SPX_XFER_STA.STATE (u : Nat) : Fld := ⟨0x50d4 + 0x1000 * u, 0, 2⟩
def Reg.SPX_XFER_STA.CODE (u : Nat) : Fld := ⟨0x50d4 + 0x1000 * u, 8, 8⟩
def Reg.SPX_TXD.WORD (u : Nat) : Fld := ⟨0x50e0 + 0x1000 * u, 0, 32⟩
def Reg.SPX_RXD.WORD (u : Nat) : Fld := ⟨0x50e4 + 0x1000 * u, 0, 32⟩
def Reg.SPX_FIFO_STA.TX_LEVEL (u : Nat) : Fld := ⟨0x50e8 + 0x1000 * u, 0, 7⟩
def Reg.SPX_FIFO_STA.RX_LEVEL (u : Nat) : Fld := ⟨0x50e8 + 0x1000 * u, 8, 7⟩
def Reg.SPX_FIFO_STA.TX_LOW (u : Nat) : Fld := ⟨0x50e8 + 0x1000 * u, 16, 6⟩
def Reg.SPX_FIFO_STA.RX_HIGH (u : Nat) : Fld := ⟨0x50e8 + 0x1000 * u, 24, 6⟩
def Reg.SPX_SLV_IDLE.WORD (u : Nat) : Fld := ⟨0x5100 + 0x1000 * u, 0, 32⟩
def Reg.SPX_SLV_STA.SELECTED (u : Nat) : Fld := ⟨0x5104 + 0x1000 * u, 0, 1⟩
def Reg.SPX_SLV_STA.MODE3 (u : Nat) : Fld := ⟨0x5104 + 0x1000 * u, 1, 1⟩
def Reg.SPX_SLV_STA.BIT (u : Nat) : Fld := ⟨0x5104 + 0x1000 * u, 2, 5⟩
def Reg.SPX_SLV_CNT.PARTIAL_DISCARD (u : Nat) : Fld := ⟨0x5108 + 0x1000 * u, 0, 16⟩
def Reg.SPX_SLV_CNT.OVERRUN (u : Nat) : Fld := ⟨0x5108 + 0x1000 * u, 16, 16⟩
def Reg.SPX_SLV_UNDER.UNDERRUN (u : Nat) : Fld := ⟨0x510c + 0x1000 * u, 0, 16⟩
def Reg.SPX_XIP_HIT.COUNT (u : Nat) : Fld := ⟨0x5110 + 0x1000 * u, 0, 32⟩
def Reg.SPX_XIP_MISS.COUNT (u : Nat) : Fld := ⟨0x5114 + 0x1000 * u, 0, 32⟩
def Reg.SPX_WIRE_STA.STUCK (u : Nat) : Fld := ⟨0x5118 + 0x1000 * u, 0, 8⟩
def Reg.SPX_WIRE_STA.FAIL (u : Nat) : Fld := ⟨0x5118 + 0x1000 * u, 8, 1⟩
def Reg.SPX_WIRE_STA.STEP (u : Nat) : Fld := ⟨0x5118 + 0x1000 * u, 9, 3⟩
def Reg.SPX_WIRE_STA.WIDTH (u : Nat) : Fld := ⟨0x5118 + 0x1000 * u, 12, 2⟩
def Reg.SPX_WIRE_STA.RX_DLY (u : Nat) : Fld := ⟨0x5118 + 0x1000 * u, 14, 4⟩
def Reg.SPX_WIRE_STA.SLOW (u : Nat) : Fld := ⟨0x5118 + 0x1000 * u, 18, 1⟩
def Reg.SPX_WIRE_STA.DONE (u : Nat) : Fld := ⟨0x5118 + 0x1000 * u, 31, 1⟩
def Reg.SPX_SFDP.DENSITY_LOG2 (u : Nat) : Fld := ⟨0x511c + 0x1000 * u, 0, 8⟩
def Reg.SPX_SFDP.REV (u : Nat) : Fld := ⟨0x511c + 0x1000 * u, 8, 8⟩
def Reg.SPX_SFDP.READ (u : Nat) : Fld := ⟨0x511c + 0x1000 * u, 16, 3⟩
/-- R284. -/ def Reg.VLT_STA.ARMED : Fld := ⟨0x7040, 0, 1⟩
def Reg.VLT_STA.CHARGING : Fld := ⟨0x7040, 1, 1⟩
def Reg.VLT_STA.HEALTH_OK : Fld := ⟨0x7040, 2, 1⟩
def Reg.VLT_STA.CAP_LOST : Fld := ⟨0x7040, 3, 1⟩
def Reg.VLT_STA.REFUSED : Fld := ⟨0x7040, 4, 1⟩
def Reg.VLT_STA.STORING : Fld := ⟨0x7040, 5, 1⟩
def Reg.VLT_STA.PENDING : Fld := ⟨0x7040, 6, 1⟩
def Reg.VLT_STA.RESTORE_TORN : Fld := ⟨0x7040, 7, 1⟩
def Reg.VLT_STA.SUPPLY : Fld := ⟨0x7040, 8, 3⟩
def Reg.VLT_STA.COMPUTE_CUT : Fld := ⟨0x7040, 11, 1⟩
def Reg.VLT_STA.WORN : Fld := ⟨0x7040, 12, 1⟩
def Reg.VLT_CMD.STORE : Fld := ⟨0x7044, 0, 1⟩
def Reg.VLT_CMD.HEALTH_TEST : Fld := ⟨0x7044, 1, 1⟩
def Reg.VLT_CMD.RESUME : Fld := ⟨0x7044, 2, 1⟩
def Reg.VLT_CAP.CAP_UF : Fld := ⟨0x7048, 0, 16⟩
def Reg.VLT_CAP.ESR_MOHM : Fld := ⟨0x7048, 16, 16⟩
def Reg.VLT_THR_WARN.WARN : Fld := ⟨0x7050, 0, 64⟩
def Reg.VLT_THR_STORE.STORE : Fld := ⟨0x7058, 0, 64⟩
def Reg.VLT_THR_RESET.RESET : Fld := ⟨0x7060, 0, 64⟩
def Reg.VLT_SAFE_INTERVAL.SECONDS : Fld := ⟨0x7068, 0, 12⟩
def Reg.VLT_VMAIN.NOW : Fld := ⟨0x706c, 0, 10⟩
def Reg.VLT_VMAIN.MIN : Fld := ⟨0x706c, 16, 10⟩
def Reg.VLT_STORE_CNT.COUNT : Fld := ⟨0x7070, 0, 64⟩
def Reg.VLT_CNT.WARN : Fld := ⟨0x7078, 0, 16⟩
def Reg.VLT_CNT.UNSOLICITED : Fld := ⟨0x7078, 16, 16⟩
def Reg.VLT_CNT2.CAP_LOST : Fld := ⟨0x707c, 0, 16⟩
def Reg.VLT_CNT2.SW_STORES : Fld := ⟨0x707c, 16, 16⟩
def Reg.VLT_LAST_STORE.NS : Fld := ⟨0x7080, 0, 64⟩
def Reg.VLT_STORE_INFO.SOURCE : Fld := ⟨0x7088, 0, 2⟩
def Reg.VLT_STORE_INFO.CODE : Fld := ⟨0x7088, 8, 8⟩
def Reg.VLT_STORE_INFO.DURATION : Fld := ⟨0x7088, 16, 16⟩
def Reg.VLT_RESTORE.UNCORR : Fld := ⟨0x708c, 0, 16⟩
def Reg.VLT_RESTORE.CORR : Fld := ⟨0x708c, 16, 16⟩
def Reg.VLT_HDR_RESET.HEADERS : Fld := ⟨0x7090, 0, 32⟩
/-- R332. -/ def Reg.FWP_STA.STATE (u : Nat) : Fld := ⟨0x10040 + 0x1000 * u, 0, 3⟩
def Reg.FWP_STA.CAUSE (u : Nat) : Fld := ⟨0x10040 + 0x1000 * u, 4, 4⟩
def Reg.FWP_STA.DUMP (u : Nat) : Fld := ⟨0x10040 + 0x1000 * u, 8, 4⟩
def Reg.FWP_STA.RESTARTS_HOUR (u : Nat) : Fld := ⟨0x10040 + 0x1000 * u, 12, 3⟩
def Reg.FWP_WD.MIN (u : Nat) : Fld := ⟨0x10044 + 0x1000 * u, 0, 12⟩
def Reg.FWP_WD.MAX (u : Nat) : Fld := ⟨0x10044 + 0x1000 * u, 16, 12⟩
def Reg.FWP_KICK.KICK (u : Nat) : Fld := ⟨0x10048 + 0x1000 * u, 0, 1⟩
def Reg.FWP_HALT_TIME.NS (u : Nat) : Fld := ⟨0x10050 + 0x1000 * u, 0, 64⟩
def Reg.FWP_TOTAL.RESTARTS (u : Nat) : Fld := ⟨0x10058 + 0x1000 * u, 0, 16⟩
def Reg.FWP_TOTAL.HALTS (u : Nat) : Fld := ⟨0x10058 + 0x1000 * u, 16, 16⟩
def Reg.FWP_LOG_LEVEL.LEVEL (u : Nat) : Fld := ⟨0x1005c + 0x1000 * u, 0, 3⟩
def Reg.FWP_LOG_DROPPED.COUNT (u : Nat) : Fld := ⟨0x10060 + 0x1000 * u, 0, 32⟩
def Reg.FWP_FATAL.CAUSE (u : Nat) : Fld := ⟨0x10080 + 0x1000 * u, 0, 8⟩
def Reg.FWP_FATAL.CLERK (u : Nat) : Fld := ⟨0x10080 + 0x1000 * u, 8, 3⟩
def Reg.FWP_FATAL.RESET_REQ (u : Nat) : Fld := ⟨0x10080 + 0x1000 * u, 31, 1⟩
/-- R333. -/ def Reg.MBX_REQ_ADDR.ADDR (u n : Nat) : Fld := ⟨0x20040 + 0x1000 * u + 0x40 * n, 12, 52⟩
def Reg.MBX_RSP_ADDR.ADDR (u n : Nat) : Fld := ⟨0x20048 + 0x1000 * u + 0x40 * n, 12, 52⟩
def Reg.MBX_DOORBELL.SEQ (u n : Nat) : Fld := ⟨0x20050 + 0x1000 * u + 0x40 * n, 0, 32⟩
def Reg.MBX_STA.STATE (u n : Nat) : Fld := ⟨0x20054 + 0x1000 * u + 0x40 * n, 0, 2⟩
def Reg.MBX_STA.ATTACHED (u n : Nat) : Fld := ⟨0x20054 + 0x1000 * u + 0x40 * n, 2, 1⟩
def Reg.MBX_STA.SEQ_VALID (u n : Nat) : Fld := ⟨0x20054 + 0x1000 * u + 0x40 * n, 3, 1⟩
def Reg.MBX_STA.CODE (u n : Nat) : Fld := ⟨0x20054 + 0x1000 * u + 0x40 * n, 8, 8⟩
def Reg.MBX_STA.SESSION (u n : Nat) : Fld := ⟨0x20054 + 0x1000 * u + 0x40 * n, 16, 16⟩
def Reg.MBX_LAST_SEQ.SEQ (u n : Nat) : Fld := ⟨0x20058 + 0x1000 * u + 0x40 * n, 0, 32⟩
def Reg.MBX_CNT.DUPLICATES (u n : Nat) : Fld := ⟨0x2005c + 0x1000 * u + 0x40 * n, 0, 16⟩
def Reg.MBX_CNT.REFUSED (u n : Nat) : Fld := ⟨0x2005c + 0x1000 * u + 0x40 * n, 16, 16⟩
/-- R333. -/ def Reg.NTC_ADDR.ADDR (u : Nat) : Fld := ⟨0x200c0 + 0x1000 * u, 12, 52⟩
def Reg.NTC_CFG.ENTRIES (u : Nat) : Fld := ⟨0x200c8 + 0x1000 * u, 0, 7⟩
def Reg.NTC_CFG.ENABLE (u : Nat) : Fld := ⟨0x200c8 + 0x1000 * u, 31, 1⟩
def Reg.NTC_HEAD.COUNT (u : Nat) : Fld := ⟨0x200cc + 0x1000 * u, 0, 32⟩
def Reg.NTC_TAIL.COUNT (u : Nat) : Fld := ⟨0x200d0 + 0x1000 * u, 0, 32⟩
def Reg.NTC_DROPPED.COUNT (u : Nat) : Fld := ⟨0x200d4 + 0x1000 * u, 0, 32⟩
/-- R364. -/ def Reg.THM_STA.TJ : Fld := ⟨0x8040, 0, 16⟩
def Reg.THM_STA.HOT : Fld := ⟨0x8040, 16, 8⟩
def Reg.THM_SFAULT_A.FAULT : Fld := ⟨0x8048, 0, 64⟩
def Reg.THM_SFAULT_B.FAULT : Fld := ⟨0x8050, 0, 64⟩
def Reg.THM_SFAULT_S.FAULT : Fld := ⟨0x8058, 0, 8⟩
def Reg.THM_ICC_EST.A : Fld := ⟨0x805c, 0, 16⟩
def Reg.THM_ICC_EST.B : Fld := ⟨0x805c, 16, 16⟩
def Reg.THM_CNT.HARD : Fld := ⟨0x8060, 0, 16⟩
def Reg.THM_CNT.CURRENT : Fld := ⟨0x8060, 16, 16⟩
def Reg.THM_TJ_TARGET.TENTHS : Fld := ⟨0x8080, 0, 16⟩
def Reg.THM_HBM_TARGET.TENTHS : Fld := ⟨0x8084, 0, 16⟩
def Reg.THM_PCAP.W : Fld := ⟨0x8088, 0, 12⟩
def Reg.THM_PUNMEAS.W : Fld := ⟨0x808c, 0, 12⟩
def Reg.THM_CORE_CH.CH : Fld := ⟨0x8090, 0, 32⟩
def Reg.THM_ICC_MAX.A : Fld := ⟨0x8094, 0, 16⟩
def Reg.THM_ICC_MAX.B : Fld := ⟨0x8094, 16, 16⟩
def Reg.THM_OP.MV (n : Nat) : Fld := ⟨0x8098 + 0x8 * n, 0, 64⟩
def Reg.THM_ILIM.I (n : Nat) : Fld := ⟨0x80c0 + 0x4 * n, 0, 16⟩
def Reg.THM_HBM.TEMP (n : Nat) : Fld := ⟨0x8140 + 0x4 * n, 0, 8⟩
def Reg.THM_HBM.REFRESH (n : Nat) : Fld := ⟨0x8140 + 0x4 * n, 8, 2⟩
def Reg.THM_HBM.VALID (n : Nat) : Fld := ⟨0x8140 + 0x4 * n, 12, 1⟩
def Reg.THM_HBM_CAP.SIXTEENTHS (n : Nat) : Fld := ⟨0x8160 + 0x4 * n, 0, 5⟩
def Reg.THM_SENSE.LOW (n : Nat) : Fld := ⟨0x8200 + 0x4 * n, 0, 16⟩
def Reg.THM_SENSE.HIGH (n : Nat) : Fld := ⟨0x8200 + 0x4 * n, 16, 16⟩
/-- R366. -/ def Reg.PWR_LOOP_STA.LEVEL : Fld := ⟨0x12100, 0, 4⟩
def Reg.PWR_LOOP_STA.LIMITER : Fld := ⟨0x12100, 4, 3⟩
def Reg.PWR_LOOP_STA.SAFE : Fld := ⟨0x12100, 7, 1⟩
def Reg.PWR_LOOP_STA.VFAIL : Fld := ⟨0x12100, 8, 8⟩
def Reg.PWR_POWER.W : Fld := ⟨0x12104, 0, 12⟩
def Reg.PWR_POWER.AVG : Fld := ⟨0x12104, 16, 12⟩
def Reg.PWR_CYCLES.COUNT : Fld := ⟨0x12108, 0, 32⟩
def Reg.PWR_LATE.COUNT : Fld := ⟨0x1210c, 0, 16⟩
/-- R397. -/ def Reg.ACT_STA.DRAINED (u : Nat) : Fld := ⟨0x40040 + 0x1000 * u, 0, 1⟩
def Reg.ACT_STA.SCRUBBING (u : Nat) : Fld := ⟨0x40040 + 0x1000 * u, 1, 1⟩
def Reg.ACT_STA.FLR (u : Nat) : Fld := ⟨0x40040 + 0x1000 * u, 2, 1⟩
def Reg.ACT_STA.LOCKED (u : Nat) : Fld := ⟨0x40040 + 0x1000 * u, 3, 1⟩
def Reg.ACT_STA.CLASS_FLOOR (u : Nat) : Fld := ⟨0x40040 + 0x1000 * u, 4, 2⟩
def Reg.ACT_STA.NO_SECURE (u : Nat) : Fld := ⟨0x40040 + 0x1000 * u, 6, 1⟩
def Reg.ACT_STA.NO_VAULT (u : Nat) : Fld := ⟨0x40040 + 0x1000 * u, 7, 1⟩
def Reg.ACT_STA.NO_APERTURE (u : Nat) : Fld := ⟨0x40040 + 0x1000 * u, 8, 1⟩
def Reg.ACT_EPOCH.EPOCH (u : Nat) : Fld := ⟨0x40048 + 0x1000 * u, 0, 64⟩
def Reg.ACT_DRAIN_AT.NS (u : Nat) : Fld := ⟨0x40050 + 0x1000 * u, 0, 64⟩
def Reg.ACT_OLD.LOCAL (u : Nat) : Fld := ⟨0x40058 + 0x1000 * u, 0, 16⟩
def Reg.ACT_OLD.REMOTE (u : Nat) : Fld := ⟨0x40058 + 0x1000 * u, 16, 16⟩
def Reg.ACT_PERM_CNT.COUNT (u : Nat) : Fld := ⟨0x4005c + 0x1000 * u, 0, 32⟩
def Reg.ACT_CLASS.CLASS (u : Nat) : Fld := ⟨0x40080 + 0x1000 * u, 0, 2⟩
def Reg.ACT_RINGS.COUNT (u : Nat) : Fld := ⟨0x40084 + 0x1000 * u, 0, 6⟩
def Reg.ACT_TALLY.FIRST (u : Nat) : Fld := ⟨0x40088 + 0x1000 * u, 0, 18⟩
def Reg.ACT_TALLY.UNITS (u : Nat) : Fld := ⟨0x40088 + 0x1000 * u, 18, 11⟩
def Reg.ACT_FOLIO.FIRST (u : Nat) : Fld := ⟨0x4008c + 0x1000 * u, 0, 10⟩
def Reg.ACT_FOLIO.COUNT (u : Nat) : Fld := ⟨0x4008c + 0x1000 * u, 16, 11⟩
def Reg.ACT_GROUPS.FIRST (u : Nat) : Fld := ⟨0x40090 + 0x1000 * u, 0, 12⟩
def Reg.ACT_GROUPS.COUNT (u : Nat) : Fld := ⟨0x40090 + 0x1000 * u, 16, 13⟩
def Reg.ACT_LIMIT.TILES_A (u : Nat) : Fld := ⟨0x40094 + 0x1000 * u, 0, 5⟩
def Reg.ACT_LIMIT.TILES_B (u : Nat) : Fld := ⟨0x40094 + 0x1000 * u, 8, 5⟩
def Reg.ACT_SECURE.A (u : Nat) : Fld := ⟨0x40098 + 0x1000 * u, 0, 4⟩
def Reg.ACT_SECURE.B (u : Nat) : Fld := ⟨0x40098 + 0x1000 * u, 4, 4⟩
def Reg.ACT_BANKS_A.MASK (u : Nat) : Fld := ⟨0x400a0 + 0x1000 * u, 0, 48⟩
def Reg.ACT_BANKS_B.MASK (u : Nat) : Fld := ⟨0x400a8 + 0x1000 * u, 0, 48⟩
def Reg.ACT_APER.ENABLE (u : Nat) : Fld := ⟨0x400b0 + 0x1000 * u, 0, 1⟩
def Reg.ACT_APER.BASE (u : Nat) : Fld := ⟨0x400b0 + 0x1000 * u, 21, 31⟩
def Reg.ACT_WIN_BASE.BASE (u n : Nat) : Fld := ⟨0x40100 + 0x1000 * u + 0x10 * n, 21, 31⟩
def Reg.ACT_WIN_CTL.SIZE (u n : Nat) : Fld := ⟨0x40108 + 0x1000 * u + 0x10 * n, 0, 18⟩
def Reg.ACT_WIN_CTL.RD (u n : Nat) : Fld := ⟨0x40108 + 0x1000 * u + 0x10 * n, 30, 1⟩
def Reg.ACT_WIN_CTL.WR (u n : Nat) : Fld := ⟨0x40108 + 0x1000 * u + 0x10 * n, 31, 1⟩
/-- R399. -/ def Reg.PCX_LINK_STA.SPEED : Fld := ⟨0x9040, 0, 3⟩
def Reg.PCX_LINK_STA.WIDTH : Fld := ⟨0x9040, 3, 5⟩
def Reg.PCX_LINK_STA.FLIT : Fld := ⟨0x9040, 8, 1⟩
def Reg.PCX_LINK_STA.DEGRADED : Fld := ⟨0x9040, 9, 1⟩
def Reg.PCX_LINK_STA.UP : Fld := ⟨0x9040, 10, 1⟩
def Reg.PCX_VF_STA.NUM_VFS : Fld := ⟨0x9044, 0, 5⟩
def Reg.PCX_VF_STA.VF_ENABLE : Fld := ⟨0x9044, 8, 1⟩
def Reg.PCX_FLR_STA.FLR : Fld := ⟨0x9048, 0, 32⟩
def Reg.PCX_ERR_CNT.CORR : Fld := ⟨0x904c, 0, 16⟩
def Reg.PCX_ERR_CNT.UNCORR : Fld := ⟨0x904c, 16, 16⟩
def Reg.PCX_UR_LOG.OFFSET : Fld := ⟨0x9050, 0, 48⟩
def Reg.PCX_UR_LOG.FUNCTION : Fld := ⟨0x9050, 48, 5⟩
def Reg.PCX_UR_LOG.BAR : Fld := ⟨0x9050, 53, 3⟩
def Reg.PCX_UR_LOG.CODE : Fld := ⟨0x9050, 56, 8⟩
def Reg.PCX_DEV_RESET.RESET : Fld := ⟨0x9058, 0, 64⟩
def Reg.PCX_BAR2.PF_LOG2 : Fld := ⟨0x9060, 0, 6⟩
def Reg.PCX_BAR2.VF_LOG2 : Fld := ⟨0x9060, 8, 6⟩
/-- R441. -/ def Reg.RING_DOORBELL.TAIL (u : Nat) : Fld := ⟨0x3000000 + 0x1000 * u, 0, 32⟩
def Reg.RING_BASE.LOC (u : Nat) : Fld := ⟨0x3000008 + 0x1000 * u, 0, 1⟩
def Reg.RING_BASE.ADDR (u : Nat) : Fld := ⟨0x3000008 + 0x1000 * u, 12, 52⟩
def Reg.RING_CPL_BASE.LOC (u : Nat) : Fld := ⟨0x3000010 + 0x1000 * u, 0, 1⟩
def Reg.RING_CPL_BASE.ADDR (u : Nat) : Fld := ⟨0x3000010 + 0x1000 * u, 12, 52⟩
def Reg.RING_CFG.SIZE_LOG2 (u : Nat) : Fld := ⟨0x3000018 + 0x1000 * u, 0, 5⟩
def Reg.RING_CFG.HALF (u : Nat) : Fld := ⟨0x3000018 + 0x1000 * u, 8, 1⟩
def Reg.RING_CFG.WAIT_LIMIT (u : Nat) : Fld := ⟨0x3000018 + 0x1000 * u, 16, 16⟩
def Reg.RING_CTL.ENABLE (u : Nat) : Fld := ⟨0x300001c + 0x1000 * u, 0, 1⟩
def Reg.RING_CTL.RESET (u : Nat) : Fld := ⟨0x300001c + 0x1000 * u, 1, 1⟩
def Reg.RING_CTL.ABORT_ALL (u : Nat) : Fld := ⟨0x300001c + 0x1000 * u, 2, 1⟩
def Reg.RING_STA.STATE (u : Nat) : Fld := ⟨0x3000020 + 0x1000 * u, 0, 2⟩
def Reg.RING_STA.CAUSE (u : Nat) : Fld := ⟨0x3000020 + 0x1000 * u, 4, 4⟩
def Reg.RING_STA.LAST_CODE (u : Nat) : Fld := ⟨0x3000020 + 0x1000 * u, 8, 8⟩
def Reg.RING_STA.INFLIGHT (u : Nat) : Fld := ⟨0x3000020 + 0x1000 * u, 16, 7⟩
def Reg.RING_HEAD.COUNT (u : Nat) : Fld := ⟨0x3000024 + 0x1000 * u, 0, 32⟩
def Reg.RING_TAIL.COUNT (u : Nat) : Fld := ⟨0x3000028 + 0x1000 * u, 0, 32⟩
def Reg.RING_SEQ_ADM.SEQ (u : Nat) : Fld := ⟨0x3000030 + 0x1000 * u, 0, 48⟩
def Reg.RING_SEQ_DONE.SEQ (u : Nat) : Fld := ⟨0x3000038 + 0x1000 * u, 0, 48⟩
def Reg.RING_CPL_CNT.COUNT (u : Nat) : Fld := ⟨0x3000040 + 0x1000 * u, 0, 32⟩
def Reg.RING_CPL_ACK.COUNT (u : Nat) : Fld := ⟨0x3000044 + 0x1000 * u, 0, 32⟩
def Reg.RING_VEC.VECTOR (u : Nat) : Fld := ⟨0x3000048 + 0x1000 * u, 0, 6⟩
def Reg.RING_VEC.EVERY (u : Nat) : Fld := ⟨0x3000048 + 0x1000 * u, 8, 1⟩
def Reg.RING_ERR_TALLY.TALLY (u : Nat) : Fld := ⟨0x300004c + 0x1000 * u, 0, 18⟩
def Reg.RING_ERR_TALLY.VALID (u : Nat) : Fld := ⟨0x300004c + 0x1000 * u, 31, 1⟩
def Reg.RING_ABORT.SEQ (u : Nat) : Fld := ⟨0x3000050 + 0x1000 * u, 0, 48⟩
def Reg.RING_ABORT_STA.CODE (u : Nat) : Fld := ⟨0x3000058 + 0x1000 * u, 0, 8⟩
def Reg.RING_ABORT_STA.BUSY (u : Nat) : Fld := ⟨0x3000058 + 0x1000 * u, 8, 1⟩
def Reg.RING_ABORT_STA.COUNT (u : Nat) : Fld := ⟨0x3000058 + 0x1000 * u, 16, 16⟩
def Reg.RING_WATCH.TALLY (u : Nat) : Fld := ⟨0x3000060 + 0x1000 * u, 0, 18⟩
def Reg.RING_WATCH.VECTOR (u : Nat) : Fld := ⟨0x3000060 + 0x1000 * u, 24, 6⟩
def Reg.RING_WATCH.VALID (u : Nat) : Fld := ⟨0x3000060 + 0x1000 * u, 31, 1⟩
def Reg.RING_WATCH_VALUE.VALUE (u : Nat) : Fld := ⟨0x3000068 + 0x1000 * u, 0, 64⟩
/-- R442. -/ def Reg.DSP_CFG.URGENT_TILE (u : Nat) : Fld := ⟨0x80040 + 0x1000 * u, 0, 5⟩
def Reg.DSP_CFG.NORMAL_WEIGHT (u : Nat) : Fld := ⟨0x80040 + 0x1000 * u, 8, 4⟩
def Reg.DSP_STA.RINGS (u : Nat) : Fld := ⟨0x80044 + 0x1000 * u, 0, 11⟩
def Reg.DSP_STA.EXC_PENDING (u : Nat) : Fld := ⟨0x80044 + 0x1000 * u, 16, 8⟩
def Reg.DSP_ISSUED.COUNT (u : Nat) : Fld := ⟨0x80048 + 0x1000 * u, 0, 64⟩
def Reg.DSP_ADMIT_FAIL.COUNT (u : Nat) : Fld := ⟨0x80050 + 0x1000 * u, 0, 32⟩
def Reg.DSP_DUP.COUNT (u : Nat) : Fld := ⟨0x80054 + 0x1000 * u, 0, 32⟩
def Reg.DSP_WAITING.COUNT (u : Nat) : Fld := ⟨0x80058 + 0x1000 * u, 0, 16⟩
/-- R478. -/ def Reg.TIL_STA.STATE (u : Nat) : Fld := ⟨0x100040 + 0x1000 * u, 0, 2⟩
def Reg.TIL_STA.IN_POOL (u : Nat) : Fld := ⟨0x100040 + 0x1000 * u, 2, 1⟩
def Reg.TIL_STA.URGENT_ONLY (u : Nat) : Fld := ⟨0x100040 + 0x1000 * u, 3, 1⟩
def Reg.TIL_STA.CONTEXT_HELD (u : Nat) : Fld := ⟨0x100040 + 0x1000 * u, 4, 1⟩
def Reg.TIL_STA.RUNNING (u : Nat) : Fld := ⟨0x100040 + 0x1000 * u, 5, 1⟩
def Reg.TIL_STA.ACCOUNT (u : Nat) : Fld := ⟨0x100040 + 0x1000 * u, 8, 5⟩
def Reg.TIL_PWR_REQ.REQ (u : Nat) : Fld := ⟨0x100044 + 0x1000 * u, 0, 2⟩
def Reg.TIL_OP.SEQ (u : Nat) : Fld := ⟨0x100048 + 0x1000 * u, 0, 48⟩
def Reg.TIL_OP.RING (u : Nat) : Fld := ⟨0x100048 + 0x1000 * u, 48, 5⟩
def Reg.TIL_LIBVER.VERSION (u : Nat) : Fld := ⟨0x100050 + 0x1000 * u, 0, 16⟩
def Reg.TIL_SLICES.COUNT (u : Nat) : Fld := ⟨0x100058 + 0x1000 * u, 0, 64⟩
def Reg.TIL_BUSY.CYCLES (u : Nat) : Fld := ⟨0x100060 + 0x1000 * u, 0, 64⟩
def Reg.TIL_PREEMPT.COUNT (u : Nat) : Fld := ⟨0x100068 + 0x1000 * u, 0, 32⟩
def Reg.TIL_ECC.CORR (u : Nat) : Fld := ⟨0x10006c + 0x1000 * u, 0, 16⟩
def Reg.TIL_ECC.UNCORR (u : Nat) : Fld := ⟨0x10006c + 0x1000 * u, 16, 16⟩
/-- R524. -/ def Reg.HMC_STA.TRAINED (u : Nat) : Fld := ⟨0x180040 + 0x1000 * u, 0, 1⟩
def Reg.HMC_STA.RETRAINING (u : Nat) : Fld := ⟨0x180040 + 0x1000 * u, 1, 1⟩
def Reg.HMC_STA.STACK_FAULT (u : Nat) : Fld := ⟨0x180040 + 0x1000 * u, 2, 1⟩
def Reg.HMC_STA.CAUSE (u : Nat) : Fld := ⟨0x180040 + 0x1000 * u, 4, 3⟩
def Reg.HMC_ECC_CNT.CORR (u : Nat) : Fld := ⟨0x180044 + 0x1000 * u, 0, 16⟩
def Reg.HMC_ECC_CNT.UNCORR (u : Nat) : Fld := ⟨0x180044 + 0x1000 * u, 16, 16⟩
def Reg.HMC_POISON_CNT.MADE (u : Nat) : Fld := ⟨0x180048 + 0x1000 * u, 0, 16⟩
def Reg.HMC_POISON_CNT.READS (u : Nat) : Fld := ⟨0x180048 + 0x1000 * u, 16, 16⟩
def Reg.HMC_ODECC.COUNT (u : Nat) : Fld := ⟨0x18004c + 0x1000 * u, 0, 32⟩
def Reg.HMC_XFER_CNT.RETRIES (u : Nat) : Fld := ⟨0x180050 + 0x1000 * u, 0, 16⟩
def Reg.HMC_XFER_CNT.RETRAINS (u : Nat) : Fld := ⟨0x180050 + 0x1000 * u, 16, 16⟩
def Reg.HMC_ERR_ENTRY.ENTRY (u : Nat) : Fld := ⟨0x180058 + 0x1000 * u, 0, 64⟩
def Reg.HMC_ERR_STA.LEVEL (u : Nat) : Fld := ⟨0x180060 + 0x1000 * u, 0, 5⟩
def Reg.HMC_ERR_STA.LOST (u : Nat) : Fld := ⟨0x180060 + 0x1000 * u, 16, 16⟩
def Reg.HMC_SCRUB_CFG.PERIOD_H (u : Nat) : Fld := ⟨0x180064 + 0x1000 * u, 0, 8⟩
def Reg.HMC_SCRUB_STA.PASSES (u : Nat) : Fld := ⟨0x180068 + 0x1000 * u, 0, 16⟩
def Reg.HMC_SCRUB_STA.PERMILLE (u : Nat) : Fld := ⟨0x180068 + 0x1000 * u, 16, 10⟩
/-- R525. -/ def Reg.MPU_QOS.URGENT_SHARE (u : Nat) : Fld := ⟨0x188040 + 0x1000 * u, 0, 5⟩
def Reg.MPU_QOS.NORMAL_WEIGHT (u : Nat) : Fld := ⟨0x188040 + 0x1000 * u, 8, 4⟩
def Reg.MPU_DEMOTED.COUNT (u : Nat) : Fld := ⟨0x188044 + 0x1000 * u, 0, 32⟩
def Reg.MPU_LAT_MAX.NS (u n : Nat) : Fld := ⟨0x188048 + 0x1000 * u + 0x4 * n, 0, 16⟩
/-- R526. -/ def Reg.BNK_SECURE.COUNT (u : Nat) : Fld := ⟨0x140040 + 0x1000 * u, 0, 3⟩
def Reg.BNK_TAMPER.LEVEL (u : Nat) : Fld := ⟨0x140044 + 0x1000 * u, 0, 1⟩
def Reg.BNK_TAMPER.LATCHED (u : Nat) : Fld := ⟨0x140044 + 0x1000 * u, 1, 1⟩
def Reg.BNK_TAMPER.GLITCH_V (u : Nat) : Fld := ⟨0x140044 + 0x1000 * u, 8, 8⟩
def Reg.BNK_FAULT.MASK (u : Nat) : Fld := ⟨0x140048 + 0x1000 * u, 0, 48⟩
def Reg.BNK_WIPING.MASK (u : Nat) : Fld := ⟨0x140050 + 0x1000 * u, 0, 48⟩
def Reg.BNK_OFFLINE_REQ.MASK (u : Nat) : Fld := ⟨0x140058 + 0x1000 * u, 0, 48⟩
def Reg.BNK_OFFLINE.MASK (u : Nat) : Fld := ⟨0x140060 + 0x1000 * u, 0, 48⟩
def Reg.BNK_PWR_REQ.REQ (u n : Nat) : Fld := ⟨0x140068 + 0x1000 * u + 0x4 * n, 0, 32⟩
def Reg.BNK_PWR_STA.STATE (u n : Nat) : Fld := ⟨0x140074 + 0x1000 * u + 0x4 * n, 0, 32⟩
def Reg.BNK_ECC.CORR (u : Nat) : Fld := ⟨0x140080 + 0x1000 * u, 0, 16⟩
def Reg.BNK_ECC.UNCORR (u : Nat) : Fld := ⟨0x140080 + 0x1000 * u, 16, 16⟩
def Reg.BNK_POISON.MADE (u : Nat) : Fld := ⟨0x140084 + 0x1000 * u, 0, 16⟩
def Reg.BNK_POISON.READS (u : Nat) : Fld := ⟨0x140084 + 0x1000 * u, 16, 16⟩
def Reg.BNK_ERR_ENTRY.ENTRY (u : Nat) : Fld := ⟨0x140088 + 0x1000 * u, 0, 64⟩
def Reg.BNK_ERR_STA.LEVEL (u : Nat) : Fld := ⟨0x140090 + 0x1000 * u, 0, 5⟩
def Reg.BNK_ERR_STA.LOST (u : Nat) : Fld := ⟨0x140090 + 0x1000 * u, 16, 16⟩
/-- R527. -/ def Reg.MTE_CMD.KIND (u : Nat) : Fld := ⟨0x142040 + 0x1000 * u, 0, 2⟩
def Reg.MTE_CMD.INDEX (u : Nat) : Fld := ⟨0x142040 + 0x1000 * u, 8, 6⟩
def Reg.MTE_CMD.MODE (u : Nat) : Fld := ⟨0x142040 + 0x1000 * u, 16, 1⟩
def Reg.MTE_CMD.REPAIR (u : Nat) : Fld := ⟨0x142040 + 0x1000 * u, 17, 1⟩
def Reg.MTE_CMD.START (u : Nat) : Fld := ⟨0x142040 + 0x1000 * u, 31, 1⟩
def Reg.MTE_STA.STATE (u : Nat) : Fld := ⟨0x142044 + 0x1000 * u, 0, 3⟩
def Reg.MTE_STA.CODE (u : Nat) : Fld := ⟨0x142044 + 0x1000 * u, 8, 8⟩
def Reg.MTE_STA.FAIL_ROWS (u : Nat) : Fld := ⟨0x142044 + 0x1000 * u, 16, 12⟩
def Reg.MTE_SPARES.FREE (u : Nat) : Fld := ⟨0x142048 + 0x1000 * u, 0, 16⟩
def Reg.MTE_REPAIR_LOG.ENTRY (u : Nat) : Fld := ⟨0x142050 + 0x1000 * u, 0, 32⟩
def Reg.MTE_REPAIR_LOG.VALID (u : Nat) : Fld := ⟨0x142050 + 0x1000 * u, 63, 1⟩
def Reg.MTE_POISONED.WORDS (u : Nat) : Fld := ⟨0x142058 + 0x1000 * u, 0, 32⟩
/-- R570. -/ def Reg.FOL_STA.OPEN (u : Nat) : Fld := ⟨0x1c0040 + 0x1000 * u, 0, 10⟩
def Reg.FOL_STA.SHADOWS (u : Nat) : Fld := ⟨0x1c0040 + 0x1000 * u, 10, 10⟩
def Reg.FOL_TABLE_FREE.ENTRIES (u : Nat) : Fld := ⟨0x1c0044 + 0x1000 * u, 0, 26⟩
def Reg.FOL_QUERY.FOLIO (u : Nat) : Fld := ⟨0x1c0048 + 0x1000 * u, 0, 10⟩
def Reg.FOL_QUERY.LAYER (u : Nat) : Fld := ⟨0x1c0048 + 0x1000 * u, 16, 7⟩
def Reg.FOL_QUERY_STA.STATE (u : Nat) : Fld := ⟨0x1c004c + 0x1000 * u, 0, 2⟩
def Reg.FOL_QUERY_STA.KIND (u : Nat) : Fld := ⟨0x1c004c + 0x1000 * u, 2, 1⟩
def Reg.FOL_QUERY_STA.GEN (u : Nat) : Fld := ⟨0x1c004c + 0x1000 * u, 4, 6⟩
def Reg.FOL_QUERY_STA.FMT (u : Nat) : Fld := ⟨0x1c004c + 0x1000 * u, 16, 8⟩
def Reg.FOL_QUERY_STA.LAYERS (u : Nat) : Fld := ⟨0x1c004c + 0x1000 * u, 24, 8⟩
def Reg.FOL_QUERY_LEN.LEN (u : Nat) : Fld := ⟨0x1c0050 + 0x1000 * u, 0, 32⟩
def Reg.FOL_QUERY_PAGES.PAGES (u : Nat) : Fld := ⟨0x1c0054 + 0x1000 * u, 0, 32⟩
def Reg.FOL_ATTEND.COUNT (u : Nat) : Fld := ⟨0x1c0058 + 0x1000 * u, 0, 64⟩
def Reg.FOL_PART_TX.COUNT (u : Nat) : Fld := ⟨0x1c0060 + 0x1000 * u, 0, 64⟩
def Reg.FOL_PART_RX.COUNT (u : Nat) : Fld := ⟨0x1c0068 + 0x1000 * u, 0, 64⟩
def Reg.FOL_PEER_LOST.COUNT (u : Nat) : Fld := ⟨0x1c0070 + 0x1000 * u, 0, 32⟩
def Reg.FOL_REFUSED.COUNT (u : Nat) : Fld := ⟨0x1c0074 + 0x1000 * u, 0, 32⟩
def Reg.FOL_POOL_BASE.BASE (u n : Nat) : Fld := ⟨0x1c0100 + 0x1000 * u + 0x10 * n, 21, 31⟩
def Reg.FOL_POOL_CFG.PAGES (u n : Nat) : Fld := ⟨0x1c0108 + 0x1000 * u + 0x10 * n, 0, 22⟩
def Reg.FOL_POOL_CFG.OWNER (u n : Nat) : Fld := ⟨0x1c0108 + 0x1000 * u + 0x10 * n, 24, 5⟩
def Reg.FOL_POOL_STRIDE.LINES (u n : Nat) : Fld := ⟨0x1c010c + 0x1000 * u + 0x10 * n, 0, 16⟩
def Reg.FOL_POOL_FREE.FREE (u n : Nat) : Fld := ⟨0x1c0500 + 0x1000 * u + 0x4 * n, 0, 22⟩
/-- R620. -/ def Reg.FPT_CFG.MEDIUM (u : Nat) : Fld := ⟨0x240040 + 0x1000 * u, 0, 2⟩
def Reg.FPT_CFG.MAX_WIDTH (u : Nat) : Fld := ⟨0x240040 + 0x1000 * u, 2, 2⟩
def Reg.FPT_CFG.LANE_EN (u : Nat) : Fld := ⟨0x240040 + 0x1000 * u, 4, 4⟩
def Reg.FPT_LINK_WAIT.MS (u : Nat) : Fld := ⟨0x240044 + 0x1000 * u, 0, 10⟩
def Reg.FPT_ADAPT.PERIOD_MS (u : Nat) : Fld := ⟨0x240048 + 0x1000 * u, 0, 16⟩
def Reg.FPT_PFC.PRIO_EN (u : Nat) : Fld := ⟨0x24004c + 0x1000 * u, 0, 8⟩
def Reg.FPT_PFC.XOFF_KIB (u : Nat) : Fld := ⟨0x24004c + 0x1000 * u, 8, 12⟩
def Reg.FPT_PFC.XON_KIB (u : Nat) : Fld := ⟨0x24004c + 0x1000 * u, 20, 12⟩
def Reg.FPT_CMD.RETRAIN (u : Nat) : Fld := ⟨0x240050 + 0x1000 * u, 0, 1⟩
def Reg.FPT_STA.STATE (u : Nat) : Fld := ⟨0x240054 + 0x1000 * u, 0, 4⟩
def Reg.FPT_STA.WIDTH (u : Nat) : Fld := ⟨0x240054 + 0x1000 * u, 4, 2⟩
def Reg.FPT_STA.LANE_OK (u : Nat) : Fld := ⟨0x240054 + 0x1000 * u, 8, 4⟩
def Reg.FPT_STA.INVERTED (u : Nat) : Fld := ⟨0x240054 + 0x1000 * u, 12, 4⟩
def Reg.FPT_STA.CAUSE (u : Nat) : Fld := ⟨0x240054 + 0x1000 * u, 16, 4⟩
def Reg.FPT_PEER.NODE (u : Nat) : Fld := ⟨0x240058 + 0x1000 * u, 0, 16⟩
def Reg.FPT_PEER.PORT (u : Nat) : Fld := ⟨0x240058 + 0x1000 * u, 16, 5⟩
def Reg.FPT_PEER.VALID (u : Nat) : Fld := ⟨0x240058 + 0x1000 * u, 31, 1⟩
def Reg.FPT_TX_FRAMES.COUNT (u : Nat) : Fld := ⟨0x240060 + 0x1000 * u, 0, 64⟩
def Reg.FPT_RX_FRAMES.COUNT (u : Nat) : Fld := ⟨0x240068 + 0x1000 * u, 0, 64⟩
def Reg.FPT_FEC_CORR.COUNT (u : Nat) : Fld := ⟨0x240070 + 0x1000 * u, 0, 32⟩
def Reg.FPT_FEC_UNCORR.COUNT (u : Nat) : Fld := ⟨0x240074 + 0x1000 * u, 0, 32⟩
def Reg.FPT_FCS_ERR.COUNT (u : Nat) : Fld := ⟨0x240078 + 0x1000 * u, 0, 32⟩
def Reg.FPT_PFC_CNT.RX (u : Nat) : Fld := ⟨0x24007c + 0x1000 * u, 0, 16⟩
def Reg.FPT_PFC_CNT.TX (u : Nat) : Fld := ⟨0x24007c + 0x1000 * u, 16, 16⟩
def Reg.FPT_HELD.LEVEL (u : Nat) : Fld := ⟨0x240080 + 0x1000 * u, 0, 16⟩
def Reg.FPT_HELD.FAILED (u : Nat) : Fld := ⟨0x240080 + 0x1000 * u, 16, 16⟩
def Reg.FPT_TRAIN_CNT.TRAININGS (u : Nat) : Fld := ⟨0x240084 + 0x1000 * u, 0, 16⟩
def Reg.FPT_TRAIN_CNT.DEGRADES (u : Nat) : Fld := ⟨0x240084 + 0x1000 * u, 16, 16⟩
/-- R622. -/ def Reg.XPT_NODE.NODE : Fld := ⟨0x260040, 0, 16⟩
def Reg.XPT_SYSTEM.SYSTEM : Fld := ⟨0x260044, 0, 32⟩
def Reg.XPT_ETHERTYPE.TYPE : Fld := ⟨0x260048, 0, 16⟩
def Reg.XPT_MAC_PREFIX.PREFIX : Fld := ⟨0x26004c, 0, 24⟩
def Reg.XPT_VLAN.VID : Fld := ⟨0x260050, 0, 12⟩
def Reg.XPT_PCP.PCP : Fld := ⟨0x260054, 0, 21⟩
def Reg.XPT_REQ_TIMEOUT.UNITS : Fld := ⟨0x260058, 0, 16⟩
def Reg.XPT_RTO.US : Fld := ⟨0x26005c, 0, 16⟩
def Reg.XPT_MESH.PORTS (n : Nat) : Fld := ⟨0x260060 + 0x4 * n, 0, 32⟩
def Reg.XPT_UPLINK.PORTS : Fld := ⟨0x260070, 0, 24⟩
def Reg.XPT_STA.SESSION : Fld := ⟨0x260074, 0, 16⟩
def Reg.XPT_TX_MSG.COUNT : Fld := ⟨0x260080, 0, 64⟩
def Reg.XPT_RETX.COUNT : Fld := ⟨0x260088, 0, 32⟩
def Reg.XPT_DUP.COUNT : Fld := ⟨0x26008c, 0, 32⟩
def Reg.XPT_DROPPED.COUNT : Fld := ⟨0x260090, 0, 32⟩
def Reg.XPT_TIMEOUT.COUNT : Fld := ⟨0x260094, 0, 32⟩
def Reg.XPT_LATE_RSP.COUNT : Fld := ⟨0x260098, 0, 32⟩
def Reg.XPT_EXPORT.WR (n : Nat) : Fld := ⟨0x260200 + 0x10 * n, 0, 16⟩
def Reg.XPT_EXPORT.RD (n : Nat) : Fld := ⟨0x260200 + 0x10 * n, 16, 16⟩
def Reg.XPT_EXPORT.NODE_MATCH (n : Nat) : Fld := ⟨0x260200 + 0x10 * n, 32, 16⟩
def Reg.XPT_EXPORT.NODE_MASK (n : Nat) : Fld := ⟨0x260200 + 0x10 * n, 48, 16⟩
def Reg.XPT_EXPORT_ACCT.ACCTS (n : Nat) : Fld := ⟨0x260208 + 0x10 * n, 0, 32⟩
def Reg.XPT_EXPORT_TALLY.ENABLE (n : Nat) : Fld := ⟨0x26020c + 0x10 * n, 0, 1⟩
/-- R624. -/ def Reg.TSY_CFG.ROLE : Fld := ⟨0x261040, 0, 2⟩
def Reg.TSY_CFG.DOMAIN : Fld := ⟨0x261040, 8, 8⟩
def Reg.TSY_CFG.SYNC_EXP : Fld := ⟨0x261040, 16, 4⟩
def Reg.TSY_CFG.PDELAY_EXP : Fld := ⟨0x261040, 20, 4⟩
def Reg.TSY_SLAVE_PORT.PORT : Fld := ⟨0x261044, 0, 5⟩
def Reg.TSY_STA.SYNCED : Fld := ⟨0x261048, 0, 1⟩
def Reg.TSY_STA.HOLDOVER : Fld := ⟨0x261048, 1, 1⟩
def Reg.TSY_STA.STEP_NEEDED : Fld := ⟨0x261048, 2, 1⟩
def Reg.TSY_STA.MASTER_SYNCED : Fld := ⟨0x261048, 3, 1⟩
def Reg.TSY_STA.TIME_SET : Fld := ⟨0x261048, 4, 1⟩
def Reg.TSY_STA.SLEWING : Fld := ⟨0x261048, 5, 1⟩
def Reg.TSY_OFFSET.OFFSET : Fld := ⟨0x261050, 0, 48⟩
def Reg.TSY_DELAY.DELAY : Fld := ⟨0x261058, 0, 48⟩
def Reg.TSY_RATE.RATE : Fld := ⟨0x261060, 0, 32⟩
def Reg.TSY_STEP.NS : Fld := ⟨0x261068, 0, 64⟩
def Reg.TSY_CNT.SYNC_RX : Fld := ⟨0x261070, 0, 16⟩
def Reg.TSY_CNT.SYNC_MISS : Fld := ⟨0x261070, 16, 16⟩
def Reg.TSY_ASYM.ASYM (n : Nat) : Fld := ⟨0x261100 + 0x4 * n, 0, 16⟩
/-- R672. -/ def Reg.COL_CFG.STAGGER_US (u : Nat) : Fld := ⟨0x280040 + 0x1000 * u, 0, 14⟩
def Reg.COL_STA.GROUPS (u : Nat) : Fld := ⟨0x280044 + 0x1000 * u, 0, 13⟩
def Reg.COL_STA.INFLIGHT (u : Nat) : Fld := ⟨0x280044 + 0x1000 * u, 16, 9⟩
def Reg.COL_EARLY.KIB (u : Nat) : Fld := ⟨0x280048 + 0x1000 * u, 0, 14⟩
def Reg.COL_OPS.COUNT (u : Nat) : Fld := ⟨0x280050 + 0x1000 * u, 0, 64⟩
def Reg.COL_RESIDUE.RETRIES (u : Nat) : Fld := ⟨0x280058 + 0x1000 * u, 0, 16⟩
def Reg.COL_RESIDUE.FAILS (u : Nat) : Fld := ⟨0x280058 + 0x1000 * u, 16, 16⟩
def Reg.COL_DUP.COUNT (u : Nat) : Fld := ⟨0x28005c + 0x1000 * u, 0, 32⟩
def Reg.COL_EXCLUDED.SELF (u : Nat) : Fld := ⟨0x280060 + 0x1000 * u, 0, 16⟩
def Reg.COL_EXCLUDED.OTHERS (u : Nat) : Fld := ⟨0x280060 + 0x1000 * u, 16, 16⟩
def Reg.COL_TIMEOUT.COUNT (u : Nat) : Fld := ⟨0x280064 + 0x1000 * u, 0, 32⟩
def Reg.COL_OVERFLOW.COUNT (u : Nat) : Fld := ⟨0x280068 + 0x1000 * u, 0, 32⟩
def Reg.COL_CONFLICT.COUNT (u : Nat) : Fld := ⟨0x28006c + 0x1000 * u, 0, 32⟩
def Reg.COL_PROMOTE.GROUP (u n : Nat) : Fld := ⟨0x280100 + 0x1000 * u + 0x10 * n, 0, 12⟩
def Reg.COL_PROMOTE.VALID (u n : Nat) : Fld := ⟨0x280100 + 0x1000 * u + 0x10 * n, 31, 1⟩
def Reg.COL_PROMOTE_EPOCH.EPOCH (u n : Nat) : Fld := ⟨0x280108 + 0x1000 * u + 0x10 * n, 0, 64⟩
/-- R705. -/ def Reg.MNT_STA.INFLIGHT (u : Nat) : Fld := ⟨0x2a0040 + 0x1000 * u, 0, 9⟩
def Reg.MNT_EARLY.KIB (u : Nat) : Fld := ⟨0x2a0044 + 0x1000 * u, 0, 14⟩
def Reg.MNT_OPS.COUNT (u : Nat) : Fld := ⟨0x2a0048 + 0x1000 * u, 0, 64⟩
def Reg.MNT_BLOCKS.COUNT (u : Nat) : Fld := ⟨0x2a0050 + 0x1000 * u, 0, 64⟩
def Reg.MNT_TX_BYTES.BYTES (u : Nat) : Fld := ⟨0x2a0058 + 0x1000 * u, 0, 64⟩
def Reg.MNT_NONFINITE.COUNT (u : Nat) : Fld := ⟨0x2a0060 + 0x1000 * u, 0, 32⟩
def Reg.MNT_EXCLUDED.KEEP (u : Nat) : Fld := ⟨0x2a0064 + 0x1000 * u, 0, 16⟩
def Reg.MNT_EXCLUDED.DROP (u : Nat) : Fld := ⟨0x2a0064 + 0x1000 * u, 16, 16⟩
def Reg.MNT_RESIDUE.RETRIES (u : Nat) : Fld := ⟨0x2a0068 + 0x1000 * u, 0, 16⟩
def Reg.MNT_RESIDUE.FAILS (u : Nat) : Fld := ⟨0x2a0068 + 0x1000 * u, 16, 16⟩
def Reg.MNT_DUP.COUNT (u : Nat) : Fld := ⟨0x2a006c + 0x1000 * u, 0, 32⟩
/-- R744. -/ def Reg.UPD_STA.INFLIGHT (u : Nat) : Fld := ⟨0x2b0040 + 0x1000 * u, 0, 9⟩
def Reg.UPD_ELEMS.COUNT (u : Nat) : Fld := ⟨0x2b0048 + 0x1000 * u, 0, 64⟩
def Reg.UPD_SKIPPED.COUNT (u : Nat) : Fld := ⟨0x2b0050 + 0x1000 * u, 0, 32⟩
def Reg.UPD_NONFINITE.COUNT (u : Nat) : Fld := ⟨0x2b0054 + 0x1000 * u, 0, 32⟩
def Reg.UPD_MIRROR_BYTES.BYTES (u : Nat) : Fld := ⟨0x2b0058 + 0x1000 * u, 0, 64⟩
/-- R745. -/ def Reg.LSC_OWNER.ACCOUNT : Fld := ⟨0x2b2040, 0, 5⟩
def Reg.LSC_OWNER.ENABLE : Fld := ⟨0x2b2040, 8, 1⟩
def Reg.LSC_GROWTH.INTERVAL : Fld := ⟨0x2b2044, 0, 16⟩
def Reg.LSC_PTAB.BASE : Fld := ⟨0x2b2048, 6, 46⟩
def Reg.LSC_SEED.SEED : Fld := ⟨0x2b2050, 0, 64⟩
def Reg.LSC_K_SET.K : Fld := ⟨0x2b2058, 0, 64⟩
def Reg.LSC_LOAD.RUN_SET : Fld := ⟨0x2b2060, 0, 16⟩
def Reg.LSC_LOAD.VALID : Fld := ⟨0x2b2060, 31, 1⟩
def Reg.LSC_STEP_SET.STEP : Fld := ⟨0x2b2068, 0, 64⟩
def Reg.LSC_K.K : Fld := ⟨0x2b2070, 0, 64⟩
def Reg.LSC_RUN.RUN : Fld := ⟨0x2b2078, 0, 16⟩
def Reg.LSC_DEC_STEP.STEP : Fld := ⟨0x2b2080, 0, 64⟩
def Reg.LSC_DEC.DECISION : Fld := ⟨0x2b2088, 0, 3⟩
def Reg.LSC_DEC.BEHIND : Fld := ⟨0x2b2088, 3, 1⟩
def Reg.LSC_DEC.ROSTER_COUNT : Fld := ⟨0x2b2088, 8, 17⟩
def Reg.LSC_GMUL.GMUL : Fld := ⟨0x2b208c, 0, 32⟩
def Reg.LSC_GNORM.GN : Fld := ⟨0x2b2090, 0, 32⟩
def Reg.LSC_CLIP.CLIP : Fld := ⟨0x2b2094, 0, 32⟩
def Reg.LSC_ROSTER_HASH.HASH : Fld := ⟨0x2b2098, 0, 32⟩
def Reg.LSC_LEDGER_STA.QUEUED : Fld := ⟨0x2b20a0, 0, 3⟩
def Reg.LSC_LEDGER_STA.MIRROR_PENDING : Fld := ⟨0x2b20a0, 3, 1⟩
def Reg.LSC_LEDGER_STA.SEL : Fld := ⟨0x2b20a0, 4, 1⟩
def Reg.LSC_DURABLE_STEP.STEP : Fld := ⟨0x2b20a8, 0, 64⟩
def Reg.LSC_DIRTY.COUNT : Fld := ⟨0x2b20b0, 0, 16⟩
def Reg.LSC_SKIPS.OVERFLOW : Fld := ⟨0x2b20c0, 0, 16⟩
def Reg.LSC_SKIPS.ROSTER : Fld := ⟨0x2b20c0, 16, 16⟩
def Reg.LSC_MSRC.GRANULES (n : Nat) : Fld := ⟨0x2b2100 + 0x8 * n, 0, 16⟩
def Reg.LSC_MSRC.ALWAYS (n : Nat) : Fld := ⟨0x2b2100 + 0x8 * n, 16, 1⟩
def Reg.LSC_MSRC.BASE (n : Nat) : Fld := ⟨0x2b2100 + 0x8 * n, 21, 31⟩
def Reg.LSC_MDST.NODE : Fld := ⟨0x2b2140, 0, 16⟩
def Reg.LSC_MDST.RACCT : Fld := ⟨0x2b2140, 16, 5⟩
def Reg.LSC_MDST.RWIN : Fld := ⟨0x2b2140, 24, 4⟩
def Reg.LSC_MDST.VALID : Fld := ⟨0x2b2140, 31, 1⟩
def Reg.LSC_MDST.SLOTS : Fld := ⟨0x2b2140, 32, 17⟩
def Reg.LSC_MDST_OFF.OFFSET : Fld := ⟨0x2b2148, 21, 31⟩

/-- The row of a kind of page that holds page offset `o`, and the offset of that row's element that holds it. -/
def findRow : List RegRow → Nat → Option (RegRow × Nat)
  | [], _ => none
  | r :: rs, o =>
    if r.off ≤ o ∧ o < r.off + r.count * r.stride ∧ (o - r.off) % r.stride < r.bytes
    then some (r, o - (o - r.off) % r.stride) else findRow rs o

/-- A page offset that holds a register only on another page of its kind: SPX0's on SPX1 (R248), COL_A's on COL_B (R672), FWP0's on the other
clerks (R332). -/
def onOtherPage (pg o : Nat) : Bool :=
  (pg == 6 && ((decide (0x80 ≤ o) && decide (o < 0xC0) && decide (8 ≤ o % 16)) || (decide (0x110 ≤ o) && decide (o < 0x120))))
  || (pg == 0x281 && decide (0x100 ≤ o) && decide (o < 0x200))
  || (decide (0x11 ≤ pg) && decide (pg < 0x16) && o == 0x80)

/-- The register row at a PF BAR 0 offset, and the register's own offset (its key). SPX_MODE is read-only on SPX0 (R248). -/
def regRowAt (off : Nat) : Option (RegRow × Nat) :=
  match pageKind (off / 0x1000) with
  | none => none
  | some (k, _) =>
    if onOtherPage (off / 0x1000) (off % 0x1000) then none
    else
      match findRow (pageRows k) (off % 0x1000) with
      | none => none
      | some (r, o) =>
        let r := if off / 0x1000 = 5 ∧ o = 0x40 then { r with rw := 0, posted := false } else r
        some (r, off / 0x1000 * 0x1000 + o)

/-- The value of a register after reset: its Reset column; a field the table gives no reset value is 0 here (assumption log)
and is loaded during boot or reflects live state, but for the registers listed first: the unit maps of a device that treats every
unit as present (R37) with stepping B1, the safe clock table held by the ROM loop, a nominal VMAIN_SNS, a locked root PLL, a good REFCLK,
stack readouts that are not valid yet and so refresh at 4× (R348), and a high TAMPER_N (log entry 1).
SPX_MODE.ROLE is 1 on SPX0 (R248). -/
def regReset (key : Nat) : DWord :=
  if key = 0x5040 then 1
  else if key = 0x40 then 0x044C2100
  else if key = 0x44 then 0xFF
  else if key = 0x48 then 0x3FFFF
  else if key = 0x50 then 0x7F
  else if key = 0x58 then 0x00C000C0
  else if key = 0x1040 then 0x231
  else if key = 0x1050 then 0x800186A0
  else if key = 0x706C then 0x03E803E8
  else if key = 0x8088 then 0x44C
  else if key = 0x8094 then 0x03200320
  else if 0x8140 ≤ key ∧ key < 0x8160 then 0x200
  else if key = 0x140044 then 1
  else if key = 0x141044 then 1
  else match regRowAt key with
    | some (r, _) => BitVec.ofNat 64 r.reset
    | none => 0

end Sys2Proof.Machine
end

