-- ==== Sys2Proof/Machine/Ops.lean ====
section
/-!
DEFINITION. The named operations over tables, registers, memory, events and outputs that every meaning is written in.
-/
namespace Sys2Proof.Machine

/-! Tables. -/

/-- The value at a key; `d` where the key is unlisted. -/
def tblGet {β : Type} (d : β) : Tbl β → Nat → β
  | [], _ => d
  | (k', v) :: t, k => if k = k' then v else tblGet d t k

/-- The table without a key. -/
def tblErase {β : Type} : Tbl β → Nat → Tbl β
  | [], _ => []
  | (k', v) :: t, k => if k = k' then tblErase t k else (k', v) :: tblErase t k

/-- The table with an entry put before the first larger key. -/
def tblInsert {β : Type} : Tbl β → Nat → β → Tbl β
  | [], k, v => [(k, v)]
  | (k', v') :: t, k, v => if k < k' then (k, v) :: (k', v') :: t else (k', v') :: tblInsert t k v

/-- The table with a key set; setting the unlisted value removes the entry. -/
def tblSet {β : Type} [DecidableEq β] (d : β) (t : Tbl β) (k : Nat) (v : β) : Tbl β :=
  if v = d then tblErase t k else tblInsert (tblErase t k) k v

/-- Keys strictly rising above a bound, and no entry equal to the unlisted value. -/
def tblWfFrom {β : Type} [DecidableEq β] (d : β) : Nat → Tbl β → Bool
  | _, [] => true
  | b, (k, v) :: t => decide (b ≤ k) && decide (v ≠ d) && tblWfFrom d (k + 1) t

/-- The canonical form of a table. -/
def tblWf {β : Type} [DecidableEq β] (d : β) (t : Tbl β) : Bool := tblWfFrom d 0 t

/-- Apply `f` to the value at a key. -/
def tblMod {β : Type} [DecidableEq β] (d : β) (t : Tbl β) (k : Nat) (f : β → β) : Tbl β := tblSet d t k (f (tblGet d t k))

/-! Bits of numbers. -/

/-- Bits `lo + w - 1 : lo` of `v`. -/
def bits (v lo w : Nat) : Nat := v / 2 ^ lo % 2 ^ w

/-- Bit `i` of `v`. -/
def bit (v i : Nat) : Bool := v / 2 ^ i % 2 = 1

/-- 1 for true. -/
def b2n (b : Bool) : Nat := if b then 1 else 0

/-- `v` with bit `i` set to `b`. -/
def setBit (v i : Nat) (b : Bool) : Nat :=
  if bit v i then (if b then v else v - 2 ^ i) else (if b then v + 2 ^ i else v)

/-- The low word, and of an 8-byte write the high, aligned one is enabled whole (R66). -/
def wordOn (be i : Nat) : Bool := bits be (4 * i) 4 = 15

/-- A write of `size` bytes with byte enables `be` that is not naturally aligned, or enables a word in part. -/
def badAccess (off size be : Nat) : Bool :=
  !((size = 4 && off % 4 = 0 && wordOn be 0) || (size = 8 && off % 8 = 0 && wordOn be 0 && wordOn be 1))

/-- Number of set bits among bits `w - 1 : 0`. -/
def popCount (v : Nat) : Nat → Nat
  | 0 => 0
  | w + 1 => popCount v w + b2n (bit v w)

/-- The mask with the bits `i < w` for which `f` holds. -/
def maskOf (f : Nat → Bool) : Nat → Nat
  | 0 => 0
  | w + 1 => maskOf f w + (if f w then 2 ^ w else 0)

/-- Number of listed positions that hold. -/
def countTrue (l : List Bool) : Nat := (l.filter id).length

/-! Bytes, little-endian (R8). -/

/-- The low `n` bytes of `v`, byte 0 first. -/
def leBytes : Nat → Nat → List Byte
  | 0, _ => []
  | n + 1, v => BitVec.ofNat 8 v :: leBytes n (v / 256)

/-- The number a byte list holds, byte 0 lowest. -/
def leNat : List Byte → Nat
  | [] => 0
  | b :: t => b.toNat + 256 * leNat t

/-- `n` bytes at offset `o` of a byte list as a number; missing bytes are 0. -/
def fieldAt (l : List Byte) (o n : Nat) : Nat := leNat ((l.drop o).take n)

/-- `n` zero bytes. -/
def zeros (n : Nat) : List Byte := List.replicate n 0

/-- The byte at an address of a sparse memory; an unlisted byte reads 0. -/
def byteAt (t : Tbl Byte) (a : Nat) : Byte := tblGet 0 t a

/-- `n` bytes from an address. -/
def bytesAt (t : Tbl Byte) (a : Nat) : Nat → List Byte
  | 0 => []
  | n + 1 => byteAt t a :: bytesAt t (a + 1) n

/-- A sparse memory with bytes stored from an address upward. -/
def storeBytes (t : Tbl Byte) (a : Nat) : List Byte → Tbl Byte
  | [] => t
  | b :: bs => storeBytes (tblSet 0 t a b) (a + 1) bs

/-- A sparse memory with the enabled bytes stored; a missing enable is off. -/
def storeMasked (t : Tbl Byte) (a : Nat) : List Byte → List Bool → Tbl Byte
  | b :: bs, e :: es => storeMasked (if e then tblSet 0 t a b else t) (a + 1) bs es
  | _, _ => t

/-- A sparse memory with `n` bytes from an address set to 0. -/
def zeroBytes (t : Tbl Byte) (a n : Nat) : Tbl Byte := t.filter fun e => !(decide (a ≤ e.1) && decide (e.1 < a + n))

/-- The canonical form of a sparse memory: addresses strictly rising, and no byte listed that an unlisted address reads as (log entry 3). -/
def Memory.wf (m : Tbl Byte) : Bool := tblWf 0 m

/-- One bit step of the reflected CRC with polynomial 0x82F6_3B78 (R153). -/
def crcStep (c : Nat) : Nat := if c % 2 = 1 then (c / 2) ^^^ 0x82F63B78 else c / 2

/-- CRC-32C of a byte list from a running register value. -/
def crcFrom : Nat → List Byte → Nat
  | c, [] => c
  | c, b :: t => crcFrom (Nat.repeat crcStep 8 (c ^^^ b.toNat)) t

/-- CRC-32C with initial value and final XOR of all ones (R153). -/
def crc32c (l : List Byte) : Nat := crcFrom 0xFFFFFFFF l ^^^ 0xFFFFFFFF

/-! Counterfoils (R95, R99). -/

/-- The counterfoil of a 32-bit value: the value below, its complement above. -/
def cfOf (v : Nat) : Nat := v % 2 ^ 32 + (2 ^ 32 - 1 - v % 2 ^ 32) * 2 ^ 32

/-- Whether the halves of a 64-bit word agree. -/
def cfOk (w : Nat) : Bool := (w % 2 ^ 32 + w / 2 ^ 32 % 2 ^ 32 = 2 ^ 32 - 1)

/-- The value of a valid counterfoil. -/
def cfVal (w : Nat) : Option Nat := if cfOk w then some (w % 2 ^ 32) else none

/-! Status codes (R100). -/
abbrev Code.OK : Nat := 0x00
abbrev Code.DUPLICATE : Nat := 0x01
abbrev Code.ALREADY_DONE : Nat := 0x02
abbrev Code.TOO_LATE : Nat := 0x03
abbrev Code.ABORTED : Nat := 0x04
abbrev Code.BOUNDS : Nat := 0x10
abbrev Code.ALIGN : Nat := 0x11
abbrev Code.FORMAT : Nat := 0x12
abbrev Code.LIMIT : Nat := 0x13
abbrev Code.PERMISSION : Nat := 0x14
abbrev Code.EPOCH : Nat := 0x15
abbrev Code.ABSENT : Nat := 0x16
abbrev Code.OVERFLOW : Nat := 0x17
abbrev Code.POISON : Nat := 0x20
abbrev Code.UNCORRECTABLE : Nat := 0x21
abbrev Code.RESIDUE : Nat := 0x22
abbrev Code.TIMEOUT : Nat := 0x30
abbrev Code.PEER_LOST : Nat := 0x31
abbrev Code.ROSTER : Nat := 0x32
abbrev Code.LINK_NOT_READY : Nat := 0x33
abbrev Code.VERSION : Nat := 0x40
abbrev Code.SIGNATURE : Nat := 0x41
abbrev Code.LIFECYCLE : Nat := 0x42
abbrev Code.THERMAL : Nat := 0x50
abbrev Code.POWER : Nat := 0x51
abbrev Code.INTERNAL : Nat := 0xFF

/-- The codes of the status table; no other is ever produced. -/
def codeListed (c : Nat) : Bool :=
  [0x00, 0x01, 0x02, 0x03, 0x04, 0x10, 0x11, 0x12, 0x13, 0x14, 0x15, 0x16, 0x17, 0x20, 0x21, 0x22, 0x30, 0x31, 0x32, 0x33, 0x40, 0x41, 0x42,
   0x50, 0x51, 0xFF].contains c

/-- The status of a failed host read (check 3 of R203): timeout, poisoned completion, or a refused request. -/
def fetchCode : Fetch → Nat
  | .ok _ => Code.OK
  | .timeout => Code.TIMEOUT
  | .poison => Code.POISON
  | .refused => Code.BOUNDS

/-- The status of a host write. -/
def dmaCode : DmaEnd → Nat
  | .ok => Code.OK
  | .timeout => Code.TIMEOUT
  | .poison => Code.POISON
  | .refused => Code.BOUNDS

/-! Registers. -/

/-- The live value of a register cell. -/
def State.cell (s : State) (key : Nat) : DWord := tblGet (regReset key) s.regs key

/-- The state with a live register cell set. -/
def State.setCell (s : State) (key : Nat) (v : DWord) : State := { s with regs := tblSet (regReset key) s.regs key v }

/-- The staged value of a register cell (R75). -/
def State.stagedCell (s : State) (key : Nat) : DWord := tblGet (regReset key) s.staged key

/-- The state with a staged register cell set. -/
def State.setStaged (s : State) (key : Nat) (v : DWord) : State := { s with staged := tblSet (regReset key) s.staged key v }

/-- The bits of a field in a register value. -/
def Fld.get (f : Fld) (c : DWord) : Nat := bits c.toNat f.lo f.width

/-- A register value with a field set to the low bits of `v`. -/
def Fld.put (f : Fld) (c : DWord) (v : Nat) : DWord :=
  (c &&& ~~~(BitVec.ofNat 64 ((2 ^ f.width - 1) * 2 ^ f.lo))) ||| BitVec.ofNat 64 (v % 2 ^ f.width * 2 ^ f.lo)

/-- The live value of a field. -/
def State.rd (s : State) (f : Fld) : Nat := f.get (s.cell f.key)

/-- Whether a one-bit field is set. -/
def State.on (s : State) (f : Fld) : Bool := s.rd f ≠ 0

/-- The state with a live field set. -/
def State.wr (s : State) (f : Fld) (v : Nat) : State := s.setCell f.key (f.put (s.cell f.key) v)

/-- The state with a one-bit field set. -/
def State.wrb (s : State) (f : Fld) (b : Bool) : State := s.wr f (b2n b)

/-- The staged value of a field. -/
def State.rdStaged (s : State) (f : Fld) : Nat := f.get (s.stagedCell f.key)

/-- The state with a field of a postable register set in both views, as the boot chain loads it. -/
def State.wrBoth (s : State) (f : Fld) (v : Nat) : State :=
  let t := s.wr f v
  t.setStaged f.key (f.put (t.stagedCell f.key) v)

/-- A saturating counter advanced by `n`. -/
def State.count (s : State) (f : Fld) (n : Nat) : State := s.wr f (min (s.rd f + n) (2 ^ f.width - 1))

/-- A wrapping counter advanced by `n`. -/
def State.countWrap (s : State) (f : Fld) (n : Nat) : State := s.wr f (s.rd f + n)

/-- A unit in soft reset accepts no new work, and ignores writes of its CTL (R64). -/
def State.resetting (s : State) (pg : Nat) : Bool := s.on (Reg.CTL.SOFT_RESET pg)

/-- A function's 32-bit read of the low word at an offset latches the high one (R67). -/
def State.latch (s : State) (fn off : Nat) (high : Word) : State := { s with split := tblSet none s.split fn (some (off, high)) }

/-! Free values and outputs. -/

/-- The state with the free-value counter advanced by `n`. -/
def State.skipFree (s : State) (n : Nat) : State := { s with free := s.free + n }

/-- `n` free bytes. -/
def State.freeBytes (s : State) (n : Nat) : List Byte := (List.range n).map fun i => Config.freeByte (s.free + i)

/-- The state with one more output. -/
def State.emit (s : State) (o : Out) : State := { s with out := o :: s.out }

/-! Time. -/

/-- Global time in nanoseconds (GLB_TIME, R78). -/
def State.now (s : State) : Nat := s.timeFine / 2 ^ 56 % 2 ^ 64

/-! Events and vectors (R62, R63, R377, R378). -/

/-- The key of a vector in the MSI-X tables. -/
def vecKey (fn vector : Nat) : Nat := 2048 * fn + vector

/-- Raise a vector: while it is masked the PBA bit is set; otherwise one message is sent if the function's MSI-X Enable is 1. -/
def State.raiseVec (s : State) (fn vector : Nat) : State :=
  if tblGet true s.msixMask (vecKey fn vector) then { s with msixPend := tblSet false s.msixPend (vecKey fn vector) true }
  else if tblGet false s.msixOn fn then s.emit (.msix fn vector) else s

/-- The function and vector of a page (R377). -/
def pageVector (pg : Nat) : Nat × Nat :=
  if 0x20 ≤ pg ∧ pg < 0x40 then (pg - 0x20, 0)
  else if 0x40 ≤ pg ∧ pg < 0x60 then (pg - 0x40, 1)
  else (0, 64 + pg)

/-- EVT_PEND of a page (R61). -/
def State.evtPend (s : State) (pg : Nat) : Nat := s.rd (Reg.EVT_RAW.RAW pg) &&& s.rd (Reg.EVT_EN.EN pg)

/-- Raise a page's vector. -/
def State.raisePage (s : State) (pg : Nat) : State := s.raiseVec (pageVector pg).1 (pageVector pg).2

/-- Set EVT_RAW bits of a page; the page raises its vector when EVT_PEND changes from 0 to non-zero. -/
def State.raiseMask (s : State) (pg m : Nat) : State :=
  let t := s.wr (Reg.EVT_RAW.RAW pg) (s.rd (Reg.EVT_RAW.RAW pg) ||| m)
  if s.evtPend pg = 0 ∧ t.evtPend pg ≠ 0 then t.raisePage pg else t

/-- Set one event of a page. -/
def State.raise (s : State) (pg i : Nat) : State := s.raiseMask pg (2 ^ i)

/-- Write EVT_RAW or EVT_EN so that the vector is raised again while EVT_PEND is non-zero (R378). -/
def State.reRaise (s : State) (pg : Nat) : State := if s.evtPend pg = 0 then s else s.raisePage pg

/-- The bit of the GLB fault maps that follows STA.FAULT of a page (R49, R55); the stacks' bit follows the stack (R489). -/
def faultBit (pg : Nat) : Option Fld :=
  if pg = 0x2B0 then some Reg.GLB_UNIT_FAULT.UPD_A else if pg = 0x2B1 then some Reg.GLB_UNIT_FAULT.UPD_B
  else if pg = 0x2B2 then some Reg.GLB_UNIT_FAULT.LSC else if pg = 0x2A0 then some Reg.GLB_UNIT_FAULT.MNT_A
  else if pg = 0x2A1 then some Reg.GLB_UNIT_FAULT.MNT_B else if pg = 7 then some Reg.GLB_UNIT_FAULT.VLT
  else if pg = 0x200 ∨ pg = 0x201 then some Reg.GLB_UNIT_FAULT.DLK
  else if 0x240 ≤ pg ∧ pg < 0x252 then some ⟨Reg.GLB_PORT_FAULT.FAULT.key, pg - 0x240, 1⟩ else none

/-- STA.FAULT of a page and its bit of the GLB fault maps take a value (R55). -/
def State.faultIs (s : State) (pg : Nat) (b : Bool) : State :=
  let t := s.wrb (Reg.STA.FAULT pg) b
  match faultBit pg with
  | some f => t.wrb f b
  | none => t

/-- Set STA.FAULT of a page; the FAULT event is set when it rises (R62). -/
def State.setFault (s : State) (pg : Nat) : State :=
  if s.on (Reg.STA.FAULT pg) then s else (s.faultIs pg true).raise pg 27

/-- A unit finds one of its own stored counterfoils with halves that disagree (R62, R98). -/
def State.cfCorrupt (s : State) (pg : Nat) : State := (s.raise pg 26).setFault pg

/-- LAST_STATUS of a page takes a code (R61). -/
def State.lastStatus (s : State) (pg code : Nat) : State := s.wr (Reg.LAST_STATUS.CODE pg) code

end Sys2Proof.Machine
end

