-- ==== Sys2Proof/Machine/NumFmt.lean ====
section
/-!
DEFINITION. Numbers and formats: exact dyadic values, the element formats and MX blocks, conversion with one rounding, chunked sums,
and the steps of FP32 arithmetic (R454-R459, R466, R469, R731).
-/
namespace Sys2Proof.Machine

/-- An exact value: NaN, an infinity, or `±m * 2^e`, with signed zeros. -/
inductive Num where
  | nan
  | inf (neg : Bool)
  | fin (neg : Bool) (m : Nat) (e : Int)
deriving DecidableEq, Repr, Inhabited

namespace Num

def zero : Num := .fin false 0 0
def ofInt (i : Int) (e : Int) : Num := .fin (decide (i < 0)) i.natAbs e
def isNan : Num → Bool
  | .nan => true
  | _ => false
/-- NaN or infinite. -/
def nonFinite : Num → Bool
  | .fin .. => false
  | _ => true
def isZero : Num → Bool
  | .fin _ 0 _ => true
  | _ => false
def neg : Num → Num
  | .nan => .nan
  | .inf s => .inf (!s)
  | .fin s m e => .fin (!s) m e
def abs : Num → Num
  | .nan => .nan
  | .inf _ => .inf false
  | .fin _ m e => .fin false m e
/-- The signed integer `±m * 2^(e - lo)` for `lo ≤ e`. -/
def scaled (s : Bool) (m : Nat) (e lo : Int) : Int := (if s then -1 else 1) * ((m * 2 ^ (e - lo).toNat : Nat) : Int)

/-- The exact sum; an exact cancellation is +0, and -0 comes only from two -0. -/
def add : Num → Num → Num
  | .nan, _ | _, .nan => .nan
  | .inf a, .inf b => if a = b then .inf a else .nan
  | .inf a, _ | _, .inf a => .inf a
  | .fin s m e, .fin t n f =>
    if m = 0 ∧ n = 0 then .fin (s && t) 0 0
    else
      let lo := min e f
      ofInt (scaled s m e lo + scaled t n f lo) lo
def sub (a b : Num) : Num := a.add b.neg
def mul : Num → Num → Num
  | .nan, _ | _, .nan => .nan
  | .inf a, .inf b => .inf (a ^^ b)
  | .inf a, .fin s m _ | .fin s m _, .inf a => if m = 0 then .nan else .inf (a ^^ s)
  | .fin s m e, .fin t n f => .fin (s ^^ t) (m * n) (e + f)
/-- Multiplication by `2^k`. -/
def shift (x : Num) (k : Int) : Num :=
  match x with
  | .fin s m e => .fin s m (e + k)
  | y => y

/-- Bits of a natural number. -/
def bitLen (m : Nat) : Nat := if m = 0 then 0 else Nat.log2 m + 1

/-- The quotient with 64 bits and more below its first, and a sticky bit: it rounds as the exact one. -/
def div : Num → Num → Num
  | .nan, _ | _, .nan => .nan
  | .inf _, .inf _ => .nan
  | .inf a, .fin t _ _ => .inf (a ^^ t)
  | .fin s _ _, .inf b => .fin (s ^^ b) 0 0
  | .fin s m e, .fin t n f =>
    if n = 0 then (if m = 0 then .nan else .inf (s ^^ t))
    else
      let k := 64 + bitLen n
      let num := m * 2 ^ k
      .fin (s ^^ t) (2 * (num / n) + (if num % n = 0 then 0 else 1)) (e - f - k - 1)

/-- The integer square root, built from bit `k - 1` down. -/
def isqrtFrom (n : Nat) : Nat → Nat → Nat
  | 0, r => r
  | k + 1, r => isqrtFrom n k (if (r + 2 ^ k) * (r + 2 ^ k) ≤ n then r + 2 ^ k else r)

/-- The square root with a sticky bit. -/
def sqrt : Num → Num
  | .nan => .nan
  | .inf s => if s then .nan else .inf false
  | .fin s m e =>
    if m = 0 then .fin s 0 0
    else if s then .nan
    else
      let odd := e % 2 ≠ 0
      let n := (if odd then 2 * m else m) * 2 ^ 128
      let e := if odd then e - 1 else e
      let r := isqrtFrom n (bitLen n / 2 + 1) 0
      .fin false (2 * r + (if r * r = n then 0 else 1)) (e / 2 - 65)

/-- Numeric order of non-NaN values, -0 below +0 (R468, R650). -/
def lt (a b : Num) : Bool :=
  match a, b with
  | .nan, _ | _, .nan => false
  | .inf s, .inf t => s && !t
  | .inf s, _ => s
  | _, .inf t => !t
  | .fin s m e, .fin t n f =>
    if m = 0 ∧ n = 0 then s && !t
    else
      let lo := min e f
      decide (scaled s m e lo < scaled t n f lo)
/-- The larger; NaN if either is. -/
def max (a b : Num) : Num := if a.isNan || b.isNan then .nan else if lt a b then b else a
def min' (a b : Num) : Num := if a.isNan || b.isNan then .nan else if lt b a then b else a

/-- The exponent of the leading bit of a non-zero finite value. -/
def expOf : Num → Int
  | .fin _ m e => e + (bitLen m : Int) - 1
  | _ => 0

end Num

/-- `m / 2^k`, rounded half to even. -/
def roundShift (m k : Nat) : Nat :=
  let q := m / 2 ^ k
  let r := m % 2 ^ k
  if 2 ^ k < 2 * r ∨ (2 * r = 2 ^ k ∧ q % 2 = 1) then q + 1 else q

/-- The integer nearest to a finite value, half to even. -/
def Num.toIntEven : Num → Int
  | .fin s m e =>
    let n : Nat := if 0 ≤ e then m * 2 ^ e.toNat else roundShift m (-e).toNat
    if s then -(n : Int) else (n : Int)
  | _ => 0

/-! Binary formats (R454, R455). -/

/-- A sign-magnitude floating format: exponent and mantissa bits, bias, largest finite code. -/
structure FloatFmt where
  eb : Nat
  mb : Nat
  bias : Int
  maxCode : Nat
deriving DecidableEq, Repr

def fmtFp32 : FloatFmt := ⟨8, 23, 127, 0x7F7FFFFF⟩
def fmtBf16 : FloatFmt := ⟨8, 7, 127, 0x7F7F⟩
def fmtE4m3 : FloatFmt := ⟨4, 3, 7, 0x7E⟩
def fmtE5m2 : FloatFmt := ⟨5, 2, 15, 0x7B⟩
def fmtE2m1 : FloatFmt := ⟨2, 1, 1, 7⟩

/-- The value of a code: above the largest finite code stand an infinity (E5M2, BF16, FP32) and NaNs. -/
def FloatFmt.decode (f : FloatFmt) (c : Nat) : Num :=
  let s := bit c (f.eb + f.mb)
  let mag := c % 2 ^ (f.eb + f.mb)
  if f.maxCode < mag then (if mag = f.maxCode + 1 ∧ mag % 2 ^ f.mb = 0 then .inf s else .nan)
  else if mag / 2 ^ f.mb = 0 then .fin s mag (1 - f.bias - f.mb)
  else .fin s (2 ^ f.mb + mag % 2 ^ f.mb) ((mag / 2 ^ f.mb : Nat) - f.bias - f.mb)

/-- The magnitude code of `m * 2^e`, rounded half to even with an unbounded exponent range. -/
def FloatFmt.roundMag (f : FloatFmt) (m : Nat) (e : Int) : Nat :=
  let emin : Int := 1 - f.bias - f.mb
  let q := max (e + Num.bitLen m - (f.mb + 1)) emin
  let mant := if q ≤ e then m * 2 ^ (e - q).toNat else roundShift m (q - e).toNat
  if m = 0 then 0 else (q - emin).toNat * 2 ^ f.mb + mant

/-- The magnitude code below `m * 2^e`, and whether the value is exactly that code's. -/
def FloatFmt.truncMag (f : FloatFmt) (m : Nat) (e : Int) : Nat × Bool :=
  let emin : Int := 1 - f.bias - f.mb
  let q := max (e + Num.bitLen m - (f.mb + 1)) emin
  if m = 0 then (0, true)
  else if q ≤ e then ((q - emin).toNat * 2 ^ f.mb + m * 2 ^ (e - q).toNat, true)
  else ((q - emin).toNat * 2 ^ f.mb + m / 2 ^ (q - e).toNat, m % 2 ^ (q - e).toNat = 0)

/-- A code with its sign. -/
def FloatFmt.signed (f : FloatFmt) (s : Bool) (mag : Nat) : Nat := mag + (if s then 2 ^ (f.eb + f.mb) else 0)

/-! Formats of operands. -/
abbrev Fmt.RAW : Nat := 0x01
abbrev Fmt.FP32 : Nat := 0x02
abbrev Fmt.BF16 : Nat := 0x03
abbrev Fmt.E4M3 : Nat := 0x04
abbrev Fmt.E5M2 : Nat := 0x05
abbrev Fmt.INT32 : Nat := 0x06
abbrev Fmt.MXE4M3 : Nat := 0x10
abbrev Fmt.MXE5M2 : Nat := 0x11
abbrev Fmt.MXFP4 : Nat := 0x12
abbrev Fmt.MXINT8 : Nat := 0x13

/-- The format's unit in bytes; 0 for an undefined code. -/
def fmtUnit (f : Nat) : Nat :=
  if f = Fmt.RAW ∨ f = Fmt.E4M3 ∨ f = Fmt.E5M2 then 1
  else if f = Fmt.FP32 ∨ f = Fmt.INT32 then 4
  else if f = Fmt.BF16 then 2
  else if f = Fmt.MXFP4 then 16
  else if f = Fmt.MXE4M3 ∨ f = Fmt.MXE5M2 ∨ f = Fmt.MXINT8 then 32 else 0

def isMx (f : Nat) : Bool := decide (0x10 ≤ f) && decide (f ≤ 0x13)

/-- Bytes of a group of an MX format (R456). -/
def groupBytes (f : Nat) : Nat := 32 + 32 * fmtUnit f

/-- The implied length of `rows` rows of `row` elements. -/
def implied (f rows row : Nat) : Nat := if isMx f then rows * ((row + 1023) / 1024) * groupBytes f else rows * row * fmtUnit f

/-- The float format of an element format. -/
def floatFmt (f : Nat) : FloatFmt :=
  if f = Fmt.FP32 then fmtFp32 else if f = Fmt.BF16 then fmtBf16 else if f = Fmt.E5M2 ∨ f = Fmt.MXE5M2 then fmtE5m2
  else if f = Fmt.MXFP4 then fmtE2m1 else fmtE4m3

/-- The value of an element code of an MX format, without its scale; what is not finite reads as NaN (R458). -/
def mxElem (f c : Nat) : Num :=
  if f = Fmt.MXINT8 then (if c < 128 then .fin false c (-6) else .fin true (256 - c) (-6))
  else match (floatFmt f).decode c with
    | .fin s m e => .fin s m e
    | _ => .nan

/-- The outcome of a conversion: the code, whether it saturated, whether it is infinite or NaN. -/
structure Conv where
  code : Nat
  sat : Bool
  nonFinite : Bool
deriving DecidableEq, Repr

/-- Conversion into FP32, BF16, E4M3 or E5M2 (R459). -/
def convert (f : Nat) (x : Num) : Conv :=
  let g := floatFmt f
  let nan := if f = Fmt.FP32 then 0x7FC00000 else if f = Fmt.BF16 then 0x7FC0 else if f = Fmt.E5M2 then 0x7E else 0x7F
  match x with
  | .nan => ⟨nan, false, true⟩
  | .inf s => if f = Fmt.E4M3 then ⟨nan, false, true⟩ else ⟨g.signed s (g.maxCode + 1), false, true⟩
  | .fin s m e =>
    let c := g.roundMag m e
    if c ≤ g.maxCode then ⟨g.signed s c, false, false⟩
    else if f = Fmt.FP32 ∨ f = Fmt.BF16 then ⟨g.signed s (g.maxCode + 1), false, true⟩
    else ⟨g.signed s g.maxCode, true, false⟩

/-- An element of an MX block, already divided by its scale, rounded half to even and saturated (R457). -/
def mxRound (f : Nat) (x : Num) : Nat × Bool :=
  match x with
  | .fin s m e =>
    if f = Fmt.MXINT8 then
      let k := (Num.shift (.fin s m e) 6).toIntEven
      if 127 < k then (127, true) else if k < -128 then (128, true) else (((k + 256) % 256).toNat, false)
    else
      let g := floatFmt f
      let c := g.roundMag m e
      if c ≤ g.maxCode then (g.signed s c, false) else (g.signed s g.maxCode, true)
  | _ => (0, false)

/-- emax of R457. -/
def mxEmax (f : Nat) : Int := if f = Fmt.MXE4M3 then 8 else if f = Fmt.MXE5M2 then 15 else if f = Fmt.MXFP4 then 2 else 0

/-- The exponent of a block's scale (R457): none for a non-finite block; an all-zero block has 0. -/
def mxScale (f : Nat) (xs : List Num) : Option Int :=
  if xs.any Num.nonFinite then none
  else
    let amax := xs.foldl (fun a x => Num.max a x.abs) Num.zero
    if amax.isZero then some 0 else some (min (max (amax.expOf - mxEmax f) (-127)) 127)

/-- A quantised block: scale byte, codes, whether an element saturated. -/
structure MxBlock where
  scale : Nat
  codes : List Nat
  sat : Bool
deriving DecidableEq, Repr, Inhabited

/-- Quantise a block with an element rounding that gets the position and the value over the scale. -/
def mxQuantiseWith (f : Nat) (rnd : Nat → Num → Nat × Bool) (xs : List Num) : MxBlock :=
  match mxScale f xs with
  | none => ⟨0xFF, xs.map fun _ => 0, false⟩
  | some e =>
    if xs.all Num.isZero then ⟨127, xs.map fun _ => 0, false⟩
    else
      let q := xs.zipIdx.map fun x => rnd x.2 (x.1.shift (-e))
      ⟨(e + 127).toNat, q.map (·.1), q.any (·.2)⟩

def mxQuantise (f : Nat) (xs : List Num) : MxBlock := mxQuantiseWith f (fun _ => mxRound f) xs

/-- The value of an element of a block (R458). -/
def mxValue (f scale code : Nat) : Num := if scale = 0xFF then .nan else (mxElem f code).shift ((scale : Int) - 127)

/-- The values of a block as read back. -/
def MxBlock.values (f : Nat) (b : MxBlock) : List Num := b.codes.map (mxValue f b.scale)

/-! Operands as values (R456). -/

/-- Element `i` of an operand of rows of `row` elements. -/
def elemAt (f row : Nat) (bs : List Byte) (i : Nat) : Num :=
  if isMx f then
    let k := i % row
    let base := (i / row * ((row + 1023) / 1024) + k / 1024) * groupBytes f
    let j := k % 1024 / 32
    let t := k % 32
    let scale := fieldAt bs (base + j) 1
    let code := if f = Fmt.MXFP4 then bits (fieldAt bs (base + 32 + 16 * j + t / 2) 1) (4 * (t % 2)) 4
      else fieldAt bs (base + 32 + 32 * j + t) 1
    mxValue f scale code
  else (floatFmt f).decode (fieldAt bs (i * fmtUnit f) (fmtUnit f))

/-- An operand's elements. -/
def elems (f row : Nat) (bs : List Byte) (n : Nat) : List Num := (List.range n).map (elemAt f row bs)

/-- Cut a list into pieces of `n`; `fuel` bounds their number. -/
def chunksOf {α : Type} (n : Nat) : Nat → List α → List (List α)
  | 0, _ => []
  | fuel + 1, l => if l.isEmpty then [] else l.take n :: chunksOf n fuel (l.drop n)

def pieces {α : Type} (n : Nat) (l : List α) : List (List α) := chunksOf n l.length l

/-- A group from the elements of its row: quantised blocks, then all-zero blocks, with unused elements as +0. -/
def mxGroup (f : Nat) (q : List Num → MxBlock) (xs : List Num) : List Byte × Bool × Bool :=
  let pad (b : List Num) := b ++ List.replicate (32 - b.length) Num.zero
  let bl := (pieces 32 xs).map fun b => q (pad b)
  let bl := bl ++ List.replicate (32 - bl.length) ⟨127, List.replicate 32 0, false⟩
  let body := bl.flatMap fun b =>
    if f = Fmt.MXFP4 then (pieces 2 b.codes).map fun p => BitVec.ofNat 8 (p.getD 0 0 + 16 * p.getD 1 0)
    else b.codes.map (BitVec.ofNat 8)
  (bl.map (fun b => BitVec.ofNat 8 b.scale) ++ body, bl.any (·.sat), bl.any (·.scale = 0xFF))

/-- The bytes of an operand whose rows hold the given values, whether a conversion saturated, and whether an element is not finite. -/
def encodeRows (f row : Nat) (xs : List Num) : List Byte × Bool × Bool :=
  if isMx f then
    let gs := ((pieces row xs).flatMap (pieces 1024)).map (mxGroup f (mxQuantise f))
    (gs.flatMap (·.1), gs.any (·.2.1), gs.any (·.2.2))
  else
    let cs := xs.map (convert f)
    (cs.flatMap fun c => leBytes (fmtUnit f) c.code, cs.any (·.sat), cs.any (·.nonFinite))

/-! FP32 steps on patterns. -/

def f32 (c : Nat) : Num := fmtFp32.decode c
/-- round_fp32. -/
def rnd (x : Num) : Nat := (convert Fmt.FP32 x).code
/-- A value rounded to FP32. -/
def rn (x : Num) : Num := f32 (rnd x)

/-! The library functions (R469): any bits within 2 units in the last place, fixed by the library version (log entry 33). -/

/-- The Taylor sum of `e^(r / 2^256) * 2^256`, from term `i`; `fuel` bounds the terms. -/
def expTaylor (r : Int) : (fuel i : Nat) → (term sum : Int) → Int
  | 0, _, _, sum => sum
  | fuel + 1, i, term, sum =>
    let t := term * r / 2 ^ 256 / (i : Int)
    expTaylor r fuel (i + 1) t (sum + t)

/-- `e^x` to some 90 bits for a finite `x` of magnitude below 256: the argument over 512, then nine squarings. -/
def expApprox (x : Num) : Num :=
  match x with
  | .fin s m e =>
    let r := Num.scaled s m e (min e (-256)) / 2 ^ (-256 - min e (-256)).toNat / 512
    let y := expTaylor r 64 1 (2 ^ 256) (2 ^ 256)
    Num.ofInt ((List.range 9).foldl (fun v _ => v * v / 2 ^ 256) y) (-256)
  | y => y

/-- An approximation of a library function, closer than 2^-60 of its value; none where its value is not a number below 2^127. -/
def libApprox (fn : Nat) (x : Num) : Option Num :=
  let big := 8 ≤ x.expOf
  let neg := x.lt Num.zero
  let one : Num := .fin false 1 0
  if x.nonFinite then none
  else if fn = 0 then (if big ∧ neg then some Num.zero else if Num.lt (.fin false 88 0) x then none else some (expApprox x))
  else if fn = 1 then
    if big then some (.fin neg 1 0) else some (((expApprox (x.shift 1)).sub one).div ((expApprox (x.shift 1)).add one))
  else if fn = 2 then
    if big then some (if neg then Num.zero else one) else some ((expApprox x).div ((expApprox x).add one))
  else if neg ∨ x.isZero then none else some (one.div x.sqrt)

/-- `v` lies within 2 units in the last place of the value `y` approximates. -/
def withinUlps (v y : Num) : Bool :=
  let ulp : Num := .fin false 1 (if y.isZero then -149 else max (y.abs.add (y.abs.shift (-30))).expOf (-126) - 23)
  !v.nonFinite && !Num.lt ((ulp.shift 1).add (ulp.shift (-20))) (v.sub y).abs

/-- A library function at an FP32 value: NaN of a NaN; else the bits the library fixes, held to the bound where the value is a number. -/
def libFn (lib fn : Nat) (x : Num) : Num :=
  let v := rn (f32 (Config.libFn lib fn (rnd x) % 2 ^ 32))
  if x.isNan then .nan
  else match libApprox fn x with
    | some y => if withinUlps v y then v else rn y
    | none => v
def libExp (lib : Nat) (x : Num) : Num := libFn lib 0 x
def libTanh (lib : Nat) (x : Num) : Num := libFn lib 1 x
def libSigmoid (lib : Nat) (x : Num) : Num := libFn lib 2 x
def libRsqrt (lib : Nat) (x : Num) : Num := libFn lib 3 x

/-- The exact sum of a list of terms. -/
def exactSum (xs : List Num) : Num := xs.foldl Num.add Num.zero

/-- A chunked sum from a start value (R466). -/
def chunkedSum (start : Num) (xs : List Num) : Num := (pieces 32 xs).foldl (fun acc c => rn (acc.add (exactSum c))) start

end Sys2Proof.Machine
end

