-- ==== Sys2Proof/Machine/ClockOps.lean ====
section
/-!
DEFINITION. The CCLK divider and its clamps (R42-R45, R51).
-/
namespace Sys2Proof.Machine

/-- Some hardware clamp is active. -/
def State.clamped (s : State) : Bool :=
  s.on Reg.CLK_STA.CLAMP_VWARN || s.on Reg.CLK_STA.CLAMP_SAFE || s.on Reg.CLK_STA.CLAMP_CURRENT || s.on Reg.CLK_STA.CLAMP_THERMAL

/-- The effective divider the requests now ask for: /6 under a clamp, else the slowest of the two registers (R42). -/
def State.wantedDiv (s : State) : Nat := if s.clamped then 3 else max (s.rd Reg.CLK_HOST_DIV.DIV) (s.rd Reg.CLK_PWR_DIV.DIV)

/-- Start a change of divider unless one is running or none is needed (R43). -/
def State.retarget (s : State) : State :=
  if s.clkChange.isSome ∨ s.wantedDiv = s.rd Reg.CLK_STA.EFF_DIV then s else { s with clkChange := some s.wantedDiv }

/-- Set or release a clamp; CLAMP is raised when it rises (R51). -/
def State.setClamp (s : State) (f : Fld) (b : Bool) : State :=
  if s.on f = b then s else (if b then (s.wrb f true).raise 1 1 else s.wrb f false).retarget

/-- CLK_PWR_DIV is forced to /6 and the safe clock table is held while no loaded PWR image drives it (R45). -/
def State.holdSafeClock (s : State) : State := ((s.wr Reg.CLK_PWR_DIV.DIV 3).setClamp Reg.CLK_STA.CLAMP_SAFE true).retarget

/-! Time (R614, R617). -/

/-- How far global time advances in a nanosecond, in units of 2^-56 ns: corrected by TSY_RATE once time was set, halved while slewing. -/
def State.advance (s : State) : Nat :=
  let r := s.rd Reg.TSY_RATE.RATE
  let rate : Int := if !s.on Reg.TSY_STA.TIME_SET then 0 else if r < 2 ^ 31 then r else (r : Int) - 2 ^ 32
  let a := (2 ^ 56 + rate * 2 ^ 16).toNat
  if s.on Reg.TSY_STA.SLEWING then a / 2 else a

/-- CCLK cycles that have passed after `n` ns at the effective divider: 1.8, 1.2, 0.9 or 0.6 GHz. -/
def State.cclkCycles (s : State) (n : Nat) : Nat :=
  n * (match s.rd Reg.CLK_STA.EFF_DIV with | 0 => 18 | 1 => 12 | 2 => 9 | _ => 6) / 10

/-- The tiles that run a slice count the CCLK cycles of a nanosecond (TIL_BUSY, R478). -/
def State.countBusy (s : State) : State :=
  if s.clkStopped then s
  else
    let n := s.cclkCycles (s.uptime + 1) - s.cclkCycles s.uptime
    (List.range 48).foldl (fun t i => if t.on (Reg.TIL_STA.RUNNING i) then t.countWrap (Reg.TIL_BUSY.CYCLES i) n else t) s

/-- One nanosecond of the local clock; global time stands at 0 until PERST_N deasserts or a device reset starts (R614). -/
def State.tick (s : State) : State :=
  let t := { s.countBusy with uptime := s.uptime + 1 }
  if s.rd Reg.BOOT_STA.STAGE = 0 ∧ !s.boot.waitOff then t else { t with timeFine := (s.timeFine + s.advance) % 2 ^ 120 }

end Sys2Proof.Machine
end

