-- ==== Sys2Proof/Machine/Otp.lean ====
section
/-!
DEFINITION. The fuse array: rows with their ECC, the remap, the seal state of regions, the lifecycle, and the programming of a row
(R150-R169).
-/
namespace Sys2Proof.Machine

/-! ECC (R150). -/

/-- The codeword positions of the data bits, in order: 1 to 71 without the powers of two. -/
def eccPositions : List Nat := (List.range 72).filter fun p => !(p == 0 || p == 1 || p == 2 || p == 4 || p == 8 || p == 16 || p == 32 || p == 64)

/-- Exclusive or of the data bits whose position has bit `j` set; `d` is what remains of the data. -/
def eccParity (j : Nat) : List Nat → Nat → Bool
  | [], _ => false
  | p :: ps, d => (bit d 0 && bit p j) ^^ eccParity j ps (d / 2)

/-- ECC bits 6:0 of 64 data bits. -/
def eccLow (d : Nat) : Nat := maskOf (fun j => eccParity j eccPositions d) 7

/-- The ECC byte of 64 data bits. -/
def eccOf (d : Nat) : Nat :=
  let low := eccLow d
  low + 128 * b2n (bit (popCount d 64 + popCount low 7) 0)

/-- A row: data in bits 63:0, ECC in bits 71:64. -/
def rowWord (d : Nat) : Nat := d % 2 ^ 64 + eccOf (d % 2 ^ 64) * 2 ^ 64

/-- What reading a row gives: corrected data (0 if uncorrectable), raw ECC byte, and whether one bit was corrected. -/
structure RowRead where
  data : Nat
  ecc : Nat
  corr : Bool
  uncorr : Bool
deriving DecidableEq, Repr, Inhabited

/-- Decode a row of 72 bits. -/
def decodeRow (r : BitVec 72) : RowRead :=
  let d := r.toNat % 2 ^ 64
  let e := r.toNat / 2 ^ 64
  let syn := eccLow d ^^^ (e % 128)
  let odd := bit (popCount r.toNat 72) 0
  if !odd then (if syn = 0 then ⟨d, e, false, false⟩ else ⟨0, e, false, true⟩)
  else if syn = 0 ∨ syn = 1 ∨ syn = 2 ∨ syn = 4 ∨ syn = 8 ∨ syn = 16 ∨ syn = 32 ∨ syn = 64 then ⟨d, e, true, false⟩
  else match eccPositions.findIdx? (· == syn) with
    | some i => ⟨d ^^^ 2 ^ i, e, true, false⟩
    | none => ⟨0, e, false, true⟩

/-! The remap (R155-R157). -/

/-- The physical row: logical rows under their number, spare Sk under 2048 + k. -/
def State.fuseRow (s : State) (p : Nat) : BitVec 72 := tblGet 0 s.fuses p

/-- The content of a remap entry: spare index in bits 21:16, logical row in bits 10:0, as a counterfoil. -/
def remapEntry (k lr : Nat) : Nat := cfOf (k * 2 ^ 16 + lr)

/-- The logical row that remap entry `k` names while it is VALID. An entry whose counterfoil names another spare than its own is treated as
one that is not VALID: it serves no row, makes no conflict and halts nothing (log entry 12). -/
def State.remapOf (s : State) (k : Nat) : Option Nat :=
  let r := decodeRow (s.fuseRow (1984 + k))
  if r.uncorr then none
  else
    let lr := bits r.data 0 11
    if r.data = remapEntry k lr then some lr else none

/-- The spare that serves a logical row. -/
def State.spareOf (s : State) (lr : Nat) : Option Nat :=
  if 1984 ≤ lr then none else (List.range 64).find? fun k => s.remapOf k = some lr

/-- The physical row that serves a logical row. -/
def State.physRow (s : State) (lr : Nat) : Nat :=
  match s.spareOf lr with
  | some k => 2048 + k
  | none => lr

/-- Read a logical row through the remap. -/
def State.readRow (s : State) (lr : Nat) : RowRead := decodeRow (s.fuseRow (s.physRow lr))

/-- The data of a logical row as every consumer sees it: 0 when uncorrectable (R172). -/
def State.rowData (s : State) (lr : Nat) : Nat := (s.readRow lr).data

/-- A spare is free when both it and its remap entry are blank (R157). -/
def State.spareFree (s : State) (k : Nat) : Bool := s.fuseRow (1984 + k) = 0 && s.fuseRow (2048 + k) = 0

/-- The lowest free spare. -/
def State.lowestSpare (s : State) : Option Nat := (List.range 64).find? s.spareFree

/-- Spares allocated, orphans included (OTP_STA.SPARES_USED). -/
def State.sparesUsed (s : State) : Nat := countTrue ((List.range 64).map fun k => !s.spareFree k)

/-! Regions and seals (R152-R154). A region is named by its index of R316: 0 identity, 1 unit-disable, 2-4 key slots, 5 account
defaults, 6 repair, 7 trims, 8 Vault calibration. -/

/-- First row, last data row and CRC row of a sealed region. -/
def regionRows : Nat → Nat × Nat × Nat
  | 0 => (0, 14, 15)
  | 1 => (16, 16, 17)
  | 2 => (64, 70, 71)
  | 3 => (72, 78, 79)
  | 4 => (80, 86, 87)
  | 5 => (96, 127, 128)
  | 6 => (256, 1022, 1023)
  | 7 => (1024, 1278, 1279)
  | _ => (1280, 1342, 1343)

/-- The region that holds a row as a data row; its CRC row is programmed by OTP_SEAL alone (R166). -/
def regionOf (row : Nat) : Option Nat :=
  (List.range 9).find? fun g => decide ((regionRows g).1 ≤ row) && decide (row ≤ (regionRows g).2.1)

/-- The bytes of the data rows of a region, in ascending order, each through the remap (R153). -/
def State.regionBytes (s : State) (g : Nat) : List Byte :=
  let r := regionRows g
  ((List.range (r.2.1 + 1 - r.1)).map fun i => leBytes 8 (s.rowData (r.1 + i))).flatten

/-- The CRC of a region. -/
def State.regionCrc (s : State) (g : Nat) : Nat := crc32c (s.regionBytes g)

/-- Seal states of R154. -/
inductive Seal where
  | unsealed | sealed | crcFail | torn
deriving DecidableEq, Repr

/-- The seal state of a region; an uncorrectable CRC row reads as 0 (R172). -/
def State.sealOf (s : State) (g : Nat) : Seal :=
  let w := s.rowData (regionRows g).2.2
  if w = 0 then .unsealed
  else match cfVal w with
    | some v => if v = s.regionCrc g then .sealed else .crcFail
    | none => .torn

/-- Whether a region is SEALED. -/
def State.sealed (s : State) (g : Nat) : Bool := s.sealOf g = .sealed

/-! Append rows (R155). -/

inductive AppendRow where
  | blank | valid | torn | foreign
deriving DecidableEq, Repr

/-- The state of an append row against its fixed content. -/
def appendState (r : RowRead) (content : Nat) : AppendRow :=
  if r.uncorr then .foreign
  else if r.data = 0 then .blank
  else if r.data = content then .valid
  else if r.data &&& content = r.data then .torn
  else .foreign

/-- The fixed content of an append row: a lifecycle row, a revocation row. -/
def appendContent (row : Nat) : Option Nat :=
  if 32 ≤ row ∧ row ≤ 36 then some (cfOf (row - 31))
  else if 88 ≤ row ∧ row ≤ 90 then some (cfOf (0x5A00 + (row - 88)))
  else none

/-- The state of lifecycle row of code `c` (1-5). -/
def State.lcRow (s : State) (c : Nat) : AppendRow := appendState (s.readRow (31 + c)) (cfOf c)

/-- The lifecycle code of the highest VALID lifecycle row; 0, BLANK, when none is (R158). -/
def State.lcFromRows (s : State) : Nat :=
  if s.lcRow 5 = .valid then 5 else if s.lcRow 4 = .valid then 4 else if s.lcRow 3 = .valid then 3
  else if s.lcRow 2 = .valid then 2 else if s.lcRow 1 = .valid then 1 else 0

/-- The code of a TORN lifecycle row above the state (R158, R177). -/
def State.lcTorn (s : State) : Option Nat :=
  [1, 2, 3, 4, 5].find? fun c => decide (s.lcFromRows < c) && decide (s.lcRow c = .torn)

/-- Key slot `k` is revoked when its revocation row is VALID or TORN (R164). -/
def State.revoked (s : State) (k : Nat) : Bool :=
  let r := appendState (s.readRow (88 + k)) (cfOf (0x5A00 + k))
  r = .valid || r = .torn

/-- A key slot may check a signature: SEALED and not revoked (R193). -/
def State.keyUsable (s : State) (k : Nat) : Bool := s.sealed (2 + k) && !s.revoked k

/-- The 48-byte SHA-384 digest of key slot `k`, byte 0 lowest (R152). -/
def State.keyHash (s : State) (k : Nat) : Nat := leNat (((List.range 6).map fun i => leBytes 8 (s.rowData (64 + 8 * k + i))).flatten)

/-! The lifecycle state in force. -/
abbrev Lc.BLANK : Nat := 0
abbrev Lc.MANUFACTURE : Nat := 1
abbrev Lc.PROVISIONED : Nat := 2
abbrev Lc.FIELD : Nat := 3
abbrev Lc.RETURN : Nat := 4
abbrev Lc.SCRAPPED : Nat := 5

/-- The state the device booted in, which governs until the next PERST_N (R162). -/
def State.lc (s : State) : Nat := s.rd Reg.OTP_STA.STATE

/-- The regions a target state requires SEALED (R160). -/
def requiredRegions (target : Nat) : List Nat := if target = Lc.PROVISIONED ∨ target = Lc.FIELD then [0, 1, 6, 7, 8] else []

/-- Every data row of the account persistent defaults is blank. -/
def State.defaultsBlank (s : State) : Bool := (List.range 32).all fun i => s.rowData (96 + i) = 0

/-- The seals that R160 requires for a target state hold. -/
def State.sealsAllow (s : State) (target : Nat) : Bool :=
  (requiredRegions target).all s.sealed
  && (target ≠ Lc.FIELD || (([0, 1, 2].any s.keyUsable) && (s.sealed 5 || s.defaultsBlank)))

/-- The transitions that exist (R159). -/
def lcEdge (a b : Nat) : Bool :=
  (a == 0 && b == 1) || (a == 1 && (b == 2 || b == 5)) || (a == 2 && (b == 3 || b == 5)) || (a == 3 && b == 4) || (a == 4 && b == 5)

/-- The rows that the state in force permits a request to program (R161, R152). -/
def State.rowPermitted (s : State) (row : Nat) : Bool :=
  match regionOf row with
  | some g =>
    s.sealOf g ≠ .sealed && s.sealOf g ≠ .crcFail &&
      (s.lc = Lc.MANUFACTURE || (s.lc = Lc.PROVISIONED && (g == 2 || g == 3 || g == 4 || g == 5)))
  | none => decide (88 ≤ row) && decide (row ≤ 90) && (s.lc = Lc.PROVISIONED || s.lc = Lc.FIELD)

/-! Programming (R167-R169). -/

/-- Spend one outcome of the physical programming; none given means that every bit verified with no extra pulse. -/
def nextBurn : List Burn → Burn × List Burn
  | [] => (default, [])
  | b :: t => (b, t)

/-- The programming did not leave the row as R167 wants it: a bit fails strict verify, or a bit outside the target reads 1. -/
def burnFails (b : Burn) (w : Nat) : Bool := b.bad ≠ 0 || BitVec.ofNat 72 b.high &&& ~~~ (BitVec.ofNat 72 w) ≠ 0

/-- The state after one physical row was pulsed towards `w`: bits only ever turn to 1, a bit outside `w` may turn with them, and bits that
fail strict margin are weak. -/
def State.burn (s : State) (p w : Nat) (b : Burn) : State :=
  let set := (BitVec.ofNat 72 w &&& ~~~ (BitVec.ofNat 72 b.low)) ||| BitVec.ofNat 72 b.high
  let t := { s with fuses := tblSet 0 s.fuses p (s.fuseRow p ||| set)
                    weak := tblSet 0 s.weak p (BitVec.ofNat 72 b.bad &&& BitVec.ofNat 72 w) }
  (t.countWrap Reg.OTP_PROG_CNT.ROWS 1).countWrap Reg.OTP_PROG_CNT.EXTRA b.extra

/-- The end of a programming request: the state, the outcomes left, the status code, the extra pulses and the spare used. -/
structure Programmed where
  st : State
  rest : List Burn
  code : Nat
  extra : Nat
  spare : Option Nat

/-- A row with all 72 bits 1 (VOID, R155). -/
def voidRow : Nat := 2 ^ 72 - 1

/-- An earlier spare's remap entry becomes VOID once the new one has verified (log entry 11). -/
def State.voidEntry (s : State) : Option Nat → State
  | some j => s.burn (1984 + j) voidRow default
  | none => s

/-- `retire` of R167: free spares in rising order until one verifies together with its remap entry. With none free the row keeps its bits
and what serves it, and is held as unretired (R178). -/
def retireRow : Nat → State → Nat → Nat → List Burn → Nat → Programmed
  | 0, s, lr, _, bs, extra => ⟨{ s with unretired := lr :: s.unretired }, bs, Code.LIMIT, extra, none⟩
  | fuel + 1, s, lr, w, bs, extra =>
    match s.lowestSpare with
    | none => ⟨{ s with unretired := lr :: s.unretired }, bs, Code.LIMIT, extra, none⟩
    | some k =>
      let b := nextBurn bs
      let s1 := s.burn (2048 + k) w b.1
      if b.1.stop ≠ 0 then ⟨s1, b.2, b.1.stop, extra + b.1.extra, none⟩
      else if burnFails b.1 w then retireRow fuel s1 lr w b.2 (extra + b.1.extra)
      else
        let e := nextBurn b.2
        let s2 := s1.burn (1984 + k) (rowWord (remapEntry k lr)) e.1
        if e.1.stop ≠ 0 then ⟨s2, e.2, e.1.stop, extra + b.1.extra + e.1.extra, none⟩
        else if burnFails e.1 (rowWord (remapEntry k lr)) then
          retireRow fuel (s2.burn (1984 + k) voidRow default) lr w e.2 (extra + b.1.extra + e.1.extra)
        else ⟨((s2.voidEntry (s.spareOf lr)).countWrap Reg.OTP_PROG_CNT.RETIRED 1).raise 3 2, e.2, Code.OK, extra + b.1.extra + e.1.extra, some k⟩

/-- Retire the row that serves a logical row. -/
def State.retire (s : State) (lr w : Nat) (bs : List Burn) (extra : Nat) : Programmed :=
  let r := retireRow 64 s lr w bs extra
  if r.code = Code.OK then { r with st := { r.st with unretired := r.st.unretired.filter (· ≠ lr) } } else r

/-- A condition of R169 that refuses a program: a service die sensor above 100 °C, VMAIN_SNS below VWARN. -/
def State.burnRefused (s : State) : Nat :=
  if (List.range 8).any fun i =>
      let e := tblGet default s.sensors (128 + i)
      (match e.reading with | some t => decide (1000 < t) | none => false) && !e.faulted
  then Code.THERMAL
  else if s.rd Reg.VLT_VMAIN.NOW < bits (s.cell Reg.VLT_THR_WARN.WARN.key).toNat 0 10 then Code.POWER else Code.OK

/-- Program one logical row with target data (R167). An append row takes its fixed content alone, other data is FORMAT (R180). The manual
gives the refusals of R169 no place in the order: they are tested after FORMAT and ALREADY_DONE, before the first pulse (log entry
12). -/
def State.programRow (s : State) (lr d : Nat) (bs : List Burn) : Programmed :=
  let w := rowWord d
  let p := s.physRow lr
  let old := (s.fuseRow p).toNat
  match appendContent lr with
  | some c => if d ≠ c then ⟨s, bs, Code.FORMAT, 0, none⟩ else go w p old
  | none => go w p old
where
  /-- The pulses and verifies of R167 after its first test. -/
  go (w p old : Nat) : Programmed :=
    let done (t : State) : State := { t with unretired := t.unretired.filter (· ≠ lr) }
    if old = w ∧ tblGet 0 s.weak p = 0 then ⟨done s, bs, Code.ALREADY_DONE, 0, s.spareOf lr⟩
    else if s.burnRefused ≠ Code.OK then ⟨s, bs, s.burnRefused, 0, none⟩
    else if old &&& w ≠ old then s.retire lr w bs 0
    else
      let b := nextBurn bs
      let s1 := s.burn p w b.1
      if b.1.stop ≠ 0 then ⟨s1, b.2, b.1.stop, b.1.extra, none⟩
      else if burnFails b.1 w then s1.retire lr w b.2 b.1.extra
      else ⟨done s1, b.2, Code.OK, b.1.extra, s1.spareOf lr⟩

/-- Bring the OTP registers that follow the array up to date: spares, seals, revocations (R176). -/
def State.refreshOtp (s : State) : State :=
  let t := ((((s.wr Reg.OTP_STA.SPARES_USED s.sparesUsed).wrb Reg.OTP_SEALED.IDENTITY (s.sealed 0)).wrb
    Reg.OTP_SEALED.UNIT_DISABLE (s.sealed 1)).wr Reg.OTP_SEALED.KEY_SLOT (maskOf (fun k => s.sealed (2 + k)) 3)).wrb
    Reg.OTP_SEALED.ACCOUNT_DEFAULTS (s.sealed 5)
  let t := ((t.wrb Reg.OTP_SEALED.REPAIR (s.sealed 6)).wrb Reg.OTP_SEALED.TRIMS (s.sealed 7)).wrb Reg.OTP_SEALED.VAULT_CAL (s.sealed 8)
  let t := t.wr Reg.OTP_SEALED.REVOKED (maskOf s.revoked 3)
  if 60 ≤ s.sparesUsed ∧ s.rd Reg.OTP_STA.SPARES_USED < s.sparesUsed then t.raise 3 4 else t

/-- OTP_LAST_PROG takes the last request's row and code (R176). -/
def State.lastProg (s : State) (row code : Nat) : State := (s.wr Reg.OTP_LAST_PROG.ROW row).wr Reg.OTP_LAST_PROG.CODE code

/-- A programming request ends: registers brought up to date, the last request recorded, PROG_DONE raised (R176). -/
def Programmed.done (r : Programmed) (row : Nat) : Programmed := { r with st := (r.st.refreshOtp.lastProg row r.code).raise 3 1 }

end Sys2Proof.Machine
end

