-- ==== Sys2Proof/Machine/VaultOps.lean ====
section
/-!
DEFINITION. The Vault's SRAM, region headers and rings, the log port, the power and thermal history, and the shared steps of a
store (R260-R274, R283, R324-R326).
-/
namespace Sys2Proof.Machine

/-! SRAM and headers (R260-R263). -/

/-- Write bytes into the Vault SRAM. -/
def State.vaultWrite (s : State) (off : Nat) (bs : List Byte) : State :=
  { s with vault := { s.vault with sram := storeBytes s.vault.sram off bs, clean := false } }

/-- `n` bytes of the Vault SRAM as a number. -/
def State.vaultNat (s : State) (off n : Nat) : Nat := leNat (bytesAt s.vault.sram off n)

/-- A region with a header: its base, body size, KIND and INDEX. -/
structure VaultRegion where
  base : Nat
  size : Nat
  kind : Nat
  index : Nat
deriving DecidableEq, Repr

def logRegion : VaultRegion := ⟨0x000000, 0x3FFFC0, 1, 0⟩
def dumpRegion (d : Nat) : VaultRegion := ⟨0x400000 + d * 0x80000, 0x7FFC0, 2, d⟩
def ledgerRegion : VaultRegion := ⟨0x800000, 0x1FFFC0, 3, 0⟩
def historyRegion : VaultRegion := ⟨0xA00000, 0x1FFFC0, 4, 0⟩
def accountRegion (a : Nat) : VaultRegion := ⟨0xC00000 + a * 0x20000, 0x1FFC0, 5, a⟩

/-- Every region with a header, in address order. -/
def vaultRegions : List VaultRegion :=
  [logRegion] ++ (List.range 8).map dumpRegion ++ [ledgerRegion, historyRegion] ++ (List.range 32).map accountRegion

/-- The HEAD value of a region (R261). -/
def VaultRegion.head (r : VaultRegion) : Nat := r.kind + r.index * 0x10000 + 0x1000000

/-- The 64 bytes of an empty header. -/
def VaultRegion.emptyHeader (r : VaultRegion) : List Byte :=
  leBytes 4 0x52544C56 ++ leBytes 4 r.size ++ leBytes 8 (cfOf r.head) ++ leBytes 8 (cfOf 0) ++ leBytes 8 (cfOf 0)
    ++ leBytes 8 (cfOf 0) ++ zeros 24

/-- A header counterfoil: 0x10 HEAD_PTR, 0x18 TAIL_PTR, 0x20 WRAPS. -/
def State.headerPtr (s : State) (r : VaultRegion) (o : Nat) : Option Nat := cfVal (s.vaultNat (r.base + o) 8)

/-- A header that R263 accepts. -/
def State.headerOk (s : State) (r : VaultRegion) : Bool :=
  s.vaultNat r.base 4 = 0x52544C56 && s.vaultNat (r.base + 4) 4 = r.size && cfVal (s.vaultNat (r.base + 8) 8) = some r.head
    && (match s.headerPtr r 0x10 with | some v => decide (v ≤ r.size) | none => false)
    && (match s.headerPtr r 0x18 with | some v => decide (v ≤ r.size) | none => false)
    && (s.headerPtr r 0x20).isSome

/-- Rewrite a header as empty. -/
def State.emptyHeader (s : State) (r : VaultRegion) : State := s.vaultWrite r.base r.emptyHeader

/-- A header pointer of a valid header. -/
def State.ptr (s : State) (r : VaultRegion) (o : Nat) : Nat := (s.headerPtr r o).getD 0

/-- Write one header counterfoil with one 64-bit write (R262). -/
def State.setPtr (s : State) (r : VaultRegion) (o v : Nat) : State := s.vaultWrite (r.base + o) (leBytes 8 (cfOf v))

/-- Entries a ring region holds. -/
def VaultRegion.entries (r : VaultRegion) : Nat := r.size / 32

/-- The number of the next entry since the ring was last emptied. -/
def State.ringNumber (s : State) (r : VaultRegion) : Nat := s.ptr r 0x20 * r.entries + s.ptr r 0x10 / 32

/-- A 28-byte record with its CRC behind it. -/
def withCrc (bs : List Byte) : List Byte := bs ++ leBytes 4 (crc32c bs)

/-- The account areas of the Vault are zeroed and their headers rewritten as empty (R162, R265). -/
def State.zeroAreas (s : State) : State :=
  (List.range 32).foldl (fun t a =>
    (({ t with vault := { t.vault with sram := zeroBytes t.vault.sram (accountRegion a).base 0x20000, clean := false } } : State).emptyHeader
      (accountRegion a))) s

/-! The log port (R324-R326). -/

/-- The bytes of a log entry with its number. -/
def LogEntry.bytes (e : LogEntry) (number : Nat) : List Byte :=
  withCrc (leBytes 8 e.time ++ leBytes 2 e.comp ++ leBytes 1 e.level ++ leBytes 1 number ++ leBytes 4 e.code
    ++ leBytes 4 e.arg0 ++ leBytes 4 e.arg1 ++ leBytes 4 e.arg2)

/-- Offer an entry to the log port for clerk `n` (none: hardware). A full queue drops it: the clerk's FWP_LOG_DROPPED and the count
behind the next LOG_LOST entry advance (R326, R332). -/
def State.offerLog (s : State) (n : Option Nat) (e : LogEntry) : State :=
  if s.logQueue.length < 64 then { s with logQueue := s.logQueue ++ [{ e with time := s.now }] }
  else
    let t := { s with logLost := s.logLost + 1 }
    match n with
    | some c => (t.count (Reg.FWP_LOG_DROPPED.COUNT c) 1).raise (0x10 + c) 4
    | none => t

/-- A hardware log entry (R324): writer 0xFF00. -/
def State.logHw (s : State) (level code a0 a1 a2 : Nat) : State := s.offerLog none ⟨0, 0xFF00, level, code, a0, a1, a2⟩

/-- An entry that a running clerk's component offers for a rule of the spec; one above FWP_LOG_LEVEL is not written (R325). -/
def State.logClerk (s : State) (n level code a0 a1 a2 : Nat) : State :=
  let st := s.rd (Reg.FWP_STA.STATE n)
  if !(st = 1 || st = 2) ∨ s.rd (Reg.FWP_LOG_LEVEL.LEVEL n) < level then s
  else s.offerLog (some n) ⟨0, (tblGet default s.clerks n).comp, level, code, a0, a1, a2⟩

/-- A log entry of SEC's own, with a code that the firmware manifest or SEC ROM defines (log entry 15). -/
def State.logSec (s : State) (level code a0 a1 a2 : Nat) : State := s.logClerk 0 level code a0 a1 a2

/-! SEC's own log codes; the manual gives them no numbers (log entry 15). -/
abbrev SecLog.ROW_CORRECTED : Nat := 0x1000
abbrev SecLog.ROW_UNCORRECTABLE : Nat := 0x1001
abbrev SecLog.HOOK_FAILED : Nat := 0x1002
abbrev SecLog.RAIL_TABLE : Nat := 0x1003
abbrev SecLog.RAIL_STATES : Nat := 0x1004
abbrev SecLog.HEADER_RESET : Nat := 0x1005
abbrev SecLog.CLOCK_GLITCH : Nat := 0x1006
abbrev SecLog.TAMPER : Nat := 0x1009
abbrev SecLog.REPAIR_IGNORED : Nat := 0x100A

/-! Levels of the log (R324). -/
abbrev Level.ERROR : Nat := 1
abbrev Level.WARN : Nat := 2
abbrev Level.INFO : Nat := 3

/-! Invalid headers and rings (R263, R325). -/

/-- An invalid header is rewritten as empty, shown in VLT_HDR_RESET and logged: by SVC, or by SEC while SVC does not run (log entry 14). -/
def State.resetHeader (s : State) (r : VaultRegion) : State :=
  let f := Reg.VLT_HDR_RESET.HEADERS
  let svc := s.rd (Reg.FWP_STA.STATE 1) = 1 || s.rd (Reg.FWP_STA.STATE 1) = 2
  ((s.emptyHeader r).wr f (setBit (s.rd f) (r.kind - 1) true)).logClerk (if svc then 1 else 0) Level.WARN SecLog.HEADER_RESET r.kind r.index 0

/-- A header is checked before its region is used (R263; log entry 14). -/
def State.readyHeader (s : State) (r : VaultRegion) : State := if s.headerOk r then s else s.resetHeader r

/-- Append a 32-byte entry to a ring region: when the ring is full TAIL_PTR advances first, then the entry, then HEAD_PTR (R325). -/
def State.ringAppend (s : State) (r : VaultRegion) (entry : Nat → List Byte) : State :=
  let s := s.readyHeader r
  let head := s.ptr r 0x10
  let full := decide (head = s.ptr r 0x18) && decide (0 < s.ptr r 0x20)
  let next := if head + 32 = r.size then 0 else head + 32
  let s := if full then s.setPtr r 0x18 (if s.ptr r 0x18 + 32 = r.size then 0 else s.ptr r 0x18 + 32) else s
  let s := s.vaultWrite (r.base + 0x40 + head) (entry (s.ringNumber r))
  let s := s.setPtr r 0x10 next
  if next = 0 then s.setPtr r 0x20 (s.ptr r 0x20 + 1) else s

/-! The power and thermal history (R283). -/

/-- Append a history entry. -/
def State.history (s : State) (kind channel cause reaction cut retry arg0 arg1 : Nat) : State :=
  s.ringAppend historyRegion fun number =>
    withCrc (leBytes 8 s.now ++ leBytes 1 kind ++ leBytes 1 channel ++ leBytes 1 cause ++ leBytes 1 reaction
      ++ leBytes 4 (cut + retry * 2 ^ 24) ++ leBytes 4 arg0 ++ leBytes 4 arg1 ++ leBytes 4 number)

/-- VHOLD reads `v`, in units of 10 mV (R135). -/
def State.setVhold (s : State) (v : Int) : State := s.wr Reg.SUP_HOLD_STA.VHOLD (v % 65536).toNat

/-! The charger and ARMED (R272, R282). -/

/-- The charger may run: not refused, and not in the pause after CAP_LOST. -/
def State.charges (s : State) : Bool := !s.on Reg.SUP_HOLD_STA.REVERSED && !s.on Reg.VLT_STA.CAP_LOST

/-- The charger delivers current again, unless it may not run, the health test runs or the hold domain is on VHOLD (log entry 37). -/
def State.recharge (s : State) : State := s.wrb Reg.VLT_STA.CHARGING (s.charges && !s.vault.testRunning && !s.vault.onHold)

/-- The conditions of ARMED hold. -/
def State.armedNow (s : State) : Bool :=
  s.vault.tested && s.vault.reached && !s.on Reg.SUP_HOLD_STA.REVERSED && !s.on Reg.VLT_STA.CAP_LOST

/-- Bring VLT_STA.ARMED up to date; DISARMED or ARMED is raised on a change. -/
def State.refreshArmed (s : State) : State :=
  if s.on Reg.VLT_STA.ARMED = s.armedNow then s
  else (s.wrb Reg.VLT_STA.ARMED s.armedNow).raise 7 (if s.armedNow then 3 else 4)

/-! Stores (R266-R269). -/

/-- A store begins: its history entry, then the snapshot, seal OPEN, STORING, STORE_START (log entry 31). An AUTO store clears ARMED. -/
def State.startStore (s : State) (source : Nat) (waiters : List StoreWaiter) : State :=
  let s := s.history 5 0xFF 0 0 0 0 source (s.rd Reg.SUP_HOLD_STA.VHOLD)
  let t := { s with vault := { s.vault with
    sealOpen := true, clean := true, reached := s.vault.reached && source ≠ 0,
    run := some ⟨source, source = 0, s.vault.sram, s.now, waiters⟩ } }
  ((t.wrb Reg.VLT_STA.STORING true).raise 7 1).refreshArmed

/-- A SOFTWARE, LIFECYCLE or COMMIT request: it merges behind a running store, completes ALREADY_DONE (the second result) when the
SRAM is unwritten since the last completed snapshot, or starts a store. LIFECYCLE stores always run (R269). -/
def State.requestStore (s : State) (source : Nat) (w : List StoreWaiter) : State × Bool :=
  match s.vault.run with
  | some _ =>
    (({ s with vault := { s.vault with
        nextSources := s.vault.nextSources ++ [source], nextWaiters := s.vault.nextWaiters ++ w } } : State).wrb
      Reg.VLT_STA.PENDING true, false)
  | none =>
    if source ≠ 2 ∧ s.vault.clean then
      (((s.wr Reg.VLT_STORE_INFO.SOURCE source).wr Reg.VLT_STORE_INFO.CODE Code.ALREADY_DONE).lastStatus 7 Code.ALREADY_DONE, true)
    else (s.startStore source w, false)

/-- The store seals (R268): the shadow takes the snapshot, the counters and VLT_LAST_STORE update, STORE_DONE is raised, and an
AUTO store, or a store that an AUTO crossing met, counts as unsolicited while the device is not in LOST (R269, R271, R281). -/
def State.finishStore (s : State) (durationUs : Nat) : State :=
  match s.vault.run with
  | none => s
  | some r =>
    let auto := r.auto || s.vault.autoStore
    let source := if auto then 0 else r.source
    let t := { s with vault := { s.vault with shadow := r.snapshot, sealOpen := false, run := none, autoStore := false } }
    let t := ((t.countWrap Reg.VLT_STORE_CNT.COUNT 1).wr Reg.VLT_LAST_STORE.NS r.time).wrb Reg.VLT_STA.STORING false
    let t := ((t.wr Reg.VLT_STORE_INFO.SOURCE source).wr Reg.VLT_STORE_INFO.CODE Code.OK).wr Reg.VLT_STORE_INFO.DURATION (min durationUs 65535)
    let t := (if source = 0 then t else t.count Reg.VLT_CNT2.SW_STORES 1).raise 7 0
    let n := t.rd Reg.VLT_STORE_CNT.COUNT
    let t := if n = 900001 then t.raise 7 12 else t
    let t := (t.wrb Reg.VLT_STA.WORN (decide (1000000 < n))).lastStatus 7 Code.OK
    let t := if t.rd Reg.VLT_STA.SUPPLY = 2 then (({ t with vault := { t.vault with onHold := false } } : State).wr Reg.VLT_STA.SUPPLY 3).recharge else t
    if auto ∧ t.rd Reg.VLT_STA.SUPPLY ≠ 4 then
      ((t.count Reg.VLT_CNT.UNSOLICITED 1).raise 7 10).history 6 0xFF 0 0 0 0 (t.rd Reg.VLT_VMAIN.MIN) (t.rd Reg.SUP_HOLD_STA.VHOLD)
    else t

end Sys2Proof.Machine
end

