-- ==== Sys2Proof/Machine/ClerkOps.lean ====
section
/-!
DEFINITION. The clerks' shared steps (requesters, FATAL, halts, dumps, restarts) and the shared steps of a Jezama mailbox (headers,
replies, notices) (R293-R316, R330-R333).
-/
namespace Sys2Proof

/-! Requesters. -/

/-- The PF. -/
def Req.isPf : Req → Bool
  | .fn 0 => true
  | _ => false

/-- The clerk of a requester. -/
def Req.clerk : Req → Option Nat
  | .sec => some 0
  | .svc => some 1
  | .pwr => some 2
  | .fab => some 3
  | .dsa => some 4
  | .dsb => some 5
  | _ => none

/-- The PF or a clerk. -/
def Req.direct (q : Req) : Bool := q.isPf || q.clerk.isSome

end Sys2Proof

namespace Sys2Proof.Machine

/-! Boot stages (R211). -/
abbrev Stage.RESET : Nat := 0
abbrev Stage.OTP_CHECK : Nat := 1
abbrev Stage.HALTED : Nat := 2
abbrev Stage.BOARD : Nat := 3
abbrev Stage.RAILS : Nat := 4
abbrev Stage.MARCH : Nat := 5
abbrev Stage.HBM_TRAIN : Nat := 6
abbrev Stage.PCIE : Nat := 7
abbrev Stage.AWAIT_FIRMWARE : Nat := 8
abbrev Stage.LOADING : Nat := 9
abbrev Stage.LOADED : Nat := 10
abbrev Stage.RUNNING : Nat := 11
abbrev Stage.LOADED_REFUSED : Nat := 12
abbrev Stage.RECOVERY : Nat := 13
abbrev Stage.UNLOADING : Nat := 14

/-- BOOT_STA.STAGE. -/
def State.stage (s : State) : Nat := s.rd Reg.BOOT_STA.STAGE

/-- Enter a boot stage; STAGE_CHANGE is raised (R211). -/
def State.setStage (s : State) (g : Nat) : State := if s.stage = g then s else (s.wr Reg.BOOT_STA.STAGE g).raise 4 0

/-- Boot modes (R182, R211). -/
abbrev Mode.NORMAL : Nat := 0
abbrev Mode.RECOVERY : Nat := 1
abbrev Mode.MANUFACTURE_TEST : Nat := 2

/-! Clerk states (R332). -/
abbrev ClerkSt.OFF : Nat := 0
abbrev ClerkSt.ROM : Nat := 1
abbrev ClerkSt.RUNNING : Nat := 2
abbrev ClerkSt.HALTED : Nat := 3
abbrev ClerkSt.RESTARTING : Nat := 4
abbrev ClerkSt.FAILED : Nat := 5

def State.clerk (s : State) (n : Nat) : Clerk := tblGet default s.clerks n
def State.setClerk (s : State) (n : Nat) (c : Clerk) : State := { s with clerks := tblSet default s.clerks n c }
def State.clerkSt (s : State) (n : Nat) : Nat := s.rd (Reg.FWP_STA.STATE n)

/-- A clerk that executes: its ROM or its loaded image. -/
def State.clerkUp (s : State) (n : Nat) : Bool := s.clerkSt n = ClerkSt.ROM || s.clerkSt n = ClerkSt.RUNNING

/-- SVC serves requests: its loaded image runs. -/
def State.svcUp (s : State) : Bool := s.clerkSt 1 = ClerkSt.RUNNING

/-! Requesters as they stand. -/

/-- The PCIe link answers register accesses (R209, R373). -/
def State.hostReady (s : State) : Bool :=
  (decide (Stage.AWAIT_FIRMWARE ≤ s.stage) && s.stage ≠ Stage.RECOVERY)
    || (s.boot.restart = 2 && decide (Stage.RAILS ≤ s.stage) && decide (s.stage ≤ Stage.PCIE))

/-- PCX with its link up before it answers (R186, R395): a configuration request gets Request Retry Status, a memory request Unsupported
Request. -/
def State.retryConfig (s : State) (fn : Nat) : State :=
  if s.on Reg.PCX_LINK_STA.UP ∧ !s.hostReady then s.emit (.retryStatus fn) else s
def State.unsupported (s : State) (fn off : Nat) : State :=
  if s.on Reg.PCX_LINK_STA.UP ∧ !s.hostReady then s.emit (.unsupportedRequest fn off) else s
/-- A read of a function that cannot access its registers: before the link answers, in a function-level reset, or of a function that does not
exist (R186, R374, R393). -/
def State.unsupportedRead (s : State) (fn off : Nat) : State := if s.on Reg.PCX_LINK_STA.UP then s.emit (.unsupportedRequest fn off) else s

/-- Function `a` exists (R374). -/
def State.fnExists (s : State) (a : Nat) : Bool :=
  a = 0 || (decide (a < 32) && s.on Reg.PCX_VF_STA.VF_ENABLE && decide (a ≤ s.rd Reg.PCX_VF_STA.NUM_VFS))

/-- A function that can access its registers now: the link answers, it exists and is not in a function-level reset (R393). -/
def State.fnLive (s : State) (a : Nat) : Bool := s.hostReady && s.fnExists a && !bit (s.rd Reg.PCX_FLR_STA.FLR) a

/-- A requester that can issue a register access now. -/
def State.reqLive (s : State) : Req → Bool
  | .fn a => s.fnLive a
  | .sec => s.clerkUp 0
  | .svc => s.clerkUp 1
  | .pwr => s.clerkUp 2
  | .fab => s.clerkUp 3
  | .dsa => s.clerkUp 4
  | .dsb => s.clerkUp 5
  | .hook => s.boot.hook.isSome

/-- The PF or a clerk, live. -/
def State.direct (s : State) (q : Req) : Bool := q.direct && s.reqLive q

/-- The PF, live. -/
def State.pf (s : State) (q : Req) : Bool := q.isPf && s.reqLive q

/-- A region table permits an access of a component to an address: a region whose tag is the component or SHARED (0xFFFF) holds it, LIMIT
included, with the permission of its kind (0 read, 1 write, 2 execute) (R296, R297, R330; log entry 68). -/
def regionPermits (l : List Byte) (comp addr kind : Nat) : Bool :=
  (List.range 32).any fun i =>
    let tag := fieldAt l (16 * i + 12) 2
    (tag = comp || tag = 0xFFFF) && decide (fieldAt l (16 * i) 4 ≤ addr) && decide (addr ≤ fieldAt l (16 * i + 4) 4)
      && bit (fieldAt l (16 * i + 8) 4) kind

/-- 3,600 s on the local clock, in nanoseconds (R303). -/
def restartWindow : Nat := 3600 * 1000000000

/-- Halts of a clerk in the last 3,600 s. -/
def State.recentHalts (s : State) (n : Nat) : Nat :=
  ((s.clerk n).halts.filter fun t => decide (s.uptime < t + restartWindow)).length

/-- Restarts of a clerk in the last 3,600 s. -/
def State.recentRestarts (s : State) (n : Nat) : Nat :=
  ((s.clerk n).restarts.filter fun t => decide (s.uptime < t + restartWindow)).length

/-- SPX_SLV_IDLE between frames (R319): RECOVERY while SEC serves, that is until SVC starts. -/
def State.bmcIdle (s : State) : State :=
  s.wr (Reg.SPX_SLV_IDLE.WORD 1) (0x1D1E0000 + 256 * s.bmc.lastTag + 2 * b2n s.bmc.busy.isSome + b2n (s.clerkSt 1 = ClerkSt.OFF))

/-- A clerk starts at its entry: watchdog MIN 0 and MAX 1,000 ms (R300). A board management server that starts has no last request (R322). -/
def State.startClerk (s : State) (n st comp : Nat) : State :=
  let t := ((s.wr (Reg.FWP_STA.STATE n) st).wr (Reg.FWP_WD.MIN n) 0).wr (Reg.FWP_WD.MAX n) 1000
  let t := t.setClerk n { s.clerk n with comp := comp, lastKick := s.uptime }
  let t := if n = 2 then { t with loop := { t.loop with taken := false, powers := [], coolRun := 0, raising := none } } else t
  if n < 2 then ({ t with bmc := { t.bmc with hasLast := false } } : State).bmcIdle else t

/-- A loaded PWR image writes CLK_PWR_DIV: the safe clock table is released and the ROM safe loop ends (R45, R360). -/
def State.pwrDiv (s : State) (div : Nat) : State :=
  ((s.wr Reg.CLK_PWR_DIV.DIV div).setClamp Reg.CLK_STA.CLAMP_SAFE false).retarget.wrb Reg.PWR_LOOP_STA.SAFE false

/-! Jezama messages (R309). -/

/-- The bytes of a Jezama message: header with its complements, then payload. -/
def jzMessage (major minor session typ flags code seq : Nat) (payload : List Byte) : List Byte :=
  let w1 := major % 256 + minor % 256 * 256 + session % 65536 * 65536
  let w2 := typ % 65536 + flags % 256 * 65536 + code % 256 * 2 ^ 24
  leBytes 4 0x414D5A4A ++ leBytes 4 w1 ++ leBytes 4 w2 ++ leBytes 4 (2 ^ 32 - 1 - 0x414D5A4A) ++ leBytes 4 (2 ^ 32 - 1 - w1)
    ++ leBytes 4 (2 ^ 32 - 1 - w2) ++ leBytes 4 seq ++ leBytes 4 payload.length ++ payload

abbrev Flag.REPLY : Nat := 1
abbrev Flag.DUPLICATE : Nat := 2
abbrev Flag.NOTICE : Nat := 4
abbrev Flag.RESTARTED : Nat := 8

def State.pair (s : State) (a p : Nat) : Pair := tblGet ⟨0, 0, 0, [], 0, .ok⟩ s.pairs (2 * a + p)
def State.setPair (s : State) (a p : Nat) (x : Pair) : State := { s with pairs := tblSet ⟨0, 0, 0, [], 0, .ok⟩ s.pairs (2 * a + p) x }

/-- The pair becomes REPLIED after its reply bytes went to the host, or with the DMA status if they could not (R313). -/
def State.deliver (s : State) (a p code : Nat) (bs : List Byte) (wr : DmaEnd) : State :=
  let pg := 0x20 + a
  let t := s.wr (Reg.MBX_STA.STATE a p) 3
  if wr = .ok then
    ((t.emit (.jezama a p (s.rd (Reg.MBX_RSP_ADDR.ADDR a p) * 4096) bs)).wr (Reg.MBX_STA.CODE a p) code).raise pg 0
  else ((t.wr (Reg.MBX_STA.CODE a p) (dmaCode wr)).raise pg 4).raise pg 0

/-- A reply of check 6 or later: it enters the reply store and LAST_SEQ takes its SEQ (R310). -/
def State.replyFlags (s : State) (a p typ flags code : Nat) (payload : List Byte) (wr : DmaEnd) : State :=
  let q := s.pair a p
  let bs := jzMessage q.major q.minor (s.rd Reg.BOOT_SESSION.SESSION) typ (Flag.REPLY + flags) code q.seq payload
  let t := s.setPair a p { q with reply := bs, wr := wr }
  (((t.wr (Reg.MBX_LAST_SEQ.SEQ a p) q.seq).wrb (Reg.MBX_STA.SEQ_VALID a p) true).deliver a p code bs wr).lastStatus (0x20 + a) code

def State.reply (s : State) (a p typ code : Nat) (payload : List Byte) (wr : DmaEnd) : State := s.replyFlags a p typ 0 code payload wr

/-- A reply of checks 2-4: SEQ from the doorbell, and no entry in the reply store. -/
def State.replyEarly (s : State) (a p typ code : Nat) (wr : DmaEnd) : State :=
  let q := s.pair a p
  let bs := jzMessage q.major q.minor (s.rd Reg.BOOT_SESSION.SESSION) typ Flag.REPLY code q.seq []
  (s.deliver a p code bs wr).lastStatus (0x20 + a) code

/-- A request that stays BUSY until a later command answers it. -/
def State.busy (s : State) (a p typ : Nat) (wr : DmaEnd) : State :=
  (s.setPair a p { s.pair a p with typ := typ, wr := wr }).wr (Reg.MBX_STA.STATE a p) 2

/-- Answer a BUSY request with its own TYPE. While SVC does not run, the request stays BUSY (R305) and is answered after the restart (R317). -/
def State.answer (s : State) (a p code : Nat) (payload : List Byte) : State :=
  if s.svcUp ∧ s.rd (Reg.MBX_STA.STATE a p) = 2 then s.reply a p (s.pair a p).typ code payload (s.pair a p).wr else s

/-- A notice to an account (R314), in the session's version; it is written while SVC runs (log entries 16, 21). -/
def State.notice (s : State) (a typ : Nat) (payload : List Byte) : State :=
  if !s.svcUp then s
  else
    let head := s.rd (Reg.NTC_HEAD.COUNT a)
    let n := s.rd (Reg.NTC_CFG.ENTRIES a)
    if s.rd (Reg.NTC_CFG.ENABLE a) = 0 ∨ (head + 2 ^ 32 - s.rd (Reg.NTC_TAIL.COUNT a)) % 2 ^ 32 = n then
      (s.count (Reg.NTC_DROPPED.COUNT a) 1).raise (0x20 + a) 3
    else
      let bs := jzMessage (s.rd Reg.BOOT_SESSION.DRV_MAJOR) (s.rd Reg.BOOT_SESSION.DRV_MINOR) (s.rd Reg.BOOT_SESSION.SESSION) typ Flag.NOTICE 0 0 payload
      ((s.emit (.jezama a 2 (s.rd (Reg.NTC_ADDR.ADDR a) * 4096 + 4096 * (head % n)) bs)).countWrap (Reg.NTC_HEAD.COUNT a) 1).raise (0x20 + a) 1

/-! FATAL (R306). -/
abbrev Fatal.CLERK_RESTARTS : Nat := 1
abbrev Fatal.SEC_HALT : Nat := 2
abbrev Fatal.IMAGE_LOST : Nat := 3
abbrev Fatal.CLOCK_GLITCH : Nat := 4
abbrev Fatal.DIE_LINK : Nat := 5
abbrev Fatal.RAIL_RESET : Nat := 6
abbrev Fatal.RAIL_TABLE : Nat := 7

/-- Raise FATAL: the first cause is recorded with the device-reset request, the event is raised and logged, and account 0 gets a
notice while SVC runs. -/
def State.fatal (s : State) (cause clerk : Nat) : State :=
  let t := if s.rd (Reg.FWP_FATAL.CAUSE 0) ≠ 0 then s
    else ((s.wr (Reg.FWP_FATAL.CAUSE 0) cause).wr (Reg.FWP_FATAL.CLERK 0) clerk).wrb (Reg.FWP_FATAL.RESET_REQ 0) (decide (cause ≠ Fatal.RAIL_TABLE))
  ((t.raise 0x10 8).logHw 0 3 cause clerk 0).notice 0 0x0101 (leBytes 4 cause ++ leBytes 4 clerk)

/-! Halts, dumps and restarts (R299-R304, R330, R331). -/
abbrev Halt.WD_LATE : Nat := 1
abbrev Halt.WD_EARLY : Nat := 2
abbrev Halt.PROTECTION : Nat := 3
abbrev Halt.DOUBLE_FAULT : Nat := 4

/-- A clerk halts (R301): its state and cause, the halt's time and count, the dump engine's queue, and what a halt of PWR and of SEC
entails (R45, R304). -/
def State.haltClerk (s : State) (n cause addr : Nat) : State :=
  if !s.clerkUp n then s
  else
    let t := ((s.wr (Reg.FWP_STA.STATE n) ClerkSt.HALTED).wr (Reg.FWP_STA.CAUSE n) cause).wr (Reg.FWP_HALT_TIME.NS n) s.now
    let t := (t.count (Reg.FWP_TOTAL.HALTS n) 1).raise (0x10 + n) 0
    let t := if cause = Halt.PROTECTION then t.raise (0x10 + n) 3 else t
    let t := { t with dumps := t.dumps ++ [n] }.setClerk n
      { s.clerk n with haltComp := (s.clerk n).comp, faultAddr := addr, halts := s.uptime :: (s.clerk n).halts }
    let t := if n = 2 then t.holdSafeClock else t
    if n = 0 then t.fatal Fatal.SEC_HALT 0 else t

/-- The dump slot the engine uses: the lowest whose HEAD_PTR is 0, else the one with the oldest TIME (R331). -/
def State.dumpSlot (s : State) : Nat :=
  match (List.range 8).find? fun d => s.ptr (dumpRegion d) 0x10 = 0 with
  | some d => d
  | none =>
    (List.range 8).foldl (fun best d =>
      if s.vaultNat ((dumpRegion d).base + 0x40) 8 < s.vaultNat ((dumpRegion best).base + 0x40) 8 then d else best) 0

/-- The last 128 log entries of the ring, oldest first (R330). -/
def State.lastLog (s : State) : List Byte :=
  let e := logRegion.entries
  let number := s.ringNumber logRegion
  let n := min 128 number
  ((List.range n).map fun i => bytesAt s.vault.sram (0x40 + 32 * ((number - n + i) % e)) 32).flatten

/-- `n` bytes, padded with zeros or cut. -/
def padTo (n : Nat) (l : List Byte) : List Byte := l.take n ++ zeros (n - l.length)

/-- The body of the dump of clerk `n` (R330). What the clerk's own registers, stack and local memory hold is free. -/
def State.dumpBody (s : State) (n : Nat) : List Byte :=
  let c := s.clerk n
  let len := Config.freeNat (s.free + 327820) % 65537
  let mem := ({ s with free := s.free + 140 } : State).freeBytes 327680
  let body := padTo 256 (s.freeBytes 140) ++ padTo 512 c.regions ++ zeros 192 ++ padTo 4096 s.lastLog
    ++ padTo 65536 (mem.take len) ++ mem.drop 65536
  leBytes 8 (s.rd (Reg.FWP_HALT_TIME.NS n)) ++ leBytes 2 c.haltComp ++ leBytes 1 n ++ leBytes 1 (s.rd (Reg.FWP_STA.CAUSE n))
    ++ leBytes 4 (s.recentRestarts n) ++ leBytes 4 (if c.haltComp = 0 ∨ c.haltComp = 0x200 then 0 else s.rd Reg.BOOT_IMAGE.VERSION) ++ leBytes 4 (s.rd Reg.BOOT_SESSION.SESSION)
    ++ leBytes 4 c.faultAddr ++ leBytes 4 (crc32c body) ++ leBytes 4 len ++ zeros 28 ++ body

/-- The engine completes a dump: body first, HEAD_PTR last, CLERK_HALT logged, DUMP_WRITTEN noticed (R301, R315). -/
def State.writeDump (s : State) (n : Nat) : State :=
  let d := s.dumpSlot
  let r := dumpRegion d
  let t := (s.readyHeader r).vaultWrite (r.base + 0x40) (s.dumpBody n)
  let t := (t.setPtr r 0x10 0x51400).skipFree 327821
  let t := (t.wr (Reg.FWP_STA.DUMP n) d).logHw 1 1 n (s.rd (Reg.FWP_STA.CAUSE n)) d
  t.notice 0 0x0103 (leBytes 4 d ++ leBytes 4 n)

end Sys2Proof.Machine
end

