-- ==== Sys2Proof/Machine/RailOps.lean ====
section
/-!
DEFINITION. The supervisor's shared steps: dependencies, commands, faults and reactions, the thermal trip (R109-R149).
-/
namespace Sys2Proof.Machine

/-! Rail states and causes (R137). -/
abbrev RailSt.UNUSED : Nat := 0
abbrev RailSt.OFF : Nat := 1
abbrev RailSt.SENSE_CHECK : Nat := 2
abbrev RailSt.WAIT_DEPS : Nat := 3
abbrev RailSt.START_DELAY : Nat := 4
abbrev RailSt.SOFT_START : Nat := 5
abbrev RailSt.ON : Nat := 6
abbrev RailSt.STOP_WAIT : Nat := 7
abbrev RailSt.DISCHARGE : Nat := 8
abbrev RailSt.BACKOFF : Nat := 9
abbrev RailSt.FAILED : Nat := 10
abbrev RailSt.SENSE_FAULT : Nat := 11

abbrev Cause.UV : Nat := 1
abbrev Cause.OV : Nat := 2
abbrev Cause.PG_LOST : Nat := 3
abbrev Cause.SHORT_SUSPECT : Nat := 4
abbrev Cause.PG_MISSING : Nat := 5
abbrev Cause.SENSE_OPEN : Nat := 6
abbrev Cause.SENSE_REVERSED : Nat := 7
abbrev Cause.DEP_CUT : Nat := 8
abbrev Cause.THERMTRIP : Nat := 9
abbrev Cause.FAILED_IN_DOWN : Nat := 10

/-! SUP_STA.SEQ (R135). -/
abbrev Seq.IDLE_OFF : Nat := 0
abbrev Seq.STARTING : Nat := 1
abbrev Seq.ON : Nat := 2
abbrev Seq.STOPPING : Nat := 3
abbrev Seq.PARTIAL : Nat := 4

def channels : List Nat := List.range 20

def State.rail (s : State) (n : Nat) : Rail := tblGet default s.rails n
def State.setRail (s : State) (n : Nat) (r : Rail) : State := { s with rails := tblSet default s.rails n r }
def State.railSt (s : State) (n : Nat) : Nat := s.rd (Reg.RAIL_STA.STATE n)
def State.setRailSt (s : State) (n st : Nat) : State := s.wr (Reg.RAIL_STA.STATE n) st
def State.railUsed (s : State) (n : Nat) : Bool := s.on (Reg.RAIL_CFG.USED n)
def State.railDeps (s : State) (n : Nat) : Nat := s.rd (Reg.RAIL_CFG.DEPS n)
def State.railGroup (s : State) (n : Nat) : Nat := s.rd (Reg.RAIL_CFG.GROUP n)

/-- Used channels as a mask. -/
def State.usedMask (s : State) : Nat := maskOf s.railUsed 20

/-- A channel is good while it is in ON or STOP_WAIT and its last decision was good (R111). -/
def State.railGood (s : State) (n : Nat) : Bool :=
  (s.railSt n = RailSt.ON || s.railSt n = RailSt.STOP_WAIT) && (s.rail n).good

/-- Every channel of a mask is good. -/
def State.depsGood (s : State) (n : Nat) : Bool := channels.all fun m => !bit (s.railDeps n) m || s.railGood m

/-- The used channels that depend directly on channel `n`. -/
def State.dependents (s : State) (n : Nat) : Nat := maskOf (fun m => s.railUsed m && bit (s.railDeps m) n) 20

/-- One round of closing a set of channels under dependents. -/
def State.closeOnce (s : State) (mask : Nat) : Nat :=
  mask ||| maskOf (fun m => s.railUsed m && (s.railDeps m &&& mask) ≠ 0) 20

/-- A set of channels closed under dependents (R117). -/
def State.closure (s : State) (mask : Nat) : Nat := Nat.repeat s.closeOnce 20 mask

/-- The mask of a list of channels. -/
def chanMask (l : List Nat) : Nat := maskOf (fun n => l.contains n) 20

/-- Advance one channel by the rows of R134 that need no event: OFF while wanted, WAIT_DEPS, START_DELAY. -/
def State.kickOne (s : State) (n : Nat) : State :=
  let st := s.railSt n
  let r := s.rail n
  if st = RailSt.OFF ∧ r.wanted ∧ s.railUsed n then s.setRailSt n RailSt.SENSE_CHECK
  else if st = RailSt.WAIT_DEPS ∧ s.depsGood n then s.setRailSt n RailSt.START_DELAY
  else if st = RailSt.START_DELAY ∧ !s.depsGood n then s.setRailSt n RailSt.WAIT_DEPS
  else s

/-- Advance every channel until none has a step left. -/
def State.kick (s : State) : State := channels.foldl (fun t n => (t.kickOne n).kickOne n) s

/-- A channel that waits can still start: none of its dependencies, direct or not, is failed or unwanted. -/
def State.canStart (s : State) (n : Nat) : Bool :=
  let blocked := chanMask (channels.filter fun m =>
    !s.railUsed m || !(s.rail m).wanted || s.railSt m = RailSt.FAILED || s.railSt m = RailSt.SENSE_FAULT)
  !bit (s.closure blocked) n

/-- SUP_STA.SEQ as the channels stand (log entry 18). -/
def State.seqOf (s : State) : Nat :=
  let used := channels.filter s.railUsed
  if used.any fun n => s.railSt n = RailSt.STOP_WAIT || (s.railSt n = RailSt.DISCHARGE && !(s.rail n).wanted) then Seq.STOPPING
  else if used.any fun n => (s.rail n).wanted &&
      (let st := s.railSt n
       st = RailSt.SENSE_CHECK || st = RailSt.START_DELAY || st = RailSt.SOFT_START || st = RailSt.BACKOFF || st = RailSt.DISCHARGE
        || ((st = RailSt.OFF || st = RailSt.WAIT_DEPS) && s.canStart n)) then Seq.STARTING
  else if !used.isEmpty && used.all fun n => s.railSt n = RailSt.ON then Seq.ON
  else if used.any fun n => (s.rail n).en then Seq.PARTIAL
  else Seq.IDLE_OFF

/-- Bring SUP_STA, SUP_RAIL_ON and SUP_RAIL_FAULT up to date; SEQ_DONE is raised when a sequence ends (R135, R136). -/
def State.refreshSup (s : State) : State :=
  let old := s.rd Reg.SUP_STA.SEQ
  let new := s.seqOf
  let grp := maskOf (fun g => (channels.any fun n => s.railUsed n && s.railGroup n = g)
    && (channels.all fun n => !(s.railUsed n && s.railGroup n = g) || s.railSt n = RailSt.ON)) 8
  let t := ((((s.wr Reg.SUP_STA.SEQ new).wr Reg.SUP_STA.GROUPS_ON grp).wr Reg.SUP_RAIL_ON.ON
    (maskOf (fun n => s.railSt n = RailSt.ON) 20)).wr Reg.SUP_RAIL_FAULT.FAULT
    (maskOf (fun n => s.railSt n = RailSt.FAILED || s.railSt n = RailSt.SENSE_FAULT) 20))
  if (old = Seq.STARTING ∨ old = Seq.STOPPING) ∧ new ≠ Seq.STARTING ∧ new ≠ Seq.STOPPING then t.raise 2 5 else t

/-- Both compute dies are powered: every used channel of SUP_COMPUTE_GRP (of the table, while it names no group) is ON, and there is
one (R91, log entry 19). -/
def State.computePowered (s : State) : Bool :=
  let groups := if s.rd Reg.SUP_COMPUTE_GRP.GROUPS = 0 then 255 else s.rd Reg.SUP_COMPUTE_GRP.GROUPS
  let l := channels.filter fun n => s.railUsed n && bit groups (s.railGroup n)
  !l.isEmpty && l.all fun n => s.railSt n = RailSt.ON

/-- What follows the power of the compute dies: the die link is up exactly while both are powered and it neither retrains nor has failed, and a
retrain ends with the power (R52, log entry 59), and SEC remembers that they were powered (R162). -/
def State.followPower (s : State) : State :=
  let up := s.computePowered
  let t := { s with computeRan := s.computeRan || up }
  [0, 1].foldl (fun t h =>
    let t := t.wrb (Reg.DLK_STA.RETRAINING h) (up && t.on (Reg.DLK_STA.RETRAINING h))
    t.wrb (Reg.DLK_STA.UP h) (up && !t.on (Reg.DLK_STA.RETRAINING h) && !t.on (Reg.DLK_STA.FAILED h))) t

/-- Let every channel take the steps it has and bring the summary registers and what follows the compute power up to date. -/
def State.settleRails (s : State) : State := s.kick.refreshSup.followPower

/-! Commands (R113, R116, R117, R136, R146, R149). -/

/-- CMD_REFUSED with LIMIT. -/
def State.refuseSup (s : State) : State := (s.raise 2 11).lastStatus 2 Code.LIMIT

/-- No power-up is accepted: a power-down runs, the thermal trip is latched or SYSTEM_RESET was taken (R120, R146, R149). -/
def State.upBlocked (s : State) : Bool :=
  s.rd Reg.SUP_STA.SEQ = Seq.STOPPING || s.on Reg.SUP_STA.THERMTRIP || s.on Reg.SUP_STA.RESET_REQ

/-- A command wants one channel on: FAILED and SENSE_FAULT return to OFF with the retry counter cleared (R123), and a new sense check is
due before its enable rises (R113, R126). -/
def State.wantOn (s : State) (n : Nat) : State :=
  let st := s.railSt n
  let t := if st = RailSt.FAILED ∨ st = RailSt.SENSE_FAULT then (s.setRailSt n RailSt.OFF).wr (Reg.RAIL_STA.RETRY_N n) 0 else s
  t.setRail n { t.rail n with wanted := true, sensed := false }

/-- A command powers up the used channels of a mask. A group that GROUP_OFF turned off comes back when a command names a channel of it
(R120, R123; log entry 18). -/
def State.powerUp (s : State) (mask : Nat) : State :=
  let l := channels.filter fun n => bit mask n && s.railUsed n
  let named := maskOf (fun g => l.any fun n => s.railGroup n = g) 8
  (l.foldl State.wantOn { s with groupsOff := s.groupsOff &&& (255 - named) }).settleRails

/-- The Vault powers up the used channels of a mask by R113 (R125): one in FAILED or SENSE_FAULT, or of a group that GROUP_OFF turned off,
stays off, and no retry counter clears. -/
def State.powerBack (s : State) (mask : Nat) : State :=
  let l := channels.filter fun n => bit mask n && s.railUsed n && !bit s.groupsOff (s.railGroup n)
    && s.railSt n ≠ RailSt.FAILED && s.railSt n ≠ RailSt.SENSE_FAULT
  (l.foldl (fun t n => t.setRail n { t.rail n with wanted := true }) s).settleRails

/-- A channel that a command affects has not passed its sense check yet: no enable rises meanwhile (R126). -/
def State.checksDue (s : State) : Bool := channels.any fun n =>
  s.railUsed n && (s.rail n).wanted && !(s.rail n).en && !(s.rail n).sensed
    && (s.railSt n = RailSt.SENSE_CHECK || s.railSt n = RailSt.WAIT_DEPS || s.railSt n = RailSt.START_DELAY || s.railSt n = RailSt.BACKOFF)

/-- SUP_CMD POWER_UP. While a power-down runs, the thermal trip is latched or SYSTEM_RESET was taken it is refused as R146 refuses one
(CMD_REFUSED and LIMIT; R149 and R120 only say that it is not accepted, log entry 18). -/
def State.supPowerUp (s : State) : State := if s.upBlocked ∨ s.usedMask = 0 then s.refuseSup else s.powerUp s.usedMask

/-- The used channels of a set of groups. -/
def State.groupMask (s : State) (groups : Nat) : Nat := maskOf (fun n => s.railUsed n && bit groups (s.railGroup n)) 20

/-- SUP_GROUP_CMD ON: a named group without used channels is refused (R136). -/
def State.supGroupOn (s : State) (groups : Nat) : State :=
  if s.upBlocked then s.refuseSup
  else
    let empty := (List.range 8).any fun g => bit groups g && s.groupMask (2 ^ g) = 0
    let t := if s.groupMask groups = 0 then s else s.powerUp (s.groupMask groups)
    if empty then t.refuseSup else t

/-- One channel of a power-down (R134, "stop"): `live` are the channels that are not yet off when it starts. -/
def State.stopRail (s : State) (live n : Nat) : State :=
  let st := s.railSt n
  let r := s.rail n
  if st = RailSt.SOFT_START ∨ st = RailSt.ON then
    (s.setRailSt n RailSt.STOP_WAIT).setRail n { r with wanted := false, waitOn := s.dependents n &&& live }
  else if st = RailSt.SENSE_CHECK ∨ st = RailSt.WAIT_DEPS ∨ st = RailSt.START_DELAY then
    (s.setRailSt n RailSt.OFF).setRail n { r with wanted := false }
  else if st = RailSt.BACKOFF then
    ((s.setRailSt n RailSt.OFF).wr (Reg.RAIL_STA.RETRY_N n) 0).setRail n { r with wanted := false }
  else if st = RailSt.DISCHARGE ∧ r.after = RailSt.BACKOFF then s.setRail n { r with wanted := false, after := RailSt.OFF }
  else s.setRail n { r with wanted := false }

/-- Channels whose enable is high. -/
def State.enMask (s : State) : Nat := maskOf (fun n => (s.rail n).en) 20

/-- Power down a set of channels closed under dependents; the added ones go to the history (R117, log entry 17). -/
def State.powerDown (s : State) (mask : Nat) : State :=
  let all := s.closure mask
  let live := s.enMask
  let wait := live ||| maskOf (fun n => s.railSt n = RailSt.DISCHARGE) 20
  let t := (channels.filter fun n => bit all n && s.railUsed n).foldl (fun t n => t.stopRail wait n) s
  let added := all &&& (2 ^ 20 - 1 - mask % 2 ^ 20)
  let t := if added &&& live = 0 then t else t.history 1 0xFF 0 0 (added &&& live) 0 0 0
  t.settleRails

/-- SUP_CMD POWER_DOWN: with no channel on SEQ stays IDLE_OFF and SEQ_DONE is set at once (R136). -/
def State.supPowerDown (s : State) : State :=
  let t := s.powerDown s.usedMask
  if s.enMask = 0 ∧ s.rd Reg.SUP_STA.SEQ = Seq.IDLE_OFF then t.raise 2 5 else t

/-! Cuts, faults and reactions (R118-R124, R140, R141, R144). -/

/-- RAIL_EN falls at once; the channel discharges towards `after`. -/
def State.dropRail (s : State) (n after : Nat) (wanted : Bool) : State :=
  (s.setRailSt n RailSt.DISCHARGE).setRail n { s.rail n with en := false, good := false, after := after, wanted := wanted, shown := 0 }

/-- A dependent is cut with cause DEP_CUT, without a reaction or a retry of its own (R122). -/
def State.cutDependent (s : State) (n : Nat) (wanted : Bool) : State :=
  ((s.wr (Reg.RAIL_STA.CAUSE n) Cause.DEP_CUT).count (Reg.RAIL_CNT.CUTS n) 1).dropRail n RailSt.OFF ((s.rail n).wanted && wanted)

/-- A fault is recorded: cause, count, SUP_LAST_FAULT, RAIL_FAULT, and POWER in LAST_STATUS (R119, R124). -/
def State.recordFault (s : State) (n cause reaction : Nat) : State :=
  let t := ((s.wr (Reg.RAIL_STA.CAUSE n) cause).count (Reg.RAIL_CNT.FAULTS n) 1).wr Reg.SUP_LAST_FAULT.CHANNEL n
  let t := ((t.wr Reg.SUP_LAST_FAULT.CAUSE cause).wr Reg.SUP_LAST_FAULT.REACTION reaction).raise 2 0
  (if cause = Cause.SHORT_SUSPECT then t.raise 2 3 else t).lastStatus 2 Code.POWER

/-- The reaction a fault takes by itself: GROUP_OFF in place of a RETRY_RAIL whose retries are used up (R120, R121), and in place of
IGNORE or RETRY_RAIL for a suspected short (R141). -/
def State.reactionOf (s : State) (n cause : Nat) : Nat :=
  let r := s.rd (Reg.RAIL_CFG.REACTION n)
  if cause = Cause.SHORT_SUSPECT then (if r = 3 then 3 else 2)
  else if r = 1 ∧ s.rd (Reg.RAIL_CFG.RETRIES n) ≤ s.rd (Reg.RAIL_STA.RETRY_N n) then 2 else r

/-- A fault during a power-down (R140): the channel and its still-enabled dependents are cut at once. -/
def State.downFault (s : State) (n cause : Nat) : State :=
  let deps := s.closure (2 ^ n) &&& s.enMask &&& (2 ^ 20 - 1 - 2 ^ n)
  let t := (s.recordFault n cause 0).wr (Reg.RAIL_STA.CAUSE n) Cause.FAILED_IN_DOWN
  let t := ((t.wr Reg.SUP_LAST_FAULT.CAUSE Cause.FAILED_IN_DOWN).dropRail n RailSt.OFF false).raise 2 4
  let t := (channels.filter (bit deps)).foldl (fun t m => t.cutDependent m false) t
  (t.wr Reg.SUP_DOWN_CUT.CUT deps).history 2 n Cause.FAILED_IN_DOWN 0 deps (s.rd (Reg.RAIL_STA.RETRY_N n)) 0 0

/-- The faults of a period that no other fault's cut covers. -/
def State.primary (s : State) (faults : List (Nat × Nat)) : List (Nat × Nat) :=
  faults.filter fun f => faults.all fun g => g.1 = f.1 || !bit (s.closure (2 ^ g.1)) f.1

/-- A fault of a channel that another channel's fault already cuts: recorded with its cause, without a reaction (R124, R144). -/
def State.recordCut (s : State) (f : Nat × Nat) : State :=
  (s.recordFault f.1 f.2 0).history 1 f.1 f.2 0 0 (s.rd (Reg.RAIL_STA.RETRY_N f.1)) 0 0

/-- A dependent whose enable is low, under a reaction that turns its dependency off: one in its retry backoff stays there (R145), any other
stops when its group goes off, and else waits. -/
def State.holdDependent (s : State) (groups n : Nat) : State :=
  if s.railSt n = RailSt.BACKOFF ∨ s.railSt n = RailSt.DISCHARGE ∨ !bit groups (s.railGroup n) then s else s.stopRail 0 n

/-- The faults of one sample period outside a power-down, with the strongest reaction among them (R120, R144). An ignored fault leaves a
channel in ON enabled; in SOFT_START it ends the soft start, and the channel goes to OFF (R114, R134; log entry 30). -/
def State.react (s : State) (faults : List (Nat × Nat)) : State :=
  let r := faults.foldl (fun m f => max m (s.reactionOf f.1 f.2)) 0
  if r = 0 then
    faults.foldl (fun t f =>
      let u := (t.recordFault f.1 f.2 0).history 1 f.1 f.2 0 0 (t.rd (Reg.RAIL_STA.RETRY_N f.1)) 0 0
      if u.railSt f.1 = RailSt.SOFT_START then u.dropRail f.1 RailSt.OFF false else u) s
  else
    let prim := s.primary faults
    let primMask := chanMask (prim.map (·.1))
    let faultMask := chanMask (faults.map (·.1))
    let cut := s.closure primMask
    let deps := cut &&& s.enMask &&& (2 ^ 20 - 1 - primMask)
    let s := (faults.filter fun f => !bit primMask f.1).foldl State.recordCut s
    let s := prim.foldl (fun t f => t.recordFault f.1 f.2 r) s
    let t := prim.foldl (fun t f => t.dropRail f.1 (if r = 1 then RailSt.BACKOFF else RailSt.FAILED) (r = 1)) s
    let t := (channels.filter (bit deps)).foldl (fun t m =>
      if bit faultMask m then t.dropRail m RailSt.OFF ((t.rail m).wanted && r = 1) else t.cutDependent m (r = 1)) t
    let t := prim.foldl (fun t f => t.history 1 f.1 f.2 r deps (t.rd (Reg.RAIL_STA.RETRY_N f.1)) 0 0) t
    if r = 1 then t
    else
      let groups := prim.foldl (fun g f => g ||| 2 ^ s.railGroup f.1) 0
      let others := (if r = 2 then s.groupMask groups else s.usedMask) &&& (2 ^ 20 - 1 - cut)
      let t := ({ t with groupsOff := t.groupsOff ||| groups } : State).powerDown others
      let t := (channels.filter fun m => bit cut m && !bit primMask m).foldl (State.holdDependent · (if r = 2 then groups else 255) ·) t
      if r = 3 then (t.wrb Reg.SUP_STA.RESET_REQ true).fatal Fatal.RAIL_RESET 0 else t

/-- Faults decided together: those of channels in STOP_WAIT by R140, the others by their reaction; one whose channel is already cut is
recorded. -/
def State.railFaults (s : State) (faults : List (Nat × Nat)) : State :=
  let down := faults.filter fun f => s.railSt f.1 = RailSt.STOP_WAIT
  let up := faults.filter fun f => s.railSt f.1 = RailSt.SOFT_START || s.railSt f.1 = RailSt.ON
  let t := (s.primary down).foldl (fun t f => t.downFault f.1 f.2) s
  let gone (u : State) (f : Nat × Nat) : Bool := !(s.primary down).contains f && !(u.rail f.1).en
  let u := if (up.filter fun f => !gone t f).isEmpty then t else t.react (up.filter fun f => !gone t f)
  ((down ++ up).filter (gone t)).foldl State.recordCut u

/-- A channel is confirmed off: it takes the state its cut set, and the channels beneath it no longer wait for it (R115, R116). -/
def State.confirmOff (s : State) (n : Nat) : State :=
  let r := s.rail n
  let t := (s.setRailSt n r.after).setRail n { r with good := false }
  channels.foldl (fun t m => if bit (t.rail m).waitOn n then t.setRail m { t.rail m with waitOn := setBit (t.rail m).waitOn n false } else t) t

/-- The UV and OV thresholds of a channel; a corrupt counterfoil is never used (R98). -/
def State.railWindow (s : State) (n : Nat) : Option (Nat × Nat) :=
  match cfVal (s.cell (Reg.RAIL_UV.UV n).key).toNat, cfVal (s.cell (Reg.RAIL_OV.OV n).key).toNat with
  | some u, some o => some (u % 65536, o % 65536)
  | _, _ => none

/-- The fault conditions that a pair of samples shows on a supervised channel (R111, R118): bit 0 UV, not good because of its sense where
the pair is not one at or above OV; bit 1 OV; bit 2 PG_LOST (log entry 30). -/
def pairFault (uv ov : Nat) (pgUsed : Bool) (a b : Nat × Bool) : Nat :=
  let badS (x : Nat × Bool) : Bool := !(decide (uv < x.1) && decide (x.1 < ov))
  let badP (x : Nat × Bool) : Bool := pgUsed && !x.2
  let above := decide (ov ≤ a.1) && decide (ov ≤ b.1)
  b2n ((badS a || badP a) && (badS b || badP b) && (badS a || badS b) && !above) + 2 * b2n above + 4 * b2n (badP a && badP b)

/-- The cause of the conditions that newly show: OV before UV before PG_LOST. -/
def conditionCause (m : Nat) : Option Nat :=
  if bit m 1 then some Cause.OV else if bit m 0 then some Cause.UV else if bit m 2 then some Cause.PG_LOST else none

/-- A good pair of samples (R111). -/
def pairGood (uv ov : Nat) (pgUsed : Bool) (a b : Nat × Bool) : Bool :=
  let good (x : Nat × Bool) : Bool := decide (uv < x.1) && decide (x.1 < ov) && (!pgUsed || x.2)
  good a && good b

/-- One channel of a sample period: the sample is latched, in whole rail millivolts (truncated, log entry 30), and its pair decided. The
second result lists a fault: a condition of R118 faults once when it arises, and again only after the channel was good (log entry 30). -/
def State.sampleRail (s : State) (n raw : Nat) (pg : Bool) : State × List (Nat × Nat) :=
  if !s.railUsed n then (s, [])
  else
    let mv := raw * 2048 / max 1 (s.rd (Reg.RAIL_SCALE.SCALE n))
    let r := s.rail n
    let now := (mv, pg)
    let t := (s.wr (Reg.RAIL_STA.SENSE n) mv).setRail n { r with prev := some now }
    match s.railWindow n, r.prev with
    | none, _ => (t.cfCorrupt 2, [])
    | _, none => (t, [])
    | some (uv, ov), some old =>
      let used := s.on (Reg.RAIL_CFG.PG_USED n)
      let st := s.railSt n
      if st = RailSt.SOFT_START then
        if pairGood uv ov used old now then
          (((t.setRailSt n RailSt.ON).wr (Reg.RAIL_STA.CAUSE n) 0).setRail n { t.rail n with good := true, shown := 0 }, [])
        else if ov ≤ old.1 ∧ ov ≤ now.1 then (t, [(n, Cause.OV)]) else (t, [])
      else if st = RailSt.ON ∨ st = RailSt.STOP_WAIT then
        let m := pairFault uv ov used old now
        if pairGood uv ov used old now then (t.setRail n { t.rail n with good := true, shown := 0 }, [])
        else if m = 0 then (t, [])
        else (t.setRail n { t.rail n with good := false, shown := r.shown ||| m },
          ((conditionCause (m &&& (7 - r.shown % 8))).map fun c => (n, c)).toList)
      else if st = RailSt.DISCHARGE ∧ 4 * old.1 < uv ∧ 4 * now.1 < uv then (t.confirmOff n, [])
      else (t, [])

/-- A sample period of every channel (R110, R111). -/
def State.sampleRails (s : State) (samples : List Nat) (pg : Nat) : State :=
  let r := channels.foldl (fun (acc : State × List (Nat × Nat)) n =>
    let x := acc.1.sampleRail n (samples.getD n 0) (bit pg n)
    (x.1, acc.2 ++ x.2)) (s, [])
  (r.1.railFaults r.2).settleRails

/-- The thermal trip (R133, R149): every enable falls at once, and the latch holds them low. R134 has no row for it: an enabled or
discharging channel discharges to OFF, a waiting one and one in BACKOFF go to OFF and keep RETRY_N, FAILED and SENSE_FAULT stay (log
entry 18). -/
def State.thermTrip (s : State) : State :=
  let cut := s.enMask
  let t := (channels.filter s.railUsed).foldl (fun t n =>
    let st := t.railSt n
    if st = RailSt.OFF then t.setRail n { t.rail n with wanted := false }
    else
      let u := t.wr (Reg.RAIL_STA.CAUSE n) Cause.THERMTRIP
      if (t.rail n).en ∨ st = RailSt.DISCHARGE then u.dropRail n RailSt.OFF false
      else if st = RailSt.FAILED ∨ st = RailSt.SENSE_FAULT then u.setRail n { t.rail n with wanted := false }
      else (u.setRailSt n RailSt.OFF).setRail n { t.rail n with wanted := false }) s
  let t := (t.wrb Reg.SUP_STA.THERMTRIP true).raise 2 7
  ((t.history 3 0xFF Cause.THERMTRIP 0 cut 0 0 0).lastStatus 2 Code.POWER).settleRails

/-- Compute runs: powered, not cut by the Vault's store sequence, not held in reset, its clocks running (R47, R91, R120, R277). -/
def State.computeOn (s : State) : Bool :=
  s.computePowered && !s.on Reg.VLT_STA.COMPUTE_CUT && !s.on Reg.SUP_STA.RESET_REQ && !s.clkStopped

/-- The store cut (R125): no fault, no reaction, no retries. -/
def State.storeCut (s : State) : State := s.powerDown (s.groupMask (s.rd Reg.SUP_COMPUTE_GRP.GROUPS))

end Sys2Proof.Machine
end

