-- ==== Sys2Proof/Machine/MemOps.lean ====
section
/-!
DEFINITION. Which units and memory a part has, and device memory: the address map, lines and words with their poison, extents read
and written for ops, the error log, banks and wipes (R33-R38, R71-R74, R487-R517).
-/
namespace Sys2Proof.Machine

/-! Presence (R33-R38, R49). -/

def State.stackPresent (s : State) (k : Nat) : Bool := decide (k < 8) && bit (s.rd Reg.GLB_STACK_MAP.PRESENT) k
def State.stackFaulted (s : State) (k : Nat) : Bool := bit (s.rd Reg.GLB_STACK_MAP.FAULT) k
def State.portPresent (s : State) (p : Nat) : Bool := decide (p < 18) && bit (s.rd Reg.GLB_PORT_MAP.PRESENT) p
def State.updPresent (s : State) : Bool := s.on Reg.GLB_UNIT_MAP.UPD_A
def State.lscPresent (s : State) : Bool := s.on Reg.GLB_UNIT_MAP.LSC
def State.mntPresent (s : State) : Bool := s.on Reg.GLB_UNIT_MAP.MNT_A

/-- The page belongs to a unit that the unit-disable row removes (R38). -/
def State.pageAbsent (s : State) (pg : Nat) : Bool :=
  match pageKind pg with
  | some (.hmc, k) => !s.stackPresent k
  | some (.fpt, p) => !s.portPresent p
  | some (.mnt, h) => if h = 0 then !s.on Reg.GLB_UNIT_MAP.MNT_A else !s.on Reg.GLB_UNIT_MAP.MNT_B
  | some (.upd, h) => if h = 0 then !s.on Reg.GLB_UNIT_MAP.UPD_A else !s.on Reg.GLB_UNIT_MAP.UPD_B
  | some (.lsc, _) => !s.lscPresent
  | _ => false

/-- A write to a page of an absent unit (R38, R56). -/
def State.absentWrite (s : State) (pg : Nat) : State :=
  ((s.wr Reg.GLB_ABSENT_LOG.PAGE pg).count Reg.GLB_ABSENT_LOG.COUNT 1).raise 0 0

/-- The unit of a page lies on a compute die, or the page is an ACT page (R91). -/
def computePage (pg : Nat) : Bool :=
  match pageKind pg with
  | some (k, _) =>
    match k with
    | .act | .dsp | .til | .bnk | .mte | .hmc | .mpu | .fol | .dlk | .fpt | .col | .mnt | .upd => true
    | _ => false
  | none => false

/-! The address map (R71-R74). -/

/-- Where an address lies. -/
inductive Place where
  /-- HBM of a half: offset within it. -/
  | hbm (half off : Nat)
  /-- A scratchpad bank of a half: bank and offset within it. -/
  | bank (half index off : Nat)
  | outside
deriving DecidableEq, Repr

def hbmBase (half : Nat) : Nat := half * 0x003000000000
def bankBase (half : Nat) : Nat := 0x1000000000000 + half * 0x8000000

/-- The range of R71 that holds an address. -/
def placeOf (a : Nat) : Place :=
  if a < 0x003000000000 then .hbm 0 a
  else if a < 0x006000000000 then .hbm 1 (a - 0x003000000000)
  else if 0x1000000000000 ≤ a ∧ a < 0x1000006000000 then .bank 0 ((a - 0x1000000000000) / 0x200000) ((a - 0x1000000000000) % 0x200000)
  else if 0x1000008000000 ≤ a ∧ a < 0x100000E000000 then .bank 1 ((a - 0x1000008000000) / 0x200000) ((a - 0x1000008000000) % 0x200000)
  else .outside

/-- HBM of a half in GiB (GLB_MEM_SIZE). -/
def State.halfGib (s : State) (half : Nat) : Nat := if half = 0 then s.rd Reg.GLB_MEM_SIZE.HALF_A_GIB else s.rd Reg.GLB_MEM_SIZE.HALF_B_GIB

/-- HBM of a half in bytes. -/
def State.halfBytes (s : State) (half : Nat) : Nat := s.halfGib half * 2 ^ 30

/-- What test 3 of R84 and R74 say of an extent: BOUNDS outside the ranges of R71, ABSENT when it touches absent memory. -/
def State.extentCode (s : State) (a n : Nat) : Nat :=
  match placeOf a, placeOf (a + n - 1) with
  | .hbm h o, .hbm h' _ =>
    if h ≠ h' then (if s.halfBytes 0 = 2 ^ 30 * 192 then Code.OK else Code.ABSENT)
    else if s.halfBytes h < o + n then Code.ABSENT else Code.OK
  | .bank h .., .bank h' .. => if h = h' then Code.OK else Code.BOUNDS
  | _, _ => Code.BOUNDS

/-- The half an address belongs to (R26). -/
def homeHalf (a : Nat) : Nat :=
  match placeOf a with
  | .hbm h _ => h
  | .bank h _ _ => h
  | .outside => 0

/-- The present stacks of a half in ascending number (R73). -/
def State.halfStacks (s : State) (half : Nat) : List Nat := (List.range 4).filterMap fun i =>
  if s.stackPresent (4 * half + i) then some (4 * half + i) else none

/-- The stack that holds an HBM address (R73). -/
def State.stackOf (s : State) (half off : Nat) : Option Nat :=
  let l := s.halfStacks half
  if l.isEmpty then none else l[(off / 256) % l.length]?

/-- The device address of the `i`-th line of a stack in scrub order: ascending P across its pseudo-channels (R488, R502). -/
def State.scrubAddr (s : State) (stack i : Nat) : Nat :=
  let half := stack / 4
  let l := s.halfStacks half
  let p := i / 64 * 64
  let sOff := ((p / 256) * 64 + i % 64) * 256 + p % 256
  hbmBase half + ((sOff / 256) * l.length + (l.findIdx (· == stack))) * 256 + sOff % 256

/-- The first byte of the firmware region of a half (R202): its highest 512 MiB. -/
def State.fwRegion (s : State) (half : Nat) : Nat := hbmBase half + s.halfBytes half - 0x20000000

/-- An extent meets a firmware region. -/
def State.meetsFw (s : State) (a n : Nat) : Bool :=
  [0, 1].any fun h => decide (a < s.fwRegion h + 0x20000000) && decide (s.fwRegion h < a + n)

/-- An extent lies within one half's HBM. -/
def State.inOneHbm (s : State) (a n : Nat) : Bool :=
  [0, 1].any fun h => decide (hbmBase h ≤ a) && decide (a + n ≤ hbmBase h + s.halfBytes h)

/-! Secure banks and bank state (R510, R511). -/

def State.secureCount (s : State) (half : Nat) : Nat := s.rd (Reg.BNK_SECURE.COUNT half)
/-- The secure bank region of a half as a mask of banks. -/
def State.secureMask (s : State) (half : Nat) : Nat := 2 ^ 48 - 2 ^ (48 - s.secureCount half)
def State.isSecure (s : State) (half b : Nat) : Bool := bit (s.secureMask half) b

/-- An extent in the scratchpad touches a secure bank. -/
def State.touchesSecure (s : State) (a n : Nat) : Bool :=
  match placeOf a with
  | .bank h b o => n ≠ 0 && (List.range 48).any fun i => decide (b ≤ i) && decide (i ≤ b + (o + n - 1) / 0x200000) && s.isSecure h i
  | _ => false

/-- The banks that bits of ACT_SECURE name under a count (R511). -/
def secureShare (count bitsK : Nat) : Nat := maskOf (fun b => decide (48 - count ≤ b) && bit bitsK (b - (48 - count))) 48

/-- BNK_PWR_STA of a bank: 0 ON, 1 RETAIN, 2 OFF, 3 WAKING. -/
def State.bankSta (s : State) (half b : Nat) : Nat := bits (s.rd (Reg.BNK_PWR_STA.STATE half (b / 16))) (2 * (b % 16)) 2
def State.bankReq (s : State) (half b : Nat) : Nat := bits (s.rd (Reg.BNK_PWR_REQ.REQ half (b / 16))) (2 * (b % 16)) 2
def State.setBankSta (s : State) (half b v : Nat) : State :=
  let f := Reg.BNK_PWR_STA.STATE half (b / 16)
  s.wr f (s.rd f - bits (s.rd f) (2 * (b % 16)) 2 * 2 ^ (2 * (b % 16)) + v % 4 * 2 ^ (2 * (b % 16)))

def State.bankFaulted (s : State) (half b : Nat) : Bool := bit (s.rd (Reg.BNK_FAULT.MASK half)) b
def State.bankWiping (s : State) (half b : Nat) : Bool := bit (s.rd (Reg.BNK_WIPING.MASK half)) b
def State.bankOffline (s : State) (half b : Nat) : Bool := bit (s.rd (Reg.BNK_OFFLINE.MASK half)) b

/-- Set or clear bank faults; STA.FAULT of the page follows them (R526). -/
def State.setBankFault (s : State) (half mask : Nat) : State :=
  let t := s.wr (Reg.BNK_FAULT.MASK half) mask
  if mask = 0 then t.faultIs (0x140 + half) false else t.setFault (0x140 + half)

/-- The page of the engine that an engine SRAM set belongs to: 0 FOL, 1 COL, 2 MNT, 3 UPD, 4 DSP. -/
def enginePage (half index : Nat) : Nat :=
  if index = 0 then 0x1C0 + half else if index = 1 then 0x280 + half else if index = 2 then 0x2A0 + half
  else if index = 3 then 0x2B0 + half else 0x80 + half

/-- The fault of a march target is set or cleared: a tile (kind 0), a bank (1), an engine's SRAM set (2) (R520). -/
def State.setTargetFault (s : State) (half kind index : Nat) (b : Bool) : State :=
  if kind = 1 then s.setBankFault half (setBit (s.rd (Reg.BNK_FAULT.MASK half)) index b)
  else
    let pg := if kind = 0 then 0x100 + index else enginePage half index
    if b then s.setFault pg
    else
      let t := s.faultIs pg false
      if kind = 0 ∧ s.on (Reg.STA.FAULT pg) then
        (t.wrb (Reg.CTL.ENABLE pg) true).wrb (Reg.TIL_STA.IN_POOL index) (decide (t.rd (Reg.TIL_STA.STATE index) = 0))
      else t

/-! Poison and storage (R492-R498, R508). -/

/-- Whether the line or word that holds an address is poisoned. -/
def State.poisoned (s : State) (a : Nat) : Bool :=
  match placeOf a with
  | .hbm .. => tblGet false s.poisonLine (a / 64)
  | .bank .. => tblGet false s.poisonWord (a / 8)
  | .outside => false

/-- The unit of storage an address belongs to: a line of HBM, a word of a bank. -/
def grain (a : Nat) : Nat :=
  match placeOf a with
  | .bank .. => 8
  | _ => 64

def State.setPoison (s : State) (a : Nat) (b : Bool) : State :=
  match placeOf a with
  | .hbm .. => { s with poisonLine := tblSet false s.poisonLine (a / 64) b }
  | .bank .. => { s with poisonWord := tblSet false s.poisonWord (a / 8) b }
  | .outside => s

/-- Store bytes of device memory; no protection is applied. -/
def State.store (s : State) (a : Nat) (bs : List Byte) : State := { s with mem := storeBytes s.mem a bs }

/-- The bytes of device memory; no protection is applied. -/
def State.load (s : State) (a n : Nat) : List Byte := bytesAt s.mem a n

/-- Zero a range and clear its poison (R190, R396, R515). -/
def State.zeroRange (s : State) (a n : Nat) : State :=
  { s with mem := zeroBytes s.mem a n
           poisonLine := s.poisonLine.filter fun e => !(decide (a ≤ e.1 * 64) && decide (e.1 * 64 < a + n))
           poisonWord := s.poisonWord.filter fun e => !(decide (a ≤ e.1 * 8) && decide (e.1 * 8 < a + n)) }

/-- The stack of an address is faulted (R489), or its bank is (R515). -/
def State.storageFaulted (s : State) (a : Nat) : Bool :=
  match placeOf a with
  | .hbm h o => match s.stackOf h o with | some k => s.stackFaulted k | none => true
  | .bank h b _ => s.bankFaulted h b
  | .outside => true

/-- The starting addresses of the lines or words that an extent touches. -/
def grains (a n : Nat) : List Nat :=
  if n = 0 then [] else (List.range ((a + n - 1) / grain a - a / grain a + 1)).map fun i => (a / grain a + i) * grain a

/-- The first line or word at which reading an extent fails: code and line address (R489, R501). -/
def State.readFault (s : State) (a n : Nat) : Option (Nat × Nat) :=
  (grains a n).findSome? fun g =>
    if s.storageFaulted g then some (Code.UNCORRECTABLE, g / 64 * 64)
    else if s.poisoned g then some (Code.POISON, g / 64 * 64) else none

/-- The first line or word at which writing an extent fails: a faulted place, or a partial write onto poison (R498). -/
def State.writeFault (s : State) (a n : Nat) : Option (Nat × Nat) :=
  (grains a n).findSome? fun g =>
    if s.storageFaulted g then some (Code.UNCORRECTABLE, g / 64 * 64)
    else if s.poisoned g && !(decide (a ≤ g) && decide (g + grain a ≤ a + n)) then some (Code.POISON, g / 64 * 64) else none

/-- Clear the poison of the lines or words that an extent covers whole (R496). -/
def State.clearCovered (s : State) (a n : Nat) : State :=
  (grains a n).foldl (fun t g => if decide (a ≤ g) && decide (g + grain a ≤ a + n) then t.setPoison g false else t) s

/-- Write an extent that no line refuses. -/
def State.writeExtent (s : State) (a : Nat) (bs : List Byte) : State := (s.clearCovered a bs.length).store a bs

/-- An output extent whose content is undefined (R476, R501): each byte on a place that is not faulted and not a poisoned line kept
whole takes a free value, and whether a covered poisoned line was rewritten is free. -/
def State.scribble (s : State) (a n : Nat) : State :=
  let bs := s.freeBytes n
  let keep := (List.range n).map fun i => !s.storageFaulted (a + i) && !s.poisoned (a + i)
  { s with mem := storeMasked s.mem a bs keep, free := s.free + n }

/-! The error log (R504). -/

abbrev Err.UNCORRECTABLE_READ : Nat := 0
abbrev Err.POISON_READ : Nat := 1
abbrev Err.RMW_POISONED : Nat := 2
abbrev Err.SCRUB_POISONED : Nat := 3

/-- The fields LEVEL and LOST of an error FIFO, by page. -/
def errLevel (pg : Nat) : Fld := if 0x180 ≤ pg then Reg.HMC_ERR_STA.LEVEL (pg - 0x180) else Reg.BNK_ERR_STA.LEVEL (pg - 0x140)
def errLost (pg : Nat) : Fld := if 0x180 ≤ pg then Reg.HMC_ERR_STA.LOST (pg - 0x180) else Reg.BNK_ERR_STA.LOST (pg - 0x140)

/-- An entry of the error log. -/
def errEntry (a kind source acct : Nat) : DWord :=
  BitVec.ofNat 64 (a / 64 % 2 ^ 46 + kind % 4 * 2 ^ 48 + source % 16 * 2 ^ 52 + acct % 32 * 2 ^ 56 + 2 ^ 63)

/-- Log an error on a page: a full FIFO drops it and counts it. -/
def State.logErr (s : State) (pg a kind source acct : Nat) : State :=
  let l := tblGet [] s.errFifo pg
  if l.length < 16 then
    ({ s with errFifo := tblSet [] s.errFifo pg (l ++ [errEntry a kind source acct]) } : State).wr (errLevel pg) (l.length + 1)
  else
    let t := s.count (errLost pg) 1
    if 0x180 ≤ pg then t.raise pg 4 else t

abbrev Source.TILE : Nat := 0
abbrev Source.ENGINE : Nat := 1
abbrev Source.PCIE : Nat := 2
abbrev Source.FABRIC : Nat := 3

/-- An access that found poison at a line, for a read or for a partial write (`rmw`), is counted and logged (R493, R498, R508). -/
def State.notePoison (s : State) (a : Nat) (rmw : Bool) (source acct : Nat) : State :=
  let kind := if rmw then Err.RMW_POISONED else Err.POISON_READ
  match placeOf a with
  | .hbm h o => match s.stackOf h o with
    | some k => (s.count (Reg.HMC_POISON_CNT.READS k) 1).logErr (0x180 + k) a kind source acct
    | none => s
  | .bank h _ _ => (s.count (Reg.BNK_POISON.READS h) 1).logErr (0x140 + h) a kind source acct
  | .outside => s

/-- What a failing access leaves in the counters and the log: a code and the line. -/
def State.noteFault (s : State) (f : Nat × Nat) (rmw : Bool) (source acct : Nat) : State :=
  if f.1 = Code.POISON then s.notePoison f.2 rmw source acct else s

/-- An HBM line or bank word becomes poisoned with zero data (R493, R508). -/
def State.makePoison (s : State) (a : Nat) : State := (s.store a (zeros (grain a))).setPoison a true

/-! Wipes (R513-R517). -/

def State.wiping (s : State) (half : Nat) : Nat := tblGet 0 s.wipeVerify half ||| tblGet 0 s.wipeFill half

/-- Zero the banks of a mask. -/
def State.zeroBanks (s : State) (half mask : Nat) : State :=
  ((List.range 48).filter (bit mask)).foldl (fun t b => t.zeroRange (bankBase half + b * 0x200000) 0x200000) s

/-- Ops not complete when a wipe starts remember the banks wiped under them (R515). -/
def State.markWiped (s : State) (half mask : Nat) : State :=
  { s with ops := s.ops.map fun o =>
      if half = 0 then { o with wipedA := o.wipedA ||| mask } else { o with wipedB := o.wipedB ||| mask } }

/-- Start a verified wipe of banks; banks already in a wipe merge into it (R515, R534). -/
def State.startWipe (s : State) (half mask : Nat) : State :=
  if mask = 0 then s
  else
    let t := (s.zeroBanks half mask).markWiped half mask
    let t := { t with wipeVerify := tblSet 0 t.wipeVerify half (tblGet 0 t.wipeVerify half ||| mask) }
    t.wr (Reg.BNK_WIPING.MASK half) (t.wiping half)

/-- Start the zero-fill of ordinary banks (R391, R393): shown in BNK_WIPING, without a BNK event. -/
def State.startFill (s : State) (half mask : Nat) : State :=
  if mask = 0 then s
  else
    let t := s.zeroBanks half mask
    let t := { t with wipeFill := tblSet 0 t.wipeFill half (tblGet 0 t.wipeFill half ||| mask) }
    t.wr (Reg.BNK_WIPING.MASK half) (t.wiping half)

/-- The whole secure region of both halves is wiped (R513). -/
def State.wipeSecure (s : State) : State := (s.startWipe 0 (s.secureMask 0)).startWipe 1 (s.secureMask 1)

/-- Put a bank that an access woke, or a request turned on, into ON; a wake from OFF zero-fills it and sets WAKE_DONE (R510). -/
def State.bankOn (s : State) (half b : Nat) : State :=
  if s.bankSta half b = 2 ∨ (s.bankSta half b = 3 ∧ tblGet false s.wakeOff (48 * half + b)) then
    let t := (s.zeroRange (bankBase half + b * 0x200000) 0x200000).setBankSta half b 0
    ({ t with wakeOff := tblSet false t.wakeOff (48 * half + b) false } : State).raise (0x140 + half) 6
  else s.setBankSta half b 0

end Sys2Proof.Machine
end

