-- ==== Sys2Proof/Machine/Memory.lean ====
section
/-!
DEFINITION. The commands of the memory chapter (R487-R538): HBM lines, scrub, the error log, banks and their power, wipes, the march
test engine.
-/
namespace Sys2Proof.Machine

abbrev Result := Host.Outcome State Fault Refusal

/-! HBM lines. -/

/-- The stack of an HBM address. -/
def State.stackAt (s : State) (a : Nat) : Option Nat :=
  match placeOf a with
  | .hbm h o => s.stackOf h o
  | _ => none

/-- LAST_STATUS of an account's ACT page becomes POISON after an inbound access that cannot be reported (R376, R499). -/
def State.pciePoison (s : State) (source acct : Nat) : State := if source = 2 then s.lastStatus (0x40 + acct) Code.POISON else s

/-- A read or read-modify-write decodes a line with `symErr` symbols in error (R493, R498): the state after it and whether the line
gives data. `kind` is the error log kind of an uncorrectable or poisoned line. -/
def State.decodeLine (s : State) (stack a source acct symErr kindBad kindPoison : Nat) : State × Bool :=
  let pg := 0x180 + stack
  if s.poisoned a then
    (((s.count (Reg.HMC_POISON_CNT.READS stack) 1).logErr pg a kindPoison source acct), false)
  else if symErr = 0 then (s, true)
  else if symErr = 1 then ((s.count (Reg.HMC_ECC_CNT.CORR stack) 1).raise pg 0, true)
  else
    let t := ((s.makePoison (a / 64 * 64)).count (Reg.HMC_ECC_CNT.UNCORR stack) 1).count (Reg.HMC_POISON_CNT.MADE stack) 1
    ((t.raise pg 1).logErr pg a kindBad source acct, false)

/-- A read of one HBM line (R493). -/
def State.hbmRead (s : State) (a source acct symErr : Nat) : State :=
  match s.stackAt a with
  | none => s
  | some k =>
    if s.stackFaulted k then s.emit (.memFail a Code.UNCORRECTABLE)
    else
      let line := a / 64 * 64
      let r := s.decodeLine k line source acct symErr Err.UNCORRECTABLE_READ Err.POISON_READ
      if r.2 then r.1.emit (.memData line (r.1.load line 64)) else (r.1.pciePoison source acct).emit (.memFail line Code.POISON)

/-- A write that enables all 64 bytes of a line (R496). -/
def State.hbmFullWrite (s : State) (a : Nat) (bs : List Byte) : State :=
  match s.stackAt a with
  | none => s
  | some k =>
    let line := a / 64 * 64
    if s.stackFaulted k then s.emit (.memFail line Code.UNCORRECTABLE)
    else (s.store line (padTo 64 bs)).setPoison line false

/-- Any other write of a line, as a read-modify-write under the line lock (R497, R498). -/
def State.hbmPartialWrite (s : State) (a source acct symErr : Nat) (bs : List Byte) (be : List Bool) : State :=
  match s.stackAt a with
  | none => s
  | some k =>
    let line := a / 64 * 64
    if s.stackFaulted k then s.emit (.memFail line Code.UNCORRECTABLE)
    else
      let r := s.decodeLine k line source acct symErr Err.RMW_POISONED Err.RMW_POISONED
      if r.2 then { r.1 with mem := storeMasked r.1.mem line (bs.take 64) be }
      else (r.1.pciePoison source acct).emit (.memFail line Code.POISON)

/-- The stack of an address retrains, so the access waits (R490). -/
def State.stackBusy (s : State) (a : Nat) : Bool :=
  match s.stackAt a with
  | some k => s.on (Reg.HMC_STA.RETRAINING k)
  | none => false

/-- Put an access behind the retrain of its stack. -/
def State.holdHbm (s : State) (c : Instr) : State := { s with hbmWait := s.hbmWait ++ [(s.uptime, c)] }

/-- Run an access held for a stack. -/
def State.runHeld (s : State) : Instr → State
  | .hbmRead a src acct e => s.hbmRead a src acct e
  | .hbmFullWrite a bs => s.hbmFullWrite a bs
  | .hbmPartialWrite a src acct e bs be => s.hbmPartialWrite a src acct e bs be
  | _ => s

/-- With the compute dies off or cut, their memory holds nothing: a read returns free bytes and a write stores nothing (R277). -/
def State.lostRead (s : State) (a n : Nat) : State := (s.emit (.memData a (s.freeBytes n))).skipFree n

def execHbmRead (addr source acct symErr : Nat) (s : State) : Result :=
  .next (if !s.computeOn then s.lostRead (addr / 64 * 64) 64
    else if s.stackBusy addr then s.holdHbm (.hbmRead addr source acct symErr) else s.hbmRead addr source acct symErr)

def execHbmFullWrite (addr : Nat) (bytes : List Byte) (s : State) : Result :=
  .next (if !s.computeOn then s
    else if s.stackBusy addr then s.holdHbm (.hbmFullWrite addr bytes) else s.hbmFullWrite addr bytes)

def execHbmPartialWrite (addr source acct symErr : Nat) (bytes : List Byte) (be : List Bool) (s : State) : Result :=
  .next (if !s.computeOn then s
    else if s.stackBusy addr then s.holdHbm (.hbmPartialWrite addr source acct symErr bytes be)
    else s.hbmPartialWrite addr source acct symErr bytes be)

/-! Transfers, retrains and faults of a stack (R490, R491). -/

/-- A command or data transfer fails the stack's link protection for the `tries + 1`-th time: it is retried up to three times, and the
fourth failure starts a retrain. -/
def execHbmXferRetry (stack tries : Nat) (s : State) : Result :=
  .next (
    if !s.stackPresent stack ∨ !s.computeOn ∨ s.stackFaulted stack ∨ s.on (Reg.HMC_STA.RETRAINING stack) then s
    else if tries < 3 then s.count (Reg.HMC_XFER_CNT.RETRIES stack) 1
    else ((s.wrb (Reg.HMC_STA.RETRAINING stack) true).count (Reg.HMC_XFER_CNT.RETRAINS stack) 1).raise (0x180 + stack) 2)

/-- A stack faults (R490): every access held for it completes by R489. -/
def State.faultStack (s : State) (stack cause : Nat) : State :=
  let t := ((s.wrb (Reg.HMC_STA.STACK_FAULT stack) true).wr (Reg.HMC_STA.CAUSE stack) cause).wrb (Reg.HMC_STA.RETRAINING stack) false
  let t := (t.wrb (Reg.HMC_STA.TRAINED stack) false).wr Reg.GLB_STACK_MAP.FAULT (setBit (t.rd Reg.GLB_STACK_MAP.FAULT) stack true)
  (t.setFault (0x180 + stack)).raise (0x180 + stack) 3

/-- The accesses held for a stack complete in their order. -/
def State.releaseHbm (s : State) (stack : Nat) : State :=
  let mine (c : Nat × Instr) : Bool :=
    match c.2 with
    | .hbmRead a .. => s.stackAt a = some stack
    | .hbmFullWrite a _ => s.stackAt a = some stack
    | .hbmPartialWrite a .. => s.stackAt a = some stack
    | _ => false
  ((s.hbmWait.filter mine).map (·.2)).foldl State.runHeld { s with hbmWait := s.hbmWait.filter fun c => !mine c }

def execHbmRetrainDone (stack : Nat) (ok : Bool) (s : State) : Result :=
  .next (
    if !s.stackPresent stack ∨ !s.computeOn ∨ !s.on (Reg.HMC_STA.RETRAINING stack) then s
    else ((if ok then s.wrb (Reg.HMC_STA.RETRAINING stack) false else s.faultStack stack 2).releaseHbm stack))

def execStackFault (stack : Nat) (s : State) : Result :=
  .next (if !s.stackPresent stack ∨ !s.computeOn ∨ s.stackFaulted stack then s else (s.faultStack stack 3).releaseHbm stack)

/-- Refresh delays accesses and changes nothing else (R491). -/
def execHbmRefresh (_stack : Nat) (s : State) : Result := .next s

/-- Lines of one stack: 48 GiB. -/
def stackLines : Nat := 805306368

/-- Patrol scrub reads the next line of a stack (R502). -/
def execScrubLine (stack symErr : Nat) (s : State) : Result :=
  .next (
    if !s.stackPresent stack ∨ !s.computeOn ∨ s.stackFaulted stack ∨ s.on (Reg.HMC_STA.RETRAINING stack) ∨ s.rd (Reg.HMC_SCRUB_CFG.PERIOD_H stack) = 0 then s
    else
      let i := tblGet 0 s.scrubPos stack
      let a := s.scrubAddr stack i
      let t := if s.poisoned a then s.count (Reg.HMC_POISON_CNT.READS stack) 1
        else (s.decodeLine stack a 4 0 symErr Err.SCRUB_POISONED Err.SCRUB_POISONED).1
      let n := if i + 1 = stackLines then 0 else i + 1
      let t := { t with scrubPos := tblSet 0 t.scrubPos stack n }
      let t := t.wr (Reg.HMC_SCRUB_STA.PERMILLE stack) (n * 1000 / stackLines)
      if n = 0 then t.countWrap (Reg.HMC_SCRUB_STA.PASSES stack) 1 else t)

/-- The on-die ECC status of a stack, read every second (R487). -/
def execOdeccPoll (stack count : Nat) (s : State) : Result :=
  .next (if s.stackPresent stack ∧ s.computeOn ∧ !s.stackFaulted stack then s.countWrap (Reg.HMC_ODECC.COUNT stack) count else s)

/-! The error log (R504). -/

/-- A read of ERR_ENTRY removes the oldest entry; a 32-bit read of its low half latches the high half (R67); on an absent page it reads 0
(R38). -/
def execErrEntryRead (page size : Nat) (s : State) : Result :=
  .next (
    if !((0x180 ≤ page ∧ page < 0x188) ∨ page = 0x140 ∨ page = 0x141) then s
    else
      let off := page * 0x1000 + (if 0x180 ≤ page then 0x58 else 0x88)
      match (if s.pageAbsent page then [] else tblGet [] s.errFifo page) with
      | [] => if size = 8 then s.emit (.regRead off 0) else (s.emit (.regRead off 0)).latch 0 off 0
      | e :: rest =>
        let t := ({ s with errFifo := tblSet [] s.errFifo page rest } : State).wr (errLevel page) rest.length
        if size = 8 then t.emit (.regRead off e.toNat)
        else (t.emit (.regRead off (e.toNat % 2 ^ 32))).latch 0 off (BitVec.ofNat 32 (e.toNat / 2 ^ 32)))

/-! Bank words and bank power (R508-R510, R515, R521). -/

/-- An access to a word of a bank that is ON and in service (R508). -/
def State.bankWord (s : State) (x : BankAccess) : State :=
  let pg := 0x140 + x.half
  let a := x.addr / 8 * 8
  let whole := match x.wr with | some (_, be) => decide (8 ≤ be.length) && (be.take 8).all id | none => false
  match x.wr, whole with
  | some (bs, _), true => (s.store a (padTo 8 bs)).setPoison a false
  | wr, _ =>
    let kind := if wr.isSome then Err.RMW_POISONED else Err.POISON_READ
    let kindBad := if wr.isSome then Err.RMW_POISONED else Err.UNCORRECTABLE_READ
    if s.poisoned a then
      (((s.count (Reg.BNK_POISON.READS x.half) 1).logErr pg a kind x.source x.acct).pciePoison x.source x.acct).emit (.memFail a Code.POISON)
    else if 2 ≤ x.bitErr then
      let t := ((s.makePoison a).count (Reg.BNK_ECC.UNCORR x.half) 1).count (Reg.BNK_POISON.MADE x.half) 1
      (((t.raise pg 5).logErr pg a kindBad x.source x.acct).pciePoison x.source x.acct).emit (.memFail a Code.POISON)
    else
      let t := if x.bitErr = 1 then (s.count (Reg.BNK_ECC.CORR x.half) 1).raise pg 4 else s
      match wr with
      | some (bs, be) => { t with mem := storeMasked t.mem a (bs.take 8) be }
      | none => t.emit (.memData a (t.load a 8))

/-- An access reaches a bank: refused, made to wait, or served. -/
def State.bankAccess (s : State) (x : BankAccess) : State :=
  match placeOf x.addr with
  | .bank h b _ =>
    if s.bankFaulted h b then s.emit (.memFail x.addr Code.UNCORRECTABLE)
    else if s.isSecure h b ∧ s.on (Reg.BNK_TAMPER.LATCHED h) then s.emit (.memFail x.addr Code.PERMISSION)
    else if s.bankWiping h b ∨ s.bankOffline h b ∨ s.bankSta h b = 3 then { s with bankWait := s.bankWait ++ [x] }
    else if s.bankSta h b ≠ 0 then
      let t := { s with bankWait := s.bankWait ++ [x], woken := tblSet false s.woken (48 * h + b) true
                        wakeOff := tblSet false s.wakeOff (48 * h + b) (s.bankSta h b = 2) }
      t.setBankSta h b 3
    else s.bankWord x
  | _ => s

/-- An access waits for a bank. -/
def BankAccess.isFor (x : BankAccess) (half b : Nat) : Bool :=
  match placeOf x.addr with
  | .bank h i _ => h = half && i = b
  | _ => false

/-- The accesses that waited for a bank run in their order. -/
def State.releaseBank (s : State) (half b : Nat) : State :=
  (s.bankWait.filter fun x => x.isFor half b).foldl State.bankAccess { s with bankWait := s.bankWait.filter fun x => !x.isFor half b }

/-- The accesses that waited for banks of a mask run. -/
def State.releaseBanks (s : State) (half mask : Nat) : State :=
  ((List.range 48).filter (bit mask)).foldl (fun t b => t.releaseBank half b) s

def execBankAccess (half addr source acct bitErr : Nat) (wr : Option (List Byte × List Bool)) (s : State) : Result :=
  .next (if s.computeOn then s.bankAccess ⟨s.uptime, half, addr, source, acct, bitErr, wr⟩
    else if wr.isSome then s else s.lostRead (addr / 8 * 8) 8)

/-- The new BNK_PWR_REQ value: a field that a write gives the reserved encoding 3 keeps its old value (R18). -/
def mergePwrReq (old new : Nat) : Nat :=
  (List.range 16).foldl (fun v j => v + (if bits new (2 * j) 2 = 3 then bits old (2 * j) 2 else bits new (2 * j) 2) * 2 ^ (2 * j)) 0

/-- BNK_PWR_REQ takes a write of the PF or a clerk; a bank asked ON starts to wake (R510). -/
def State.bankPwrReq (s : State) (half i value : Nat) : State :=
  let f := Reg.BNK_PWR_REQ.REQ half i
  let v := mergePwrReq (s.rd f) value
  (List.range 16).foldl (fun t j =>
    let b := 16 * i + j
    if bits v (2 * j) 2 = 0 ∧ (t.bankSta half b = 1 ∨ t.bankSta half b = 2) then
      ({ t with wakeOff := tblSet false t.wakeOff (48 * half + b) (t.bankSta half b = 2) } : State).setBankSta half b 3
    else t) (s.wr f v)

def execBankPwrReq (req : Req) (half i value : Nat) (s : State) : Result :=
  .next (if s.direct req ∧ half < 2 ∧ i < 3 then s.bankPwrReq half i value else s)

/-- The requested RETAIN or OFF is reached once no access to the bank is in flight. -/
def execBankPwrReached (half bank : Nat) (s : State) : Result :=
  .next (
    if half < 2 ∧ bank < 48 ∧ s.computeOn ∧ s.bankReq half bank ≠ 0 ∧ s.bankSta half bank ≠ 3 ∧ !tblGet false s.woken (48 * half + bank)
        ∧ !(s.bankWait.any fun x => x.isFor half bank) then
      let t := if s.bankSta half bank = 2 ∧ s.bankReq half bank = 1 then s.zeroRange (bankBase half + bank * 0x200000) 0x200000 else s
      t.setBankSta half bank (s.bankReq half bank)
    else s)

def execBankWakeDone (half bank : Nat) (s : State) : Result :=
  .next (if half < 2 ∧ bank < 48 ∧ s.computeOn ∧ s.bankSta half bank = 3 then (s.bankOn half bank).releaseBank half bank else s)

/-- 100 µs without an access: a woken bank returns to its requested state. -/
def execBankIdleReturn (half bank : Nat) (s : State) : Result :=
  .next (
    if half < 2 ∧ bank < 48 ∧ s.computeOn ∧ tblGet false s.woken (48 * half + bank) ∧ s.bankSta half bank = 0 then
      ({ s with woken := tblSet false s.woken (48 * half + bank) false } : State).setBankSta half bank (s.bankReq half bank)
    else s)

/-! Wipes (R513-R516, R534). -/

/-- TAMPER_N low for 1 µs (R516). -/
def execTamper (s : State) : Result :=
  .next (
    let t := ((s.wrb (Reg.BNK_TAMPER.LEVEL 0) false).wrb (Reg.BNK_TAMPER.LEVEL 1) false)
    let t := ((t.wrb (Reg.BNK_TAMPER.LATCHED 0) true).wrb (Reg.BNK_TAMPER.LATCHED 1) true).wipeSecure
    ((t.raise 0x140 2).raise 0x141 2).logSec Level.ERROR SecLog.TAMPER 0 0 0)

/-- The supply glitch detector of a compute die fires (R514). -/
def execSupplyGlitch (half : Nat) (s : State) : Result :=
  .next (
    if half < 2 then
      ((((s.wipeSecure).count (Reg.BNK_TAMPER.GLITCH_V half) 1).raise (0x140 + half) 3).logSec Level.ERROR SecLog.TAMPER 1 half 0)
    else s)

/-- After the wipe of a lifecycle transition: the 32 account areas are zeroed, their headers rewritten as empty, and a LIFECYCLE store
requested (R162, R265). -/
def State.lcWiped (s : State) : State :=
  if s.lcRun.phase = .wipe ∧ s.wiping 0 = 0 ∧ s.wiping 1 = 0 then
    let t := s.zeroAreas
    let t := { t with lcRun := { t.lcRun with phase := .store } }
    (t.requestStore 2 [if t.lcRun.bmc then .lcBmc else .lcJezama]).1
  else s

/-- A wipe or zero-fill of a half ends; `badMask` names the banks with a word that does not decode as clean zero (R515). -/
def State.wipeDone (s : State) (half badMask : Nat) : State :=
  let verify := tblGet 0 s.wipeVerify half
  let all := s.wiping half
  let bad := badMask &&& verify
  let t := { s with wipeVerify := tblSet 0 s.wipeVerify half 0, wipeFill := tblSet 0 s.wipeFill half 0 }
  let t := t.wr (Reg.BNK_WIPING.MASK half) 0
  let t := if bad = 0 then t else (t.setBankFault half (t.rd (Reg.BNK_FAULT.MASK half) ||| bad)).raise (0x140 + half) 1
  let t := if verify ≠ 0 ∧ bad = 0 then t.raise (0x140 + half) 0 else t
  (t.releaseBanks half all).lcWiped

def execWipeDone (half badMask : Nat) (s : State) : Result :=
  .next (if half < 2 ∧ s.wiping half ≠ 0 then s.wipeDone half badMask else s)

/-! Offline banks (R521). -/

/-- The bank a preserving run works on. -/
def State.mteBank (s : State) (half : Nat) : Option Nat :=
  let r := tblGet default s.mteRun half
  if s.rd (Reg.MTE_STA.STATE half) = 1 ∧ r.kind = 1 ∧ r.preserving then some r.index else none

/-- Banks whose offline request is withdrawn return to service, but for one under a preserving run. -/
def State.returnBanks (s : State) (half : Nat) : State :=
  let keep := maskOf (fun b => bit (s.rd (Reg.BNK_OFFLINE_REQ.MASK half)) b || s.mteBank half = some b) 48
  let back := maskOf (fun b => s.bankOffline half b && !bit keep b) 48
  (s.wr (Reg.BNK_OFFLINE.MASK half) (s.rd (Reg.BNK_OFFLINE.MASK half) - back)).releaseBanks half back

def execBankOfflineReq (req : Req) (half mask : Nat) (s : State) : Result :=
  .next (if s.direct req ∧ half < 2 then (s.wr (Reg.BNK_OFFLINE_REQ.MASK half) mask).returnBanks half else s)

def execBankOffline (half bank : Nat) (s : State) : Result :=
  .next (
    if half < 2 ∧ bank < 48 ∧ s.computeOn ∧ bit (s.rd (Reg.BNK_OFFLINE_REQ.MASK half)) bank ∧ !s.bankOffline half bank
        ∧ !(s.bankWait.any fun x => x.isFor half bank) then
      (s.wr (Reg.BNK_OFFLINE.MASK half) (setBit (s.rd (Reg.BNK_OFFLINE.MASK half)) bank true)).raise (0x140 + half) 7
    else s)

/-! The march test engine (R518-R523, R527). -/

/-- Some account's bank mask or secure share holds a bank. -/
def State.bankOwned (s : State) (half b : Nat) : Bool :=
  (List.range 32).any fun a =>
    bit (if half = 0 then s.rd (Reg.ACT_BANKS_A.MASK a) else s.rd (Reg.ACT_BANKS_B.MASK a)) b
      || bit (secureShare (s.secureCount half) (if half = 0 then s.rd (Reg.ACT_SECURE.A a) else s.rd (Reg.ACT_SECURE.B a))) b

/-- An engine of a half, or its dispatcher (index 4), has work in flight (R522). -/
def State.engineBusy (s : State) (half index : Nat) : Bool :=
  s.ops.any fun o => s.rd (Reg.RING_CFG.HALF (32 * o.acct + o.ring)) = half
    && (index = 4 || (o.phase ≠ .waiting && bits o.desc.toNat 8 8 = (if index = 0 then 2 else index + 3)))

/-- The refusal of R522; OK where the run starts. -/
def State.mteRefusal (s : State) (half kind index : Nat) (preserving : Bool) : Nat :=
  if s.rd (Reg.MTE_STA.STATE half) = 1 then Code.LIMIT
  else if kind = 3 then Code.FORMAT
  else if kind = 0 then
    if !(decide (24 * half ≤ index) && decide (index < 24 * half + 24)) then Code.ABSENT
    else if preserving then Code.FORMAT
    else if s.rd (Reg.TIL_STA.STATE index) = 2 ∧ !s.on (Reg.TIL_STA.IN_POOL index) ∧ !s.on (Reg.TIL_STA.CONTEXT_HELD index) then Code.OK
    else Code.LIMIT
  else if kind = 1 then
    if 48 ≤ index then Code.ABSENT
    else if preserving then (if s.bankOffline half index then Code.OK else Code.LIMIT)
    else if s.bankOwned half index ∨ s.bankWiping half index ∨ (s.isSecure half index ∧ s.on (Reg.BNK_TAMPER.LATCHED half)) then Code.LIMIT
    else Code.OK
  else
    if 5 ≤ index ∨ s.pageAbsent (enginePage half index) then Code.ABSENT
    else if preserving then Code.FORMAT
    else if s.on (Reg.CTL.ENABLE (enginePage half index)) ∨ s.engineBusy half index then Code.LIMIT
    else Code.OK

/-- The fields of MTE_CMD take a written value at any time; the reserved KIND 3 leaves KIND as it is (R16, R18). -/
def State.mteFields (s : State) (half value : Nat) : State :=
  let t := if bits value 0 2 = 3 then s else s.wr (Reg.MTE_CMD.KIND half) (bits value 0 2)
  ((t.wr (Reg.MTE_CMD.INDEX half) (bits value 8 6)).wr (Reg.MTE_CMD.MODE half) (bits value 16 1)).wr (Reg.MTE_CMD.REPAIR half) (bits value 17 1)

/-- A write of MTE_CMD by the PF or SEC; its START bit starts a run, with the values it finds, or is refused (R522, R527). -/
def State.mteStart (s : State) (half value : Nat) : State :=
  let t := s.mteFields half value
  if !bit value 31 then t
  else if s.rd (Reg.MTE_STA.STATE half) = 1 then
    ((t.wr (Reg.MTE_STA.CODE half) Code.LIMIT).lastStatus (0x142 + half) Code.LIMIT).raise (0x142 + half) 2
  else
    let code := t.mteRefusal half (bits value 0 2) (bits value 8 6) (bit value 16)
    if code ≠ Code.OK then
      (((t.wr (Reg.MTE_STA.STATE half) 5).wr (Reg.MTE_STA.CODE half) code).lastStatus (0x142 + half) code).raise (0x142 + half) 2
    else
      let u := ((t.wr (Reg.MTE_STA.STATE half) 1).wr (Reg.MTE_STA.CODE half) 0).wr (Reg.MTE_STA.FAIL_ROWS half) 0
      { u with mteLog := tblSet [] u.mteLog half [], mteRun := tblSet default u.mteRun half ⟨bits value 0 2, bits value 8 6, bit value 16, bit value 17⟩ }

def execMteStart (req : Req) (half value : Nat) (s : State) : Result :=
  .next (if ((s.pf req ∨ req = .sec) ∧ s.reqLive req) ∧ half < 2 ∧ !s.resetting (0x142 + half) then s.mteStart half value else s)

/-- A run ends (R518-R520): FAIL where failing rows stay unmapped, REPAIRED where every one got a spare, else PASS. -/
def State.mteDone (s : State) (half failRows free : Nat) (poisonedWords log : List Nat) : State :=
  let r := tblGet default s.mteRun half
  let kind := r.kind
  let index := r.index
  let preserving := r.preserving
  let log := if r.repair then log else []
  let st := if failRows = 0 then 2 else if log.length < failRows then 4 else 3
  let bankAddr := bankBase half + index * 0x200000
  let t := if kind = 1 ∧ !preserving then s.zeroRange bankAddr 0x200000 else s
  let bad := poisonedWords.filter fun a => kind = 1 && preserving && decide (bankAddr ≤ a) && decide (a < bankAddr + 0x200000)
  let t := bad.foldl (fun t a => t.makePoison (a / 8 * 8)) t
  let t := (t.wr (Reg.MTE_STA.STATE half) st).wr (Reg.MTE_STA.FAIL_ROWS half) failRows
  let t := ((t.wr (Reg.MTE_SPARES.FREE half) free).wr (Reg.MTE_POISONED.WORDS half) bad.length).count (Reg.BNK_POISON.MADE half) bad.length
  let t := { t with mteLog := tblSet [] t.mteLog half log, softRepairs := t.softRepairs ++ log }
  let t := (t.setTargetFault half kind index (st = 4)).raise (0x142 + half) 0
  (if st = 4 then t.raise (0x142 + half) 1 else t).returnBanks half

def execMteDone (half failRows free : Nat) (poisonedWords log : List Nat) (s : State) : Result :=
  .next (if half < 2 ∧ s.computeOn ∧ s.rd (Reg.MTE_STA.STATE half) = 1 then s.mteDone half failRows free poisonedWords log else s)

/-- A read of MTE_REPAIR_LOG removes its oldest entry (R523, R527). -/
def execRepairLogRead (half size : Nat) (s : State) : Result :=
  .next (
    if 2 ≤ half then s
    else
      let off := 0x142050 + 0x1000 * half
      match tblGet [] s.mteLog half with
      | [] => if size = 8 then s.emit (.regRead off 0) else (s.emit (.regRead off 0)).latch 0 off 0
      | e :: rest =>
        let t := { s with mteLog := tblSet [] s.mteLog half rest }
        if size = 8 then t.emit (.regRead off (e % 2 ^ 32 + 2 ^ 63))
        else (t.emit (.regRead off (e % 2 ^ 32))).latch 0 off 0x80000000)

end Sys2Proof.Machine
end

