-- ==== Sys2Proof/Machine/Checks.lean ====
section
/-!
DEFINITION. The posting checker (R83-R85, R90) with the rules each chapter lists for its page (R138, R249, R285, R365, R398, R443,
R528, R571, R621, R623, R625, R673, R747).
-/
namespace Sys2Proof.Machine

/-- The pages with postable registers, in page order. -/
def postablePages : List Nat :=
  [2, 5, 6, 7, 8] ++ (List.range 32).map (0x40 + ·) ++ [0x80, 0x81, 0x140, 0x141] ++ (List.range 8).map (0x180 + ·)
    ++ [0x188, 0x189, 0x1C0, 0x1C1] ++ (List.range 18).map (0x240 + ·) ++ [0x260, 0x261, 0x280, 0x281, 0x2B2]

/-- The posting group of a page. -/
def State.postGroup (s : State) (pg : Nat) : Nat := s.rd (Reg.POST_GRP.GROUP pg)

/-- The pages a mask posts: present pages with postable registers whose group it names (R84). -/
def State.pagesIn (s : State) (mask : Nat) : List Nat :=
  postablePages.filter fun pg => bit mask (s.postGroup pg) && !s.pageAbsent pg

/-- A page belongs to the posted set. -/
def State.inPost (s : State) (mask pg : Nat) : Bool :=
  postablePages.contains pg && bit mask (s.postGroup pg) && !s.pageAbsent pg

/-- The value of a field that a rule uses: staged where its page is posted, live otherwise (R84). -/
def State.seen (s : State) (mask : Nat) (f : Fld) : Nat := if s.inPost mask (f.key / 0x1000) then s.rdStaged f else s.rd f

/-! Rejection reasons (R92). -/
abbrev Reason.RULE : Nat := 0x01
abbrev Reason.RESERVED_ENC : Nat := 0x02
abbrev Reason.ABSENT_REF : Nat := 0x03
abbrev Reason.GROUP_BUSY : Nat := 0x04
abbrev Reason.TIME_PAST : Nat := 0x05
abbrev Reason.TIME_RANGE : Nat := 0x06
abbrev Reason.TIME_UNSYNCED : Nat := 0x07
abbrev Reason.DIE_LINK : Nat := 0x08
abbrev Reason.CANCELLED : Nat := 0x09
abbrev Reason.COMPUTE_OFF : Nat := 0x0A
abbrev Reason.DISTURBED : Nat := 0x0B

/-- A violation: its reason and status code. -/
structure Violation where
  reason : Nat
  code : Nat
deriving DecidableEq, Repr

/-- The first violation of a list of tests. -/
def firstViolation (l : List (Option Violation)) : Option Violation := l.findSome? id

def rule (ok : Bool) (code : Nat) : Option Violation := if ok then none else some ⟨Reason.RULE, code⟩
def encoding (ok : Bool) : Option Violation := if ok then none else some ⟨Reason.RESERVED_ENC, Code.FORMAT⟩
def reference (ok : Bool) : Option Violation := if ok then none else some ⟨Reason.ABSENT_REF, Code.ABSENT⟩

/-- The staged value of a counterfoil register, 0 where its halves disagree. -/
def State.stagedCf (s : State) (f : Fld) : Nat := (cfVal (s.rdStaged f)).getD 0

/-- A staged counterfoil whose halves agree. -/
def State.stagedCfOk (s : State) (f : Fld) : Bool := cfOk (s.rdStaged f)

/-- The list holds no value twice. -/
def distinct : List Nat → Bool
  | [] => true
  | x :: xs => !xs.contains x && distinct xs

/-- Byte `k` of a value. -/
def byteOf (v k : Nat) : Nat := bits v (8 * k) 8

/-! SUP (R138). -/

/-- The channels that a staged channel depends on, directly or not, after `fuel` rounds. -/
def State.stagedReach (s : State) : Nat → Nat → Nat
  | 0, m => m
  | k + 1, m =>
    let r := s.stagedReach k m
    r ||| (channels.filter (bit r)).foldl (fun acc n => acc ||| s.rdStaged (Reg.RAIL_CFG.DEPS n)) 0

/-- A value of a channel field changes. -/
def State.changed (s : State) (f : Fld) : Bool := s.rdStaged f ≠ s.rd f

def State.checkSup (s : State) : Option Violation :=
  let v := s.rdStaged
  let used (n : Nat) : Bool := v (Reg.RAIL_CFG.USED n) = 1
  let deps (n : Nat) := v (Reg.RAIL_CFG.DEPS n)
  let uv (n : Nat) := s.stagedCf (Reg.RAIL_UV.UV n) % 65536
  let ov (n : Nat) := s.stagedCf (Reg.RAIL_OV.OV n) % 65536
  let bound := channels.filter fun n => v (Reg.RAIL_PMB.BOUND n) = 1
  let st := s.railSt
  firstViolation [
    encoding (v Reg.SUP_PMB_CTL.RATE ≠ 3),
    encoding (channels.all fun n => s.stagedCfOk (Reg.RAIL_UV.UV n) && s.stagedCfOk (Reg.RAIL_OV.OV n)),
    rule (channels.all fun n =>
      if used n then !bit (deps n) n && channels.all fun m => !bit (deps n) m || used m else deps n = 0) Code.ABSENT,
    rule (channels.all fun n => !used n || !bit (s.stagedReach 20 (deps n)) n) Code.FORMAT,
    rule (channels.all fun n => !used n || (decide (1 ≤ v (Reg.RAIL_START.SS_TIMEOUT n)) && decide (v (Reg.RAIL_START.SS_TIMEOUT n) ≤ 1000)
      && decide (1 ≤ v (Reg.RAIL_SCALE.SCALE n)) && decide (v (Reg.RAIL_SCALE.SCALE n) ≤ 4096))) Code.BOUNDS,
    rule (channels.all fun n => !used n || (decide (0 < uv n) && decide (uv n < v (Reg.RAIL_VOUT.VMIN n))
      && decide (v (Reg.RAIL_VOUT.VMIN n) ≤ v (Reg.RAIL_VOUT.VMAX n)) && decide (v (Reg.RAIL_VOUT.VMAX n) < ov n))) Code.BOUNDS,
    rule (channels.all fun n => !used n || decide (ov n * v (Reg.RAIL_SCALE.SCALE n) ≤ 1600 * 4096)) Code.BOUNDS,
    rule (distinct (bound.map fun n => v (Reg.RAIL_PMB.ADDR n) + 128 * v (Reg.RAIL_PMB.PAGE n))
      && bound.all fun n => decide (0x08 ≤ v (Reg.RAIL_PMB.ADDR n)) && decide (v (Reg.RAIL_PMB.ADDR n) ≤ 0x77)) Code.FORMAT,
    rule (channels.all fun n =>
      !(s.changed (Reg.RAIL_CFG.DEPS n) || s.changed (Reg.RAIL_CFG.GROUP n) || s.changed (Reg.RAIL_CFG.USED n) || s.changed (Reg.RAIL_SCALE.SCALE n))
      || st n = RailSt.UNUSED || st n = RailSt.OFF || st n = RailSt.FAILED || st n = RailSt.SENSE_FAULT) Code.LIMIT,
    rule (channels.all fun n => !(st n = RailSt.SOFT_START || st n = RailSt.ON)
      || (decide (uv n < s.rd (Reg.RAIL_STA.SENSE n)) && decide (s.rd (Reg.RAIL_STA.SENSE n) < ov n))) Code.BOUNDS,
    rule ((List.range 8).all fun g => !bit (v Reg.SUP_COMPUTE_GRP.GROUPS) g
      || channels.any fun n => used n && v (Reg.RAIL_CFG.GROUP n) = g) Code.ABSENT]

/-! SPX (R249), VLT (R285), THM (R365). -/

def State.checkSpx (s : State) (u : Nat) : Option Violation :=
  firstViolation [
    rule (u ≠ 0 || (List.range 4).all fun k => s.rdStaged (Reg.SPX_XIP_CFG.OMIT 0 k) = 0
      || (s.rdStaged (Reg.SPX_XIP_CFG.ENABLE 0 k) = 1 && s.rdStaged (Reg.SPX_XIP_CFG.MODE_EN 0 k) = 1)) Code.FORMAT,
    rule (u ≠ 1 || !s.changed (Reg.SPX_MODE.ROLE 1) || s.rd (Reg.SPX_XFER_STA.STATE 1) = 0 || s.rd (Reg.SPX_XFER_STA.STATE 1) = 3) Code.LIMIT]

def State.checkVlt (s : State) : Option Violation :=
  let w := s.stagedCf Reg.VLT_THR_WARN.WARN
  let st := s.stagedCf Reg.VLT_THR_STORE.STORE
  let r := s.stagedCf Reg.VLT_THR_RESET.RESET
  firstViolation [
    encoding (s.stagedCfOk Reg.VLT_THR_WARN.WARN && s.stagedCfOk Reg.VLT_THR_STORE.STORE && s.stagedCfOk Reg.VLT_THR_RESET.RESET),
    rule (decide (700 ≤ r) && decide (r + 20 < st) && decide (st + 20 < w) && decide (w ≤ 970)) Code.BOUNDS,
    rule (decide (1 ≤ s.rdStaged Reg.VLT_SAFE_INTERVAL.SECONDS) && decide (s.rdStaged Reg.VLT_SAFE_INTERVAL.SECONDS ≤ 3600)) Code.BOUNDS,
    rule (decide (w + 20 ≤ s.rd Reg.VLT_VMAIN.NOW)) Code.BOUNDS]

def State.checkThm (s : State) (mask : Nat) : Option Violation :=
  let v := s.rdStaged
  let ch (j : Nat) := byteOf (v Reg.THM_CORE_CH.CH) j
  let op (k j : Nat) := bits (v (Reg.THM_OP.MV k)) (16 * j) 16
  let named := (List.range 4).filter fun j => ch j ≠ 0xFF
  firstViolation [
    rule (decide (850 ≤ v Reg.THM_TJ_TARGET.TENTHS) && decide (v Reg.THM_TJ_TARGET.TENTHS ≤ 1000)
      && decide (700 ≤ v Reg.THM_HBM_TARGET.TENTHS) && decide (v Reg.THM_HBM_TARGET.TENTHS ≤ 950)) Code.BOUNDS,
    rule (decide (100 ≤ v Reg.THM_PCAP.W) && decide (v Reg.THM_PCAP.W ≤ s.rd Reg.GLB_PART.POWER_LIMIT)
      && decide (v Reg.THM_PUNMEAS.W < v Reg.THM_PCAP.W)) Code.BOUNDS,
    rule ((named.all fun j => decide (ch j < 20) && s.seen mask (Reg.RAIL_CFG.USED (ch j)) = 1) && distinct (named.map ch)) Code.ABSENT,
    rule ((List.range 4).all fun j =>
      if ch j = 0xFF then (List.range 4).all fun k => op k j = 0
      else decide (s.seen mask (Reg.RAIL_VOUT.VMIN (ch j)) ≤ op 3 j) && decide (op 3 j ≤ op 2 j) && decide (op 2 j ≤ op 1 j)
        && decide (op 1 j ≤ op 0 j) && decide (op 0 j ≤ s.seen mask (Reg.RAIL_VOUT.VMAX (ch j)))) Code.BOUNDS,
    rule (decide (100 ≤ v Reg.THM_ICC_MAX.A) && decide (v Reg.THM_ICC_MAX.A ≤ 2000) && decide (100 ≤ v Reg.THM_ICC_MAX.B)
      && decide (v Reg.THM_ICC_MAX.B ≤ 2000)) Code.BOUNDS]

/-! ACT (R398). -/

/-- 2 MiB. -/
abbrev granule : Nat := 0x200000

/-- A field whose value a test reads: staged on posted pages, live otherwise. -/
abbrev View := Fld → Nat

def View.banks (v : View) (a half : Nat) : Nat := if half = 0 then v (Reg.ACT_BANKS_A.MASK a) else v (Reg.ACT_BANKS_B.MASK a)
def View.secureBits (v : View) (a half : Nat) : Nat := if half = 0 then v (Reg.ACT_SECURE.A a) else v (Reg.ACT_SECURE.B a)

/-- The banks an account holds in a half: its mask and its secure share. -/
def View.ownedBanks (v : View) (a half : Nat) : Nat :=
  v.banks a half ||| secureShare (v (Reg.BNK_SECURE.COUNT half)) (v.secureBits a half)

/-- Two ranges of numbers meet. -/
def rangesMeet (f1 n1 f2 n2 : Nat) : Bool := decide (0 < n1) && decide (0 < n2) && decide (f1 < f2 + n2) && decide (f2 < f1 + n1)

/-- An extent lies within one half's HBM and outside both firmware regions. -/
def State.userHbm (s : State) (a n : Nat) : Bool := s.inOneHbm a n && !s.meetsFw a n

/-- An extent touches memory of R71 that the part lacks (test 3 of R84). -/
def State.touchesAbsent (s : State) (a n : Nat) : Bool := decide (0 < n) &&
  [0, 1].any fun h => decide (max a (hbmBase h + s.halfBytes h) < min (a + n) (hbmBase h + 0x003000000000))

/-- The bytes of a function's BAR 2: 0 while it is disabled. -/
def State.bar2Size (s : State) (a : Nat) : Nat :=
  let l := if a = 0 then s.rd Reg.PCX_BAR2.PF_LOG2 else s.rd Reg.PCX_BAR2.VF_LOG2
  if l = 0 then 0 else 2 ^ l

/-- Banks of a half that some account lost and that are not yet zero-filled (R391). -/
def State.scrubbing (s : State) (half : Nat) : Nat := (List.range 32).foldl (fun m a => m ||| tblGet 0 s.scrub (2 * a + half)) 0

def State.checkAct (s : State) (mask a : Nat) : Option Violation :=
  let v := s.rdStaged
  let w : View := s.seen mask
  let base (i : Nat) := v (Reg.ACT_WIN_BASE.BASE a i) * granule
  let size (i : Nat) := v (Reg.ACT_WIN_CTL.SIZE a i) * granule
  let aper := v (Reg.ACT_APER.BASE a) * granule
  let aperLen := max 1 (s.bar2Size a)
  let others := (List.range 32).filter (· ≠ a)
  let floor := min 2 (s.rd (Reg.ACT_STA.CLASS_FLOOR a))
  let secure (h : Nat) := v (if h = 0 then Reg.ACT_SECURE.A a else Reg.ACT_SECURE.B a)
  let added (h : Nat) := w.ownedBanks a h &&& (2 ^ 48 - 1 - (View.ownedBanks s.rd a h))
  let tileCap (t : Nat) : Bool := decide (t ≤ 24)
  firstViolation [
    encoding (v (Reg.ACT_CLASS.CLASS a) ≠ 3 && decide (v (Reg.ACT_RINGS.COUNT a) ≤ 32) && v (Reg.ACT_TALLY.FIRST a) % 64 = 0
      && decide (v (Reg.ACT_TALLY.UNITS a) ≤ 1024) && decide (v (Reg.ACT_FOLIO.COUNT a) ≤ 1024) && decide (v (Reg.ACT_GROUPS.COUNT a) ≤ 4096)
      && tileCap (v (Reg.ACT_LIMIT.TILES_A a)) && tileCap (v (Reg.ACT_LIMIT.TILES_B a))),
    reference ((List.range 16).all fun i => !s.touchesAbsent (base i) (size i)),
    reference (v (Reg.ACT_APER.ENABLE a) = 0 || !s.touchesAbsent aper aperLen),
    rule (decide (floor ≤ v (Reg.ACT_CLASS.CLASS a))) Code.PERMISSION,
    rule ((List.range 16).all fun i =>
      if size i = 0 then v (Reg.ACT_WIN_CTL.RD a i) = 0 && v (Reg.ACT_WIN_CTL.WR a i) = 0 else s.userHbm (base i) (size i)) Code.BOUNDS,
    rule (decide (v (Reg.ACT_TALLY.FIRST a) + 64 * v (Reg.ACT_TALLY.UNITS a) ≤ 262144)
      && decide (v (Reg.ACT_FOLIO.FIRST a) + v (Reg.ACT_FOLIO.COUNT a) ≤ 1024)
      && decide (v (Reg.ACT_GROUPS.FIRST a) + v (Reg.ACT_GROUPS.COUNT a) ≤ 4096)) Code.BOUNDS,
    rule (others.all fun b =>
      !rangesMeet (v (Reg.ACT_TALLY.FIRST a)) (64 * v (Reg.ACT_TALLY.UNITS a)) (w (Reg.ACT_TALLY.FIRST b)) (64 * w (Reg.ACT_TALLY.UNITS b))
      && !rangesMeet (v (Reg.ACT_FOLIO.FIRST a)) (v (Reg.ACT_FOLIO.COUNT a)) (w (Reg.ACT_FOLIO.FIRST b)) (w (Reg.ACT_FOLIO.COUNT b))
      && !rangesMeet (v (Reg.ACT_GROUPS.FIRST a)) (v (Reg.ACT_GROUPS.COUNT a)) (w (Reg.ACT_GROUPS.FIRST b)) (w (Reg.ACT_GROUPS.COUNT b))) Code.LIMIT,
    rule ([0, 1].all fun h =>
      (others.all fun b => w.ownedBanks a h &&& w.ownedBanks b h = 0)
      && w.banks a h &&& (2 ^ 48 - 2 ^ (48 - w (Reg.BNK_SECURE.COUNT h))) = 0
      && decide (secure h < 2 ^ w (Reg.BNK_SECURE.COUNT h))) Code.LIMIT,
    rule ((s.rd (Reg.ACT_STA.NO_SECURE a) = 0 || (secure 0 = 0 && secure 1 = 0))
      && (s.rd (Reg.ACT_STA.NO_APERTURE a) = 0 || v (Reg.ACT_APER.ENABLE a) = 0)) Code.PERMISSION,
    rule (v (Reg.ACT_APER.ENABLE a) = 0 || s.userHbm aper aperLen) Code.BOUNDS,
    rule (((List.range 32).all fun r => s.rd (Reg.RING_STA.STATE (32 * a + r)) = 0 || decide (r < v (Reg.ACT_RINGS.COUNT a)))
      && [0, 1].all fun h => added h &&& s.scrubbing h = 0) Code.LIMIT,
    rule ((List.range 32).all fun b => s.rd (Reg.ACT_STA.DRAINED b) = 1) Code.LIMIT]

/-! DSP (R443), HMC, MPU and BNK (R528). -/

def State.checkDsp (s : State) (half : Nat) : Option Violation :=
  let t := s.rdStaged (Reg.DSP_CFG.URGENT_TILE half)
  let w := s.rdStaged (Reg.DSP_CFG.NORMAL_WEIGHT half)
  firstViolation [
    encoding (decide (t < 24) || t = 31),
    rule (decide (1 ≤ w) && decide (w ≤ 15)) Code.BOUNDS,
    rule (t = 31 || !s.on (Reg.STA.FAULT (0x100 + 24 * half + t))) Code.LIMIT]

def State.checkHmc (s : State) (k : Nat) : Option Violation := rule (decide (s.rdStaged (Reg.HMC_SCRUB_CFG.PERIOD_H k) ≤ 168)) Code.BOUNDS

def State.checkMpu (s : State) (half : Nat) : Option Violation :=
  let u := s.rdStaged (Reg.MPU_QOS.URGENT_SHARE half)
  let w := s.rdStaged (Reg.MPU_QOS.NORMAL_WEIGHT half)
  rule (decide (1 ≤ u) && decide (u ≤ 16) && decide (1 ≤ w) && decide (w ≤ 15)) Code.BOUNDS

def State.checkBnk (s : State) (mask half : Nat) : Option Violation :=
  let new := s.rdStaged (Reg.BNK_SECURE.COUNT half)
  let old := s.rd (Reg.BNK_SECURE.COUNT half)
  let w : View := s.seen mask
  let moved := (2 ^ 48 - 2 ^ (48 - new)) ^^^ (2 ^ 48 - 2 ^ (48 - old))
  firstViolation [
    rule (decide (2 ≤ new) && decide (new ≤ 4)) Code.BOUNDS,
    rule ((List.range 32).all (fun a =>
        moved &&& (w.banks a half ||| secureShare old (View.secureBits s.rd a half) ||| secureShare new (w.secureBits a half)) = 0)
      && moved &&& (s.rd (Reg.BNK_OFFLINE.MASK half) ||| s.rd (Reg.BNK_WIPING.MASK half)) = 0) Code.LIMIT,
    rule ((List.range 32).all fun a => decide (w.secureBits a half < 2 ^ new)) Code.LIMIT]

/-! FOL (R571). -/

/-- An extent lies within one window of an account that has the permissions asked. -/
def View.inWindow (v : View) (a addr n : Nat) (rd wr : Bool) : Bool :=
  (List.range 16).any fun i =>
    let base := v (Reg.ACT_WIN_BASE.BASE a i) * granule
    let size := v (Reg.ACT_WIN_CTL.SIZE a i) * granule
    decide (0 < size) && decide (base ≤ addr) && decide (addr + n ≤ base + size)
      && (!rd || v (Reg.ACT_WIN_CTL.RD a i) = 1) && (!wr || v (Reg.ACT_WIN_CTL.WR a i) = 1)

def State.checkFol (s : State) (mask half : Nat) : Option Violation :=
  let v := s.rdStaged
  let base (p : Nat) := v (Reg.FOL_POOL_BASE.BASE half p) * granule
  let len (p : Nat) := v (Reg.FOL_POOL_CFG.PAGES half p) * v (Reg.FOL_POOL_STRIDE.LINES half p) * 64
  let pools := (List.range 64).filter fun p => v (Reg.FOL_POOL_CFG.PAGES half p) ≠ 0
  firstViolation [
    reference (pools.all fun p => !s.touchesAbsent (base p) (len p)),
    rule (pools.all fun p => decide (1 ≤ v (Reg.FOL_POOL_STRIDE.LINES half p)) && decide (hbmBase half ≤ base p)
      && decide (base p + len p ≤ hbmBase half + s.halfBytes half) && !s.meetsFw (base p) (len p)) Code.BOUNDS,
    rule (pools.all fun p => pools.all fun q => p = q || !rangesMeet (base p) (len p) (base q) (len q)) Code.LIMIT,
    rule (pools.all fun p => View.inWindow (s.seen mask) (v (Reg.FOL_POOL_CFG.OWNER half p)) (base p) (len p) true true) Code.PERMISSION,
    rule ((List.range 64).all fun p => s.rd (Reg.FOL_POOL_CFG.PAGES half p) ≤ s.rd (Reg.FOL_POOL_FREE.FREE half p)
      || !(s.changed (Reg.FOL_POOL_BASE.BASE half p) || s.changed (Reg.FOL_POOL_CFG.PAGES half p)
        || s.changed (Reg.FOL_POOL_STRIDE.LINES half p) || s.changed (Reg.FOL_POOL_CFG.OWNER half p))) Code.LIMIT]

/-! FPT (R621, R583), XPT (R623), TSY (R625). -/

/-- The lane sets of a width code: four lanes, {0,1} or {2,3}, any one lane (R583). -/
def laneSets (width : Nat) : List Nat := if width = 0 then [0xF] else if width = 1 then [0x3, 0xC] else [1, 2, 4, 8]

def State.checkFpt (s : State) (p : Nat) : Option Violation :=
  let v := s.rdStaged
  firstViolation [
    encoding (v (Reg.FPT_CFG.MEDIUM p) ≠ 3 && v (Reg.FPT_CFG.MAX_WIDTH p) ≠ 3),
    rule ((laneSets (v (Reg.FPT_CFG.MAX_WIDTH p))).any fun l => l &&& v (Reg.FPT_CFG.LANE_EN p) = l) Code.FORMAT,
    rule (decide (v (Reg.FPT_LINK_WAIT.MS p) ≤ 1000) && decide (100 ≤ v (Reg.FPT_ADAPT.PERIOD_MS p)) && decide (v (Reg.FPT_ADAPT.PERIOD_MS p) ≤ 60000)
      && decide (v (Reg.FPT_PFC.XON_KIB p) < v (Reg.FPT_PFC.XOFF_KIB p)) && decide (v (Reg.FPT_PFC.XOFF_KIB p) ≤ 1024)) Code.BOUNDS,
    rule (!(s.changed (Reg.FPT_CFG.MEDIUM p) || s.changed (Reg.FPT_CFG.MAX_WIDTH p) || s.changed (Reg.FPT_CFG.LANE_EN p))
      || s.rd (Reg.FPT_STA.STATE p) = 0) Code.LIMIT]

/-- The port of mesh member `m` under a view. -/
def View.meshPort (v : View) (m : Nat) : Nat := byteOf (v (Reg.XPT_MESH.PORTS (m / 4))) (m % 4)
/-- The port of plane `k` under a view. -/
def View.uplinkPort (v : View) (k : Nat) : Nat := byteOf (v Reg.XPT_UPLINK.PORTS) k

/-- No fabric message is queued or in flight. -/
def State.fabricIdle (s : State) : Bool := (s.txStreams.all fun e => e.2.msgs.isEmpty) && s.requests.isEmpty

def State.checkXpt (s : State) : Option Violation :=
  let v : View := s.rdStaged
  let type := v Reg.XPT_ETHERTYPE.TYPE
  let octet := v Reg.XPT_MAC_PREFIX.PREFIX / 65536
  let pcp (c : Nat) := bits (v Reg.XPT_PCP.PCP) (3 * c) 3
  let named := ((List.range 16).map v.meshPort ++ (List.range 3).map v.uplinkPort).filter (· ≠ 0xFF)
  let fixed := s.changed Reg.XPT_NODE.NODE || s.changed Reg.XPT_SYSTEM.SYSTEM || s.changed Reg.XPT_ETHERTYPE.TYPE || s.changed Reg.XPT_MAC_PREFIX.PREFIX
    || s.changed Reg.XPT_VLAN.VID || s.changed Reg.XPT_PCP.PCP || s.changed Reg.XPT_REQ_TIMEOUT.UNITS || s.changed Reg.XPT_RTO.US
    || (List.range 4).any (fun i => s.changed (Reg.XPT_MESH.PORTS i)) || s.changed Reg.XPT_UPLINK.PORTS
  firstViolation [
    reference (named.all fun p => decide (18 ≤ p) || s.portPresent p),
    rule (decide (0x0600 ≤ type) && !([0x0800, 0x0806, 0x8100, 0x86DD, 0x8808, 0x8809, 0x88A8, 0x88CC, 0x88F7].contains type)) Code.FORMAT,
    rule (bit octet 1 && !bit octet 0) Code.FORMAT,
    rule ((named.all fun p => decide (p < 18) && s.portPresent p) && distinct named && v.meshPort (v Reg.XPT_NODE.NODE % 16) = 0xFF) Code.ABSENT,
    rule (pcp 6 ≠ pcp 1 && pcp 6 ≠ pcp 3 && pcp 6 ≠ pcp 4 && pcp 6 ≠ pcp 5) Code.FORMAT,
    rule ((List.range 32).all fun a => v (Reg.XPT_EXPORT.NODE_MATCH a) &&& (65535 - v (Reg.XPT_EXPORT.NODE_MASK a)) = 0) Code.FORMAT,
    rule (decide (1 ≤ v Reg.XPT_REQ_TIMEOUT.UNITS) && decide (10 ≤ v Reg.XPT_RTO.US) && decide (v Reg.XPT_RTO.US ≤ 10000)) Code.BOUNDS,
    rule (!fixed || (((List.range 18).all fun p => !s.portPresent p || s.rd (Reg.FPT_STA.STATE p) = 0) && s.fabricIdle)) Code.LIMIT]

def State.checkTsy (s : State) (mask : Nat) : Option Violation :=
  let v := s.rdStaged
  let w : View := s.seen mask
  let port := v Reg.TSY_SLAVE_PORT.PORT
  let role := v Reg.TSY_CFG.ROLE
  firstViolation [
    encoding (role ≠ 3),
    reference (decide (18 ≤ port) || s.portPresent port),
    rule (decide (v Reg.TSY_CFG.DOMAIN ≤ 127) && decide (v Reg.TSY_CFG.SYNC_EXP ≤ 10) && decide (v Reg.TSY_CFG.PDELAY_EXP ≤ 4)) Code.FORMAT,
    rule (if role = 0 then port = 0x1F
      else if role = 1 then (List.range 3).any fun k => w.uplinkPort k = port
      else (List.range 16).any fun m => w.meshPort m = port) Code.ABSENT]

/-! COL (R673), LSC (R747). -/

def State.group (s : State) (g : Nat) : Group := tblGet default s.groups g

def State.checkCol (s : State) (half : Nat) : Option Violation :=
  let v := s.rdStaged
  let valid := if half = 0 then (List.range 16).filter fun i => v (Reg.COL_PROMOTE.VALID 0 i) = 1 else []
  firstViolation [
    encoding (half ≠ 0 || (List.range 16).all fun i => s.stagedCfOk (Reg.COL_PROMOTE_EPOCH.EPOCH 0 i)),
    rule (decide (10 ≤ v (Reg.COL_CFG.STAGGER_US half)) && decide (v (Reg.COL_CFG.STAGGER_US half) ≤ 10000)) Code.BOUNDS,
    rule (distinct (valid.map fun i => v (Reg.COL_PROMOTE.GROUP 0 i))) Code.FORMAT,
    rule (valid.all fun i =>
      (s.group (v (Reg.COL_PROMOTE.GROUP 0 i))).pending.any fun p => p.epoch = s.stagedCf (Reg.COL_PROMOTE_EPOCH.EPOCH 0 i) % 65536) Code.EPOCH]

/-- Ops whose opcode lies in a range, admitted and not complete. -/
def State.opsIn (s : State) (lo hi : Nat) : Nat := (s.ops.filter fun o => decide (lo ≤ o.desc.toNat % 65536) && decide (o.desc.toNat % 65536 ≤ hi)).length

def State.checkLsc (s : State) (mask : Nat) : Option Violation :=
  let v := s.rdStaged
  let w : View := s.seen mask
  let k := s.stagedCf Reg.LSC_K_SET.K
  let acct := v Reg.LSC_OWNER.ACCOUNT
  let base (i : Nat) := v (Reg.LSC_MSRC.BASE i) * granule
  let len (i : Nat) := v (Reg.LSC_MSRC.GRANULES i) * granule
  let src := (List.range 8).filter fun i => v (Reg.LSC_MSRC.GRANULES i) ≠ 0
  let total := src.foldl (fun n i => n + v (Reg.LSC_MSRC.GRANULES i)) 0
  let slots := v Reg.LSC_MDST.SLOTS
  let hbm := (s.rd Reg.GLB_MEM_SIZE.HALF_A_GIB + s.rd Reg.GLB_MEM_SIZE.HALF_B_GIB) * 2 ^ 30
  let owner := s.changed Reg.LSC_OWNER.ACCOUNT || s.changed Reg.LSC_OWNER.ENABLE
    || (List.range 8).any (fun i => s.changed (Reg.LSC_MSRC.GRANULES i) || s.changed (Reg.LSC_MSRC.ALWAYS i) || s.changed (Reg.LSC_MSRC.BASE i))
    || s.changed Reg.LSC_MDST.NODE || s.changed Reg.LSC_MDST.RACCT || s.changed Reg.LSC_MDST.RWIN || s.changed Reg.LSC_MDST.VALID
    || s.changed Reg.LSC_MDST.SLOTS || s.changed Reg.LSC_MDST_OFF.OFFSET
  firstViolation [
    encoding (s.stagedCfOk Reg.LSC_K_SET.K),
    reference ((src.all fun i => !s.touchesAbsent (base i) (len i))
      && (v Reg.LSC_OWNER.ENABLE = 0 || !s.touchesAbsent (v Reg.LSC_PTAB.BASE * 64) 16384)),
    rule ((decide (k ≤ 40) || (decide (232 ≤ k) && decide (k ≤ 255))) && decide (1 ≤ v Reg.LSC_GROWTH.INTERVAL)) Code.BOUNDS,
    rule (v Reg.LSC_OWNER.ENABLE = 0 || w.inWindow acct (v Reg.LSC_PTAB.BASE * 64) 16384 true false) Code.PERMISSION,
    rule ((src.all fun i => s.inOneHbm (base i) (len i) && w.inWindow acct (base i) (len i) true true)
      && src.all fun i => src.all fun j => i = j || !rangesMeet (base i) (len i) (base j) (len j)) Code.PERMISSION,
    rule (decide (total ≤ 32768)) Code.LIMIT,
    rule (v Reg.LSC_MDST.VALID = 0 || (v Reg.LSC_MDST.NODE ≠ w Reg.XPT_NODE.NODE && decide (2 * total ≤ slots)
      && decide (4 * slots * granule ≤ hbm))) Code.BOUNDS,
    rule (!owner || (s.opsIn 0x0600 0x06FF = 0 && s.rd Reg.LSC_LEDGER_STA.QUEUED = 0)) Code.LIMIT]

/-! The checker (R84, R85). -/

/-- The first violation of one posted page. -/
def State.checkPage (s : State) (mask pg : Nat) : Option Violation :=
  match pageKind pg with
  | some (.sup, _) => s.checkSup
  | some (.spx, u) => s.checkSpx u
  | some (.vlt, _) => s.checkVlt
  | some (.thm, _) => s.checkThm mask
  | some (.act, a) => s.checkAct mask a
  | some (.dsp, h) => s.checkDsp h
  | some (.hmc, k) => s.checkHmc k
  | some (.mpu, h) => s.checkMpu h
  | some (.bnk, h) => s.checkBnk mask h
  | some (.fol, h) => s.checkFol mask h
  | some (.fpt, p) => s.checkFpt p
  | some (.xpt, _) => s.checkXpt
  | some (.tsy, _) => s.checkTsy mask
  | some (.col, h) => s.checkCol h
  | some (.lsc, _) => s.checkLsc mask
  | _ => none

/-- The first violation over the pages of a mask: its page and what it is. -/
def State.runChecker (s : State) (mask : Nat) : Option (Nat × Violation) :=
  (s.pagesIn mask).findSome? fun pg => (s.checkPage mask pg).map fun v => (pg, v)

end Sys2Proof.Machine
end

