-- ==== Sys2Proof/Machine/SpiOps.lean ====
section
/-!
DEFINITION. What an operation of a serial port shows on its balls: its phases, the lanes and levels of each, and the timing of its select
(R224-R230, R236, R237).
-/
namespace Sys2Proof.Machine

/-- The lanes that a two-bit width field names. -/
def lanesOf (w : Nat) : Nat := 2 ^ (w % 4)

/-- The levels of DQ in each cycle that sends bytes on `w` lanes: most significant bits first, the higher bit on the higher lane (R225,
R226). -/
def wireCycles (w : Nat) (l : List Byte) : List Nat :=
  l.flatMap fun b => (List.range (8 / w)).map fun i => bits b.toNat (8 - w * (i + 1)) w

/-- A phase that sends bytes: at one lane the controller drives DQ0, else DQ[W-1:0]. -/
def outPhase (w : Nat) (l : List Byte) : SpiPhase := ⟨8 * l.length / w, 2 ^ w - 1, 0, wireCycles w l⟩

/-- A phase that reads `n` bytes: at one lane the controller samples DQ1, else DQ[W-1:0]; it drives nothing. -/
def inPhase (w n : Nat) : SpiPhase := ⟨8 * n / w, 0, if w = 1 then 2 else 2 ^ w - 1, []⟩

/-- The phases of R224 in order: command, address and mode bytes as they go out, dummy cycles, then the bytes sent or the number read; a
phase without content is absent. Widths are two-bit codes. -/
def spiPhases (cmdW addrW modeW dataW : Nat) (cmd addr mode : List Byte) (dummy : Nat) (sent : List Byte) (read : Nat) : List SpiPhase :=
  let send (w : Nat) (l : List Byte) : List SpiPhase := if l.isEmpty then [] else [outPhase (lanesOf w) l]
  send cmdW cmd ++ send addrW addr ++ send modeW mode ++ (if dummy = 0 then [] else [⟨dummy, 0, 0, []⟩]) ++ send dataW sent
    ++ (if read = 0 then [] else [inPhase (lanesOf dataW) read])

/-- An operation on a select with the timing that its live registers give (R227-R230). -/
def State.selOp (s : State) (u sel : Nat) (phases : List SpiPhase) : SpiOp :=
  ⟨u, sel, 2 * (s.rd (Reg.SPX_SEL_CFG.DIV u sel) + 1), s.rd (Reg.SPX_SEL_TIM.SETUP u sel) + 1, s.rd (Reg.SPX_SEL_TIM.HOLD u sel) + 1,
    s.rd (Reg.SPX_SEL_TIM.GAP u sel) + 1, s.on (Reg.SPX_SEL_CFG.MODE3 u sel), s.rd (Reg.SPX_SEL_CFG.RX_DLY u sel), phases⟩

/-- The bytes of a value, the highest first. -/
def highFirst (n v : Nat) : List Byte := (leBytes n v).reverse

/-- The transfer that the registers of a port describe (R224). -/
def State.xferOp (s : State) (u : Nat) (sent : List Byte) : SpiOp :=
  let r (f : Nat → Fld) : Nat := s.rd (f u)
  let cmd := highFirst (r Reg.SPX_XFER_A.CMD_LEN) (r Reg.SPX_XFER_B.CMD)
  let addr := match r Reg.SPX_XFER_A.ADDR_LEN with | 0 => [] | 1 => highFirst 3 (r Reg.SPX_XFER_ADDR.ADDR) | _ => highFirst 4 (r Reg.SPX_XFER_ADDR.ADDR)
  let mode := if s.on (Reg.SPX_XFER_A.MODE_EN u) then highFirst 1 (r Reg.SPX_XFER_B.MODE) else []
  s.selOp u (r Reg.SPX_XFER_A.SEL) (spiPhases (r Reg.SPX_XFER_A.CMD_W) (r Reg.SPX_XFER_A.ADDR_W) (r Reg.SPX_XFER_A.MODE_W) (r Reg.SPX_XFER_A.DATA_W)
    cmd addr mode (r Reg.SPX_XFER_A.DUMMY) sent (if s.on (Reg.SPX_XFER_A.DIR u) then 0 else r Reg.SPX_XFER_LEN.LEN))

/-- A read in the phases of a select's XIP_CFG, with or without its command (R235, R236). -/
def State.readOp (s : State) (sel addr n : Nat) (omitted : Bool) : SpiOp :=
  let r (f : Nat → Nat → Fld) : Nat := s.rd (f 0 sel)
  s.selOp 0 sel (spiPhases (r Reg.SPX_XIP_CFG.CMD_W) (r Reg.SPX_XIP_CFG.ADDR_W) (r Reg.SPX_XIP_CFG.MODE_W) (r Reg.SPX_XIP_CFG.DATA_W)
    (if omitted then [] else highFirst 1 (r Reg.SPX_XIP_CFG.CMD))
    (highFirst (if s.on (Reg.SPX_XIP_CFG.ADDR4 0 sel) then 4 else 3) addr)
    (if s.on (Reg.SPX_XIP_CFG.MODE_EN 0 sel) then highFirst 1 (r Reg.SPX_XIP_MODE.ENTER) else []) (r Reg.SPX_XIP_CFG.DUMMY) [] n)

/-- The exit sequence of a select: DQ[7:0] high for a number of cycles (R237). -/
def State.exitOp (s : State) (u sel cycles : Nat) : SpiOp := s.selOp u sel [⟨cycles, 0xFF, 0, List.replicate cycles 0xFF⟩]

/-- The cycles of the exit sequence that a select is set to. -/
def State.exitCycles (s : State) (u sel : Nat) : Nat := if s.on (Reg.SPX_XIP_MODE.EXIT16 u sel) then 16 else 8

end Sys2Proof.Machine
end

