-- ==== Sys2Proof/Machine/PostOps.lean ====
section
/-!
DEFINITION. The serial ports' exit sequence and the apply edge of a post: what the posted pages take and what follows from it
(R77, R88, R129, R237, R250, R258, R386, R391, R517, R546, R637, R746).
-/
namespace Sys2Proof.Machine

/-! Descriptors (R413, R414). -/

/-- `n` bytes of a descriptor at offset `o`. -/
def descAt (d : Desc) (o n : Nat) : Nat := d.toNat / 2 ^ (8 * o) % 2 ^ (8 * n)

def Op.opcode (o : Op) : Nat := descAt o.desc 0 2

/-- The group and epoch an op names: a collective in its body, a MINT op in its operands' AUX (R639, R688). -/
def Op.group (o : Op) : Option (Nat × Nat) :=
  let c := o.opcode
  if 0x0400 ≤ c ∧ c ≤ 0x0404 then some (descAt o.desc 0x60 2, descAt o.desc 0x64 2)
  else if c = 0x0500 then some (descAt o.desc 0x4D 3 % 4096, descAt o.desc 0x6D 3 % 65536) else none

/-- An issued op of a group under an epoch has not completed. -/
def State.groupBusy (s : State) (g epoch : Nat) : Bool := s.ops.any fun o => o.phase ≠ .waiting && o.group = some (g, epoch)

/-! Serial ports. -/

def State.port (s : State) (u : Nat) : Spx := tblGet default s.spx u
def State.setPort (s : State) (u : Nat) (x : Spx) : State :=
  let t := { s with spx := tblSet default s.spx u x }
  (t.wr (Reg.SPX_FIFO_STA.TX_LEVEL u) x.tx.length).wr (Reg.SPX_FIFO_STA.RX_LEVEL u) x.rx.length

/-- Every prefetch line of a select is invalid. -/
def State.dropLines (s : State) (u sel : Nat) : State :=
  s.setPort u { s.port u with lines := (s.port u).lines.filter fun l => l.sel ≠ sel }

/-- An exit sequence goes out and its select leaves command-omit mode. It has no row of its own and takes no step, so SPX_PORT_STA.OP shows it in
no state between two commands (log entry 58). -/
def State.exitWith (s : State) (u sel : Nat) (op : SpiOp) : State :=
  let f := Reg.SPX_PORT_STA.OMIT_ACTIVE u
  if bit (s.rd f) sel then ((s.wr f (setBit (s.rd f) sel false)).dropLines u sel).emit (.spi op) else s

/-- The exit sequence of a select in command-omit mode (R237). -/
def State.exitOmit (s : State) (u sel : Nat) : State := s.exitWith u sel (s.exitOp u sel (s.exitCycles u sel))

/-- The exit sequence of a changed select, with the values of `old`: at once on a free port, else after the operation in progress (R250). -/
def State.exitSoon (old s : State) (u sel : Nat) : State :=
  let op := old.exitOp u sel (old.exitCycles u sel)
  if s.rd (Reg.SPX_PORT_STA.OP u) = 0 then s.exitWith u sel op
  else if bit (s.rd (Reg.SPX_PORT_STA.OMIT_ACTIVE u)) sel ∧ ((s.port u).exits.all fun e => e.1 ≠ sel) then
    s.setPort u { s.port u with exits := (s.port u).exits ++ [(sel, op)] }
  else s

/-- Exit sequences that waited for the operation in progress. -/
def State.exitHeld (s : State) (u : Nat) : State :=
  (s.port u).exits.foldl (fun t e => t.exitWith u e.1 e.2) (s.setPort u { s.port u with exits := [] })

/-- TX_LOW and RX_HIGH of a port: set while their level meets the mark (R248). -/
def State.fifoEvents (s : State) (u : Nat) : State :=
  let x := s.port u
  let t := if x.tx.length ≤ s.rd (Reg.SPX_FIFO_STA.TX_LOW u) then s.raise (5 + u) 2 else s
  if s.rd (Reg.SPX_FIFO_STA.RX_HIGH u) ≤ x.rx.length then t.raise (5 + u) 3 else t

/-- The FIFOs of a port take a new content. -/
def State.setFifo (s : State) (u : Nat) (x : Spx) : State := (s.setPort u x).fifoEvents u

/-- A word starts in the slave: it sends the head of the TX FIFO, or SPX_SLV_IDLE when that is empty (R246). -/
def State.startWord (s : State) (u : Nat) : State :=
  let x := s.port u
  let w := match x.tx with | h :: _ => (h, true) | [] => (BitVec.ofNat 32 (s.rd (Reg.SPX_SLV_IDLE.WORD u)), false)
  (s.setPort u { x with word := some w }).wr (Reg.SPX_SLV_STA.BIT u) 0

/-- The slave sends SPX_SLV_IDLE in the current word. -/
def State.idleWord (s : State) (u : Nat) : Bool := match (s.port u).word with | some (_, fromTx) => !fromTx | none => false

/-- UNDERRUN counts a word of SPX_SLV_IDLE of which a bit has gone out. -/
def State.underrun (s : State) (u : Nat) : State := if s.idleWord u then (s.count (Reg.SPX_SLV_UNDER.UNDERRUN u) 1).raise (5 + u) 6 else s

/-- The select is released after `k` bits of the current word, or the role changes: a partial word is dropped, and no word is in progress
(R251, R258). -/
def State.endWord (s : State) (u k : Nat) : State :=
  let t := if 0 < k ∧ k < 32 then ((s.underrun u).count (Reg.SPX_SLV_CNT.PARTIAL_DISCARD u) 1).raise (5 + u) 4 else s
  ((t.setPort u { t.port u with word := none }).wr (Reg.SPX_SLV_STA.BIT u) 0).wrb (Reg.SPX_SLV_STA.SELECTED u) false

/-! The apply edge. -/

/-- The keys of the postable registers of a page. -/
def postedKeys (pg : Nat) : List Nat :=
  match pageKind pg with
  | some (k, _) => ((pageRows k).filter fun (r : RegRow) => r.posted).flatMap fun r =>
      (List.range r.count).map fun i => pg * 0x1000 + r.off + i * r.stride
  | none => []

/-- A page takes its staged values, and its STAGE_DIRTY clears (R77). -/
def State.copyPage (s : State) (pg : Nat) : State :=
  ((postedKeys pg).foldl (fun (t : State) key => t.setCell key (t.stagedCell key)) s).wr (Reg.STAGE_DIRTY.CLUSTER pg) 0

/-- The staged view of a page takes its live values, and its STAGE_DIRTY clears (R82). -/
def State.discardPage (s : State) (pg : Nat) : State :=
  ((postedKeys pg).foldl (fun (t : State) key => t.setStaged key (t.cell key)) s).wr (Reg.STAGE_DIRTY.CLUSTER pg) 0

/-- SUP: a channel that becomes used leaves UNUSED, and a newly bound regulator's VOUT_MODE is read (R129, R134). -/
def State.supApplied (old s : State) (badFormat : Nat) : State :=
  (channels.foldl (fun t n =>
    let t := if t.railUsed n then (if t.railSt n = RailSt.UNUSED then t.setRailSt n RailSt.OFF else t)
      else (t.setRailSt n RailSt.UNUSED).setRail n { t.rail n with wanted := false, after := RailSt.UNUSED }
    let f := [Reg.RAIL_PMB.ADDR n, Reg.RAIL_PMB.PAGE n, Reg.RAIL_PMB.BOUND n]
    if t.on (Reg.RAIL_PMB.BOUND n) ∧ f.any (fun x => old.rd x ≠ t.rd x) then t.wrb (Reg.RAIL_STA.PMB_FORMAT n) (bit badFormat n) else t) s).refreshSup.followPower

/-- SPX: selects whose values change lose their lines and leave command-omit mode; a change of role ends the current word and empties the
FIFOs (R250, R258). SPX1 has no command-omit mode, so a change of its role needs no exit sequence (R237). -/
def State.spxApplied (old s : State) (u : Nat) : State :=
  let t := (List.range 4).foldl (fun t k =>
    let keys := (Reg.SPX_SEL_CFG.DIV u k).key :: (Reg.SPX_SEL_TIM.SETUP u k).key ::
      (if u = 0 then [(Reg.SPX_XIP_CFG.ENABLE 0 k).key, (Reg.SPX_XIP_MODE.ENTER 0 k).key] else [])
    if keys.any fun x => old.cell x ≠ t.cell x then State.exitSoon old (t.dropLines u k) u k else t) s
  if u = 1 ∧ old.rd (Reg.SPX_MODE.ROLE 1) ≠ t.rd (Reg.SPX_MODE.ROLE 1) then
    let t := t.endWord 1 (t.rd (Reg.SPX_SLV_STA.BIT 1))
    t.setFifo 1 { t.port 1 with tx := [], rx := [] }
  else t

/-- The banks an account holds now. -/
def State.ownedBanks (s : State) (a half : Nat) : Nat := View.ownedBanks s.rd a half

/-- The rule epoch of an account; a corrupt counterfoil is never used, and counts as 0 (R98; log entry 66). -/
def State.epochOf (s : State) (a : Nat) : Nat := (cfVal (s.rd (Reg.ACT_EPOCH.EPOCH a))).getD 0

/-- A use of an account's rule epoch finds a corrupt counterfoil (R98). -/
def State.checkEpoch (s : State) (a : Nat) : State := if (cfVal (s.rd (Reg.ACT_EPOCH.EPOCH a))).isSome then s else s.cfCorrupt (0x40 + a)

/-- The account of a held access. -/
def heldAcct : Instr → Option Nat
  | .hbmRead _ _ acct _ => some acct
  | .hbmPartialWrite _ _ acct _ _ _ => some acct
  | _ => none

/-- The accesses of an account that wait for a stack or a bank, and were accepted at or before an instant. A full write carries no account, so
it counts for every one (log entry 46). -/
def State.heldAccesses (s : State) (a limit : Nat) : Nat :=
  (s.hbmWait.filter fun e => decide (e.1 ≤ limit) && (heldAcct e.2).all fun x => x = a).length
    + (s.bankWait.filter fun x => decide (x.entered ≤ limit) && x.acct = a).length

/-- Admitted ops of an account under an old epoch, its held accesses of before the last apply edge, and its outstanding fabric requests sent
before it (R389, R449). -/
def State.oldOps (s : State) (a : Nat) : List Op := s.ops.filter fun o => o.acct = a && o.epoch ≠ s.epochOf a
def State.oldHeld (s : State) (a : Nat) : Nat := s.heldAccesses a (tblGet 0 s.epochAt a)
def State.oldReqs (s : State) (a : Nat) : List FabReq := s.requests.filter fun r => r.owner.1 = a && decide (r.entered ≤ tblGet 0 s.epochAt a)

/-- Bring ACT_OLD up to date on the accounts that drain. -/
def State.refreshOld (s : State) : State :=
  (List.range 32).foldl (fun t a =>
    if t.on (Reg.ACT_STA.DRAINED a) then t
    else (t.wr (Reg.ACT_OLD.LOCAL a) ((t.oldOps a).length + t.oldHeld a)).wr (Reg.ACT_OLD.REMOTE a) (t.oldReqs a).length) s

/-- ACT: a dirty page increments its epoch and clears DRAINED; banks it loses wait for their zero-fill (R386, R389, R391). -/
def State.actApplied (old s : State) (a : Nat) : State :=
  if old.rd (Reg.STAGE_DIRTY.CLUSTER (0x40 + a)) = 0 then s
  else
    let e := s.epochOf a
    let t := (((s.checkEpoch a).wr (Reg.ACT_EPOCH.EPOCH a) (cfOf ((e + 1) % 65536))).wrb (Reg.ACT_STA.DRAINED a) false).raise (0x40 + a) 1
    let t := ({ t with epochAt := tblSet 0 t.epochAt a t.uptime } : State).refreshOld
    let lost (h : Nat) := old.ownedBanks a h &&& (2 ^ 48 - 1 - t.ownedBanks a h)
    let t := [0, 1].foldl (fun t h => { t with scrub := tblMod 0 t.scrub (2 * a + h) (· ||| lost h) }) t
    if lost 0 = 0 ∧ lost 1 = 0 then t else t.wrb (Reg.ACT_STA.SCRUBBING a) true

/-- BNK: every bank that enters or leaves the secure region is wiped (R517). -/
def State.bnkApplied (old s : State) (half : Nat) : State :=
  s.startWipe half (old.secureMask half ^^^ s.secureMask half)

/-- FOL: a pool whose configuration changes has every slot free (R546). -/
def State.folApplied (old s : State) (half : Nat) : State :=
  (List.range 64).foldl (fun t p =>
    if old.cell (Reg.FOL_POOL_BASE.BASE half p).key ≠ t.cell (Reg.FOL_POOL_BASE.BASE half p).key
        ∨ old.cell (Reg.FOL_POOL_CFG.PAGES half p).key ≠ t.cell (Reg.FOL_POOL_CFG.PAGES half p).key
        ∨ old.cell (Reg.FOL_POOL_STRIDE.LINES half p).key ≠ t.cell (Reg.FOL_POOL_STRIDE.LINES half p).key
    then ({ t with pools := tblSet default t.pools (64 * half + p) default } : State).wr (Reg.FOL_POOL_FREE.FREE half p)
      (t.rd (Reg.FOL_POOL_CFG.PAGES half p))
    else t) s

/-- Bring COL_STA.GROUPS up to date. -/
def State.refreshGroups (s : State) : State :=
  let n := (s.groups.filter fun g => g.2.live.isSome).length
  (s.wr (Reg.COL_STA.GROUPS 0) n).wr (Reg.COL_STA.GROUPS 1) n

/-- One group's PENDING version becomes LIVE; the former LIVE one is retained while an op under it runs (R637). -/
def State.promoteGroup (s : State) (g : Nat) : State :=
  let x := s.group g
  match x.pending with
  | none => s
  | some p =>
    let kept := (x.live.filter fun v => s.groupBusy g v.epoch).orElse fun _ => x.retained
    ({ s with groups := tblSet default s.groups g { x with live := some p, pending := none, retained := kept } } : State).refreshGroups.raise 0x280 5

/-- COL_A: every VALID promote slot takes effect and clears in both views. -/
def State.colApplied (s : State) : State :=
  (List.range 16).foldl (fun t i =>
    if t.on (Reg.COL_PROMOTE.VALID 0 i) then (t.promoteGroup (t.rd (Reg.COL_PROMOTE.GROUP 0 i))).wrBoth (Reg.COL_PROMOTE.VALID 0 i) 0 else t) s

/-- LSC: the load of R746. -/
def State.lscApplied (s : State) : State :=
  if s.on Reg.LSC_LOAD.VALID then
    let t := (s.wr Reg.LSC_K.K (s.rd Reg.LSC_K_SET.K)).wr Reg.LSC_RUN.RUN (s.rd Reg.LSC_LOAD.RUN_SET)
    let step := s.rd Reg.LSC_STEP_SET.STEP
    let t := ((t.wr Reg.LSC_DEC_STEP.STEP step).wr Reg.LSC_DEC.DECISION 0).wrb Reg.LSC_DEC.BEHIND false
    ({ t with lastCommit := some step } : State).wrBoth Reg.LSC_LOAD.VALID 0
  else s

/-- DSP: TIL_STA.URGENT_ONLY shows the tile that URGENT_TILE names (R478). -/
def State.dspApplied (s : State) (half : Nat) : State :=
  (List.range 24).foldl (fun t i => t.wrb (Reg.TIL_STA.URGENT_ONLY (24 * half + i)) (decide (s.rd (Reg.DSP_CFG.URGENT_TILE half) = i))) s

/-- What follows the apply edge on one page. -/
def State.pageApplied (old s : State) (badFormat pg : Nat) : State :=
  match pageKind pg with
  | some (.sup, _) => State.supApplied old s badFormat
  | some (.spx, u) => State.spxApplied old s u
  | some (.act, a) => State.actApplied old s a
  | some (.bnk, h) => State.bnkApplied old s h
  | some (.dsp, h) => s.dspApplied h
  | some (.fol, h) => State.folApplied old s h
  | some (.col, h) => if h = 0 then s.colApplied else s
  | some (.lsc, _) => s.lscApplied
  | _ => s

/-- A post may set SPX1's role: SVC's through slot 1, and SEC's through slot 2, but in a halt or in RECOVERY SPX1 stays a slave (R78, R222). -/
def State.postsRole (s : State) (n : Nat) : Bool :=
  (n = 1 || (n = 2 && !s.boot.firstPwr)) && s.stage ≠ Stage.HALTED && s.stage ≠ Stage.RECOVERY

/-- The apply edge of a post through slot `n`: every page takes its staged values, and then what follows from them. A staged role of SPX1 that
the post may not set takes the live value instead (log entry 58). -/
def State.applyMask (s : State) (n mask badFormat : Nat) : State :=
  let pages := s.pagesIn mask
  let f := Reg.SPX_MODE.ROLE 1
  let t := pages.foldl State.copyPage (if s.postsRole n ∨ !pages.contains 6 then s else s.setStaged f.key (s.cell f.key))
  pages.foldl (fun t pg => State.pageApplied s t badFormat pg) t

/-! Slots (R78-R82). -/

/-- The mask of a slot's running action. -/
def State.slot (s : State) (n : Nat) : PostSlot := tblGet default s.slots n
def State.setSlot (s : State) (n : Nat) (x : PostSlot) : State := { s with slots := tblSet default s.slots n x }

/-- GLB_POST_STA[s].STATE. -/
abbrev PostSt.IDLE : Nat := 0
abbrev PostSt.CHECKING : Nat := 1
abbrev PostSt.ARMED : Nat := 2
abbrev PostSt.APPLIED : Nat := 3
abbrev PostSt.REJECTED : Nat := 4
abbrev PostSt.CHECKED : Nat := 5

def State.postSt (s : State) (n : Nat) : Nat := s.rd (Reg.GLB_POST_STA.STATE n)

/-- The slot's action is CHECKING or ARMED. -/
def State.slotBusy (s : State) (n : Nat) : Bool := s.postSt n = PostSt.CHECKING || s.postSt n = PostSt.ARMED

/-- Bring GLB_POST_BUSY up to date. -/
def State.refreshBusy (s : State) : State :=
  s.wr Reg.GLB_POST_BUSY.GROUPS ((List.range 4).foldl (fun m n => if s.slotBusy n then m ||| (s.slot n).mask else m) 0)

/-- A slot's action ends: its state, code, reason and page; POST_DONE[s] is raised (R78). -/
def State.endSlot (s : State) (n st code reason page : Nat) : State :=
  let t := (((s.wr (Reg.GLB_POST_STA.STATE n) st).wr (Reg.GLB_POST_STA.CODE n) code).wr (Reg.GLB_POST_STA.REASON n) reason).wr
    (Reg.GLB_POST_STA.PAGE n) page
  (t.refreshBusy.lastStatus 0 code).raise 0 (4 + n)

/-! Staging by the clerks. -/

/-- A staged field is written: its STAGE_DIRTY bit is set (R76). -/
def State.stageFld (s : State) (f : Fld) (v : Nat) : State :=
  let pg := f.key / 0x1000
  let d := Reg.STAGE_DIRTY.CLUSTER pg
  let t := s.setStaged f.key (f.put (s.stagedCell f.key) v)
  t.wr d (setBit (t.rd d) (f.key % 0x1000 / 64) true)

/-- A staged register takes the bits that a write sets. -/
def State.stageRaw (s : State) (key v : Nat) : State :=
  match regRowAt key with
  | some (r, _) => s.stageFld ⟨key, 0, 64⟩ (v &&& r.rw)
  | none => s

/-- A staged counterfoil is written. -/
def State.stageCf (s : State) (f : Fld) (v : Nat) : State := s.stageFld f (cfOf v)

/-- SEC's post token: any that differs from the slot's and is not 0 (log entry 25). -/
def State.secToken (s : State) : Nat :=
  let v := 1 + Config.freeNat s.free % 65534
  let cur := s.rd (Reg.GLB_POST_STA.TOKEN 2)
  if cur ≠ 0 ∧ cur ≤ v then v + 1 else v

/-- A post of SEC's through slot 2, from start to end: the first violation, or none when it applied. -/
def State.secPost (s : State) (mask badFormat : Nat) : State × Option (Nat × Violation) :=
  let tok := s.secToken
  let t := (s.skipFree 1).setCell (Reg.GLB_POST_CTL.MASK 2).key (BitVec.ofNat 64 (cfOf (mask + tok * 65536)))
  let t := ((t.wr (Reg.GLB_POST_MODE.ACTION 2) 0).wr (Reg.GLB_POST_MODE.TIMED 2) 0).wr (Reg.GLB_POST_STA.ACK 2) Code.OK
  let t := t.wr (Reg.GLB_POST_STA.TOKEN 2) tok
  match t.runChecker mask with
  | some (pg, v) => (t.endSlot 2 PostSt.REJECTED v.code v.reason pg, some (pg, v))
  | none => (((t.applyMask 2 mask badFormat).wr (Reg.GLB_POST_AT.NS 2) t.now).endSlot 2 PostSt.APPLIED Code.OK 0 0, none)

end Sys2Proof.Machine
end

