-- ==== Sys2Proof/Machine/OpSpec.lean ====
section
/-!
DEFINITION. What admission checks of each op's body: its encoding, the units, tallies, operands, ranges and limits it names
(R39, R383-R385, R413-R418, R460-R470, R548-R558, R605-R607, R639-R649, R687-R690, R708-R735).
-/
namespace Sys2Proof.Machine

/-! Descriptor fields. -/

/-- The bytes of a descriptor from offset `o` are 0. -/
def zeroAt (d : Desc) (o n : Nat) : Bool := descAt d o n = 0

/-- An operand slot (R414). -/
structure Operand where
  addr : Nat
  len : Nat
  fmt : Nat
  aux : Nat
  hi : Nat
deriving DecidableEq, Repr, Inhabited

/-- The operand slot at an offset. -/
def operandAt (d : Desc) (o : Nat) : Operand :=
  ⟨descAt d o 8 % 2 ^ 52, descAt d (o + 8) 4, descAt d (o + 12) 1, descAt d (o + 13) 3, descAt d o 8 / 2 ^ 52⟩

/-- An operand as admission sees it, and the access its op needs. -/
structure Use where
  opd : Operand
  rd : Bool
  wr : Bool
deriving DecidableEq, Repr

/-- What checks 2 and 4-8 of R416 test of an op's body: the tests that its encoding is defined, each with the operand it is about
(15: none), the units present, the tallies named, the operands, whether every folio, group and pool named lies in the account's
ranges, whether every count is within its limit. -/
structure OpSpec where
  body : List (Nat × Bool)
  units : Bool
  tallies : List Nat
  uses : List Use
  ranges : Bool
  limits : Bool
deriving DecidableEq, Repr

/-- The operand of the first failing test of a body. -/
def OpSpec.badIdx (p : OpSpec) : Option Nat := (p.body.find? fun c => !c.2).map (·.1)

/-- A well-formed operand slot with no AUX: its format is accepted, or 0 while its length is 0 (R417). -/
def Operand.ok (x : Operand) (fmts : List Nat) : Bool := x.hi = 0 && x.aux = 0 && (fmts.contains x.fmt || (x.len = 0 && x.fmt = 0))

/-- As `Operand.ok`, with an AUX that the op defines. -/
def Operand.okAux (x : Operand) (fmts : List Nat) : Bool := x.hi = 0 && (fmts.contains x.fmt || (x.len = 0 && x.fmt = 0))

/-- Two operands of non-zero length share a byte. -/
def Operand.meets (x y : Operand) : Bool := rangesMeet x.addr x.len y.addr y.len

/-- Two operands coincide exactly (R461). -/
def Operand.same (x y : Operand) : Bool := x.addr = y.addr && x.len = y.len && x.fmt = y.fmt

def nonMx : List Nat := [Fmt.FP32, Fmt.BF16, Fmt.E4M3, Fmt.E5M2]
def mxFmts : List Nat := [Fmt.MXE4M3, Fmt.MXE5M2, Fmt.MXFP4, Fmt.MXINT8]
def fp8Fmts : List Nat := [Fmt.E4M3, Fmt.E5M2]

/-! Tile ops (R460-R470). -/

/-- No operand read or written has length 0 and no count is 0. -/
def hasWork (counts : List Nat) (xs : List Operand) : Bool := counts.all (· ≠ 0) && xs.all fun x => x.len ≠ 0

/-- The length of operand `i` equals the implied one unless the op has no work. -/
def lenOk (work : Bool) (i : Nat) (x : Operand) (n : Nat) : Nat × Bool := (i, !work || x.len = n)

def specCopy (d : Desc) : OpSpec :=
  let x := operandAt d 0x40
  let y := operandAt d 0x50
  ⟨[(0, x.ok [Fmt.RAW]), (1, y.ok [Fmt.RAW]), (15, zeroAt d 0x60 32), lenOk (hasWork [] [x, y]) 1 y x.len, (1, !y.meets x)],
    true, [], [⟨operandAt d 0x40, true, false⟩, ⟨operandAt d 0x50, false, true⟩], true, true⟩

def specFill (d : Desc) : OpSpec :=
  ⟨[(0, (operandAt d 0x40).ok [Fmt.RAW]), (15, zeroAt d 0x58 40)], true, [], [⟨operandAt d 0x40, false, true⟩], true, true⟩

/-- Rows and row length of QUANTISE: ROW 0 makes one row of the whole (R464). -/
def quantiseRows (d : Desc) : Nat × Nat :=
  let count := descAt d 0x60 4
  let row := descAt d 0x64 4
  if row = 0 then (1, count) else (count / row, row)

def specQuantise (d : Desc) : OpSpec :=
  let x := operandAt d 0x40
  let y := operandAt d 0x50
  let count := descAt d 0x60 4
  let row := descAt d 0x64 4
  let r := quantiseRows d
  let work := hasWork [count] [x, y]
  ⟨[(0, x.ok (nonMx ++ mxFmts)), (1, y.ok (nonMx ++ mxFmts)), (15, zeroAt d 0x68 24), (15, row = 0 || count % row = 0),
    lenOk work 0 x (implied x.fmt r.1 r.2), lenOk work 1 y (implied y.fmt r.1 r.2), (1, !y.meets x)],
    true, [], [⟨operandAt d 0x40, true, false⟩, ⟨operandAt d 0x50, false, true⟩], true, decide (count ≤ 2 ^ 30) && decide (row ≤ 2 ^ 20)⟩

def specGather (d : Desc) : OpSpec :=
  let t := operandAt d 0x40
  let x := operandAt d 0x50
  let y := operandAt d 0x60
  let rb := descAt d 0x70 4
  let rows := descAt d 0x74 4
  let work := hasWork [rb, rows] [t, x, y]
  ⟨[(0, t.ok [Fmt.RAW]), (1, x.ok [Fmt.INT32]), (2, y.ok [Fmt.RAW]), (15, zeroAt d 0x78 8),
    lenOk work 0 t (rows * rb), lenOk work 2 y (x.len / 4 * rb), (2, !y.meets t), (2, !y.meets x)],
    true, [], [⟨operandAt d 0x40, true, false⟩, ⟨operandAt d 0x50, true, false⟩, ⟨operandAt d 0x60, false, true⟩], true,
    decide (rb ≤ 65536) && decide (rows ≤ 2 ^ 31 - 1) && decide (x.len / 4 ≤ 2 ^ 24)⟩

/-- The formats of A and B go together (R465); an operand of length 0 may leave its format 0. -/
def gemmFormats (fa fb : Nat) : Bool :=
  fa = 0 || fb = 0 || (fa = Fmt.BF16 && fb = Fmt.BF16) || (fp8Fmts.contains fa && fp8Fmts.contains fb) || (isMx fa && isMx fb)

def specGemm (d : Desc) : OpSpec :=
  let a := operandAt d 0x40
  let b := operandAt d 0x50
  let c := operandAt d 0x60
  let m := descAt d 0x70 4
  let n := descAt d 0x74 4
  let k := descAt d 0x78 4
  let f := descAt d 0x7C 4
  let ta := bit f 0
  let tb := bit f 1
  let acc := bit f 2
  let ins := Fmt.BF16 :: fp8Fmts ++ mxFmts
  let work := hasWork [m, n, k] [a, b, c]
  ⟨[(0, a.ok ins), (1, b.ok ins), (2, c.ok nonMx), (15, decide (f < 8)), (15, gemmFormats a.fmt b.fmt),
    (0, !isMx a.fmt || !ta), (1, !isMx b.fmt || tb), (2, !acc || c.fmt = Fmt.FP32 || c.fmt = 0),
    lenOk work 0 a (if ta then implied a.fmt k m else implied a.fmt m k), lenOk work 1 b (if tb then implied b.fmt n k else implied b.fmt k n),
    lenOk work 2 c (implied c.fmt m n), (2, !c.meets a), (2, !c.meets b)],
    true, [], [⟨operandAt d 0x40, true, false⟩, ⟨operandAt d 0x50, true, false⟩, ⟨operandAt d 0x60, acc, true⟩], true,
    decide (m ≤ 2 ^ 20) && decide (n ≤ 2 ^ 20) && decide (k ≤ 2 ^ 24)⟩

/-- The functions of ELTWISE that use Y (R468). -/
def eltUsesY (func : Nat) : Bool := func = 0 || func = 1 || func = 6

def specEltwise (d : Desc) : OpSpec :=
  let x := operandAt d 0x40
  let y := operandAt d 0x50
  let z := operandAt d 0x60
  let func := descAt d 0x70 2
  let count := descAt d 0x74 4
  let work := hasWork [count] (if eltUsesY func then [x, y, z] else [x, z])
  ⟨[(0, x.ok nonMx), (1, y.ok nonMx), (2, z.ok nonMx), (15, decide (func ≤ 9)), (15, zeroAt d 0x72 2), (1, eltUsesY func || y.len = 0),
    lenOk work 0 x (implied x.fmt 1 count), lenOk (work && eltUsesY func) 1 y (implied y.fmt 1 count), lenOk work 2 z (implied z.fmt 1 count),
    (2, !z.meets x || z.same x), (2, !z.meets y || z.same y)],
    true, [], [⟨operandAt d 0x40, true, false⟩, ⟨operandAt d 0x50, true, false⟩, ⟨operandAt d 0x60, false, true⟩], true, decide (count ≤ 2 ^ 30)⟩

def specNorm (d : Desc) : OpSpec :=
  let x := operandAt d 0x40
  let w := operandAt d 0x50
  let y := operandAt d 0x60
  let rows := descAt d 0x70 4
  let row := descAt d 0x74 4
  let ins := [Fmt.FP32, Fmt.BF16]
  let work := hasWork [rows, row] [x, w, y]
  ⟨[(0, x.ok ins), (1, w.ok ins), (2, y.ok nonMx), (15, decide (descAt d 0x7C 4 ≤ 1)),
    lenOk work 0 x (implied x.fmt rows row), lenOk work 1 w (implied w.fmt 1 row), lenOk work 2 y (implied y.fmt rows row),
    (2, !y.meets x), (2, !y.meets w)],
    true, [], [⟨operandAt d 0x40, true, false⟩, ⟨operandAt d 0x50, true, false⟩, ⟨operandAt d 0x60, false, true⟩], true, decide (row ≤ 65536) && decide (rows ≤ 2 ^ 24)⟩

def specSoftmax (d : Desc) : OpSpec :=
  let x := operandAt d 0x40
  let y := operandAt d 0x50
  let rows := descAt d 0x60 4
  let row := descAt d 0x64 4
  let fs := [Fmt.FP32, Fmt.BF16]
  let work := hasWork [rows, row] [x, y]
  ⟨[(0, x.ok fs), (1, y.ok fs), (15, zeroAt d 0x6C 20),
    lenOk work 0 x (implied x.fmt rows row), lenOk work 1 y (implied y.fmt rows row), (1, !y.meets x)],
    true, [], [⟨operandAt d 0x40, true, false⟩, ⟨operandAt d 0x50, false, true⟩], true, decide (row ≤ 2 ^ 20) && decide (rows ≤ 2 ^ 24)⟩

/-! Ops of the ring chapter (R415, R438). -/

def specNop (d : Desc) : OpSpec := ⟨[(15, zeroAt d 0x40 64)], true, [], [], true, true⟩

def specTallyCas (d : Desc) : OpSpec :=
  ⟨[(15, decide (descAt d 0x40 4 < 2 ^ 18) && zeroAt d 0x44 4 && zeroAt d 0x58 40)], true, [descAt d 0x40 4], [], true, true⟩

/-! Folio ops (R539, R547-R557). -/

/-- The account's folio range holds a folio. -/
def State.folioOf (s : State) (a f : Nat) : Bool :=
  decide (s.rd (Reg.ACT_FOLIO.FIRST a) ≤ f) && decide (f < s.rd (Reg.ACT_FOLIO.FIRST a) + s.rd (Reg.ACT_FOLIO.COUNT a))

/-- The account's group range holds a group. -/
def State.groupOf (s : State) (a g : Nat) : Bool :=
  decide (s.rd (Reg.ACT_GROUPS.FIRST a) ≤ g) && decide (g < s.rd (Reg.ACT_GROUPS.FIRST a) + s.rd (Reg.ACT_GROUPS.COUNT a))

def State.poolPages (s : State) (p : Nat) : Nat := s.rd (Reg.FOL_POOL_CFG.PAGES (p / 64) (p % 64))

def specFolioOpen (s : State) (a half : Nat) (d : Desc) : OpSpec :=
  let f := descAt d 0x40 2
  let p := descAt d 0x4C 1
  let pool := decide (128 ≤ p) || (s.poolPages p ≠ 0 && s.rd (Reg.FOL_POOL_CFG.OWNER (p / 64) (p % 64)) = a)
  ⟨[(15, f / 512 = half && decide (descAt d 0x42 1 ≤ 1) && zeroAt d 0x4E 2 && zeroAt d 0x58 40)], true, [], [], s.folioOf a f && pool, true⟩

def specFolioClose (s : State) (a half : Nat) (d : Desc) : OpSpec :=
  let f := descAt d 0x40 2
  ⟨[(15, f / 512 = half && zeroAt d 0x42 62)], true, [], [], s.folioOf a f, true⟩

def specFolioLink (s : State) (a half : Nat) (d : Desc) : OpSpec :=
  let f := descAt d 0x40 2
  ⟨[(15, f / 512 = half && zeroAt d 0x42 2 && zeroAt d 0x51 47)], true, [], [], s.folioOf a f, decide (descAt d 0x48 4 ≤ 131072)⟩

def specAppendKv (s : State) (a half : Nat) (d : Desc) : OpSpec :=
  let k := operandAt d 0x40
  let v := operandAt d 0x50
  let f := descAt d 0x60 2
  ⟨[(0, k.ok [Fmt.FP32, Fmt.BF16]), (1, v.ok [Fmt.FP32, Fmt.BF16]), (15, f / 512 = half && zeroAt d 0x63 1 && zeroAt d 0x6C 20)],
    true, [], [⟨k, true, false⟩, ⟨v, true, false⟩], s.folioOf a f, decide (descAt d 0x64 4 ≤ 65536)⟩

def specAttend (s : State) (a half : Nat) (d : Desc) : OpSpec :=
  let q := operandAt d 0x40
  let o := operandAt d 0x50
  let f := descAt d 0x60 2
  ⟨[(0, q.ok [Fmt.FP32, Fmt.BF16]), (1, o.ok [Fmt.FP32, Fmt.BF16]),
    (15, f / 512 = half && decide (descAt d 0x63 1 < 4) && zeroAt d 0x78 8), (1, !o.meets q)],
    true, [], [⟨q, true, false⟩, ⟨o, false, true⟩], s.folioOf a f, decide (descAt d 0x64 2 ≤ 4096) && decide (descAt d 0x66 2 ≤ 256)⟩

/-! Fabric transfers (R512, R592, R593, R606, R607). -/

/-- The mesh port of member `m`, and the port of plane `k`, live. -/
def State.meshPort (s : State) (m : Nat) : Nat := View.meshPort s.rd m
def State.uplinkPort (s : State) (k : Nat) : Nat := View.uplinkPort s.rd k
def State.node (s : State) : Nat := s.rd Reg.XPT_NODE.NODE
/-- A node of this chip's pod. -/
def State.inPod (s : State) (n : Nat) : Bool := n / 16 = s.node / 16
/-- The configured planes, in ascending order. -/
def State.planes (s : State) : List Nat := (List.range 3).filter fun k => s.portPresent (s.uplinkPort k)

/-- A port or plane towards a node is present. -/
def State.reachable (s : State) (n : Nat) : Bool :=
  n = s.node || (if s.inPod n then s.portPresent (s.meshPort (n % 16)) else !s.planes.isEmpty)

/-- A field with a VALID bit 31 and a tally in bits 17:0, with its value: reserved bits 0, and 0 throughout without VALID (R413). -/
def validTally (f v : Nat) : Bool := if bit f 31 then f % 2 ^ 31 < 2 ^ 18 else f = 0 && v = 0

def specFabWrite (s : State) (d : Desc) : OpSpec :=
  let x := operandAt d 0x40
  ⟨[(0, x.ok [Fmt.RAW]), (15, decide (descAt d 0x52 1 < 32) && decide (descAt d 0x53 1 < 16) && zeroAt d 0x54 4
      && validTally (descAt d 0x60 4) (descAt d 0x68 8) && zeroAt d 0x64 4 && zeroAt d 0x70 16)],
    s.reachable (descAt d 0x50 2), [], [⟨x, true, false⟩], !s.touchesSecure x.addr x.len, decide (x.len ≤ 2 ^ 22)⟩

def specFabRead (s : State) (d : Desc) : OpSpec :=
  let x := operandAt d 0x40
  ⟨[(0, x.ok [Fmt.RAW]), (15, decide (descAt d 0x52 1 < 32) && decide (descAt d 0x53 1 < 16) && zeroAt d 0x54 4 && zeroAt d 0x60 32)],
    s.reachable (descAt d 0x50 2), [], [⟨x, false, true⟩], !s.touchesSecure x.addr x.len, decide (x.len ≤ 2 ^ 22)⟩

/-! Collectives and MINT (R638-R641, R688-R691). -/

/-- The members of a group's LIVE version; 0 without one. -/
def State.liveMembers (s : State) (g : Nat) : Nat := match (s.group g).live with | some v => v.list.length | none => 0

/-- The STAT extent of a collective (R641). -/
def State.statOperand (s : State) (d : Desc) : Operand :=
  let w := descAt d 0x78 8
  let len := if bit (descAt d 0x63 1) 4 then 64 + ((s.liveMembers (descAt d 0x60 2) + 7) / 8 + 63) / 64 * 64 else 64
  ⟨w % 2 ^ 52, if bit w 63 then len else 0, Fmt.RAW, 0, 0⟩

/-- An operand slot whose format is any defined one. -/
def Operand.okAny (x : Operand) : Bool := x.hi = 0 && x.aux = 0 && (fmtUnit x.fmt ≠ 0 || (x.len = 0 && x.fmt = 0))

def specColl (s : State) (a : Nat) (d : Desc) : OpSpec :=
  let op := descAt d 0 2
  let x := operandAt d 0x40
  let y := operandAt d 0x50
  let flags := descAt d 0x63 1
  let red := descAt d 0x62 1
  let w := descAt d 0x78 8
  let st := s.statOperand d
  let clear := bit flags 0
  let root := (s.group (descAt d 0x60 2)).live.any fun v => v.rank = descAt d 0x66 2
  let same := x.addr = y.addr && x.len = y.len && (op = 0x0400 || (op = 0x0403 && root)) && !clear
  ⟨[(0, x.okAny), (1, y.okAny),
      (15, decide (flags < 32) && (if op ≤ 0x0401 then decide (red ≤ 2) else red = 0) && (op = 0x0403 || zeroAt d 0x66 2)),
      (15, if bit w 63 then w % 64 = 0 && bits w 52 11 = 0 else w = 0),
      (1, !y.meets x || same), (15, !st.meets x && !st.meets y), (15, !bit flags 1 || clear),
      (15, !bit flags 3 || (decide (op ≤ 0x0401) && red = 0 && (x.fmt = Fmt.FP32 || x.fmt = Fmt.BF16)))],
    true, [], [⟨x, true, clear⟩, ⟨y, false, true⟩, ⟨st, false, true⟩], s.groupOf a (descAt d 0x60 2), decide (x.len ≤ 2 ^ 30)⟩

/-- Elements of the gradients of a MINT, of an UPDATE. -/
def gradElems (x : Operand) : Nat := x.len / fmtUnit x.fmt

def specMint (s : State) (a : Nat) (d : Desc) : OpSpec :=
  let g := operandAt d 0x40
  let l := operandAt d 0x50
  let y := operandAt d 0x60
  let p := operandAt d 0x70
  let fs := [Fmt.FP32, Fmt.BF16]
  let n := gradElems g
  let q := p.aux % 256
  let flags := p.aux / 256
  let clear := bit flags 0
  ⟨[(0, g.okAux fs && decide (g.aux < 4096)), (1, l.okAux fs && decide (1 ≤ l.aux) && decide (l.aux ≤ 4096)),
      (2, y.okAux fs && decide (y.aux < 65536)),
      (3, p.okAux [Fmt.RAW] && (q = Fmt.MXINT8 || q = Fmt.MXFP4) && decide (flags < 16) && (!bit flags 1 || clear)),
      (1, l.len = n * fmtUnit l.fmt && (n = 0 || l.len ≠ 0)), (2, y.len = n * fmtUnit y.fmt && (n = 0 || y.len ≠ 0)), (3, p.len = 128 && p.addr % 64 = 0),
      (1, !g.meets l), (2, !g.meets y && !l.meets y), (3, !g.meets p && !l.meets p && !y.meets p)],
    s.mntPresent, [], [⟨g, true, clear⟩, ⟨l, true, true⟩, ⟨y, false, true⟩, ⟨p, true, true⟩], s.groupOf a g.aux, decide (n ≤ 2 ^ 28)⟩

/-! The training step (R716-R738). -/

/-- The training context belongs to the account (R718). -/
def State.lscOwner (s : State) (a : Nat) : Bool := s.on Reg.LSC_OWNER.ENABLE && s.rd Reg.LSC_OWNER.ACCOUNT = a

/-- Granules of the mirror map (R733). -/
def State.granuleCount (s : State) : Nat := (List.range 8).foldl (fun n i => n + s.rd (Reg.LSC_MSRC.GRANULES i)) 0

def specUpdate (s : State) (a : Nat) (d : Desc) : OpSpec :=
  let w := operandAt d 0x40
  let m := operandAt d 0x50
  let r := operandAt d 0x60
  let g := operandAt d 0x70
  let n := gradElems g
  ⟨[(0, w.okAux [Fmt.RAW] && decide (w.aux < 256)), (1, m.okAux [Fmt.MXINT8]), (2, r.okAux [Fmt.MXE4M3] && decide (r.aux < 2)),
      (3, g.okAux [Fmt.FP32, Fmt.BF16] && n % 1024 = 0 && g.len = n * fmtUnit g.fmt), (0, w.len = 4 * n),
      (1, m.len = implied Fmt.MXINT8 1 n), (2, r.len = implied Fmt.MXE4M3 1 n), (1, !w.meets m), (2, !w.meets r && !m.meets r),
      (3, !w.meets g && !m.meets g && !r.meets g)],
    s.updPresent, [], [⟨w, true, true⟩, ⟨m, true, true⟩, ⟨r, true, true⟩, ⟨g, true, false⟩], s.lscOwner a, decide (n ≤ 2 ^ 28)⟩

def specStepClose (s : State) (a : Nat) (d : Desc) : OpSpec :=
  let x := operandAt d 0x40
  let o := operandAt d 0x50
  ⟨[(0, x.ok [Fmt.RAW] && x.len % 8 = 0), (1, o.ok [Fmt.RAW] && (o.len = 0 || o.len = 8)),
      (15, decide (descAt d 0x68 1 < 4) && zeroAt d 0x69 3 && zeroAt d 0x70 16)],
    s.lscPresent, [], [⟨x, true, false⟩, ⟨o, false, true⟩], s.lscOwner a, decide (x.len / 8 ≤ 4096)⟩

def specMirror (s : State) (a : Nat) (d : Desc) : OpSpec :=
  let m := operandAt d 0x40
  let flags := descAt d 0x58 1
  ⟨[(0, m.ok [Fmt.RAW]), (15, decide (flags < 4) && zeroAt d 0x59 3 && zeroAt d 0x60 32),
      (0, m.len = (if bit flags 0 then 8 * s.granuleCount else 0))],
    s.lscPresent, [], [⟨m, true, false⟩], s.lscOwner a, true⟩

def specCommit (s : State) (a : Nat) (d : Desc) : OpSpec :=
  let r := operandAt d 0x40
  ⟨[(0, r.ok [Fmt.RAW]), (15, decide (descAt d 0x58 1 < 2) && zeroAt d 0x59 7 && zeroAt d 0x68 24)],
    s.lscPresent, [], [⟨r, true, false⟩], s.lscOwner a, decide (r.len ≤ 8192)⟩

/-- The checks of a descriptor's op from a ring of account `a` and half `half`; none: the opcode is reserved (R415). -/
def State.opSpec (s : State) (a half : Nat) (d : Desc) : Option OpSpec :=
  let op := descAt d 0 2
  if op = 0x0001 then some (specNop d)
  else if op = 0x0002 then some (specTallyCas d)
  else if op = 0x0100 then some (specCopy d)
  else if op = 0x0101 then some (specFill d)
  else if op = 0x0102 then some (specQuantise d)
  else if op = 0x0103 then some (specGather d)
  else if op = 0x0110 then some (specGemm d)
  else if op = 0x0120 then some (specEltwise d)
  else if op = 0x0130 then some (specNorm d)
  else if op = 0x0131 then some (specSoftmax d)
  else if op = 0x0200 then some (specFolioOpen s a half d)
  else if op = 0x0201 then some (specFolioClose s a half d)
  else if op = 0x0202 then some (specAppendKv s a half d)
  else if op = 0x0203 then some (specAttend s a half d)
  else if op = 0x0204 then some (specFolioLink s a half d)
  else if op = 0x0300 then some (specFabWrite s d)
  else if op = 0x0301 then some (specFabRead s d)
  else if 0x0400 ≤ op ∧ op ≤ 0x0404 then some (specColl s a d)
  else if op = 0x0500 then some (specMint s a d)
  else if op = 0x0600 then some (specUpdate s a d)
  else if op = 0x0601 then some (specStepClose s a d)
  else if op = 0x0602 then some (specMirror s a d)
  else if op = 0x0603 then some (specCommit s a d)
  else none

end Sys2Proof.Machine
end

