-- ==== Sys2Proof/Machine/RingOps.lean ====
section
/-!
DEFINITION. Rings, tallies and watches, completion records, admission, issue and completion of an op (R385, R407-R440, R476).
-/
namespace Sys2Proof.Machine

/-! Rings and ops. -/

abbrev RingSt.DISABLED : Nat := 0
abbrev RingSt.RUNNING : Nat := 1
abbrev RingSt.DRAINING : Nat := 2
abbrev RingSt.FAULT : Nat := 3

/-- The index of a ring page: 32 * account + ring. -/
def ringIx (a r : Nat) : Nat := 32 * a + r
def State.ringSt (s : State) (u : Nat) : Nat := s.rd (Reg.RING_STA.STATE u)
def State.ringHalf (s : State) (u : Nat) : Nat := s.rd (Reg.RING_CFG.HALF u)
def State.ringX (s : State) (u : Nat) : Ring := tblGet default s.rings u
def State.setRingX (s : State) (u : Nat) (x : Ring) : State := { s with rings := tblSet default s.rings u x }
def State.lastCode (s : State) (u code : Nat) : State := s.wr (Reg.RING_STA.LAST_CODE u) code
/-- Slots of a ring. -/
def State.ringSize (s : State) (u : Nat) : Nat := 2 ^ s.rd (Reg.RING_CFG.SIZE_LOG2 u)

def Op.u (o : Op) : Nat := ringIx o.acct o.ring
def Op.is (o : Op) (a r seq : Nat) : Bool := o.acct = a && o.ring = r && o.seq = seq
def Op.issued (o : Op) : Bool := o.phase ≠ .waiting
def State.opAt (s : State) (a r seq : Nat) : Option Op := s.ops.find? fun o => o.is a r seq
def State.setOp (s : State) (o : Op) : State := { s with ops := s.ops.map fun x => if x.is o.acct o.ring o.seq then o else x }
def State.dropOp (s : State) (o : Op) : State := { s with ops := s.ops.filter fun x => !x.is o.acct o.ring o.seq }
def State.ringOps (s : State) (u : Nat) : List Op := s.ops.filter fun o => o.u = u
/-- The home half of an op. -/
def State.opHalf (s : State) (o : Op) : Nat := s.ringHalf o.u
def State.classOf (s : State) (a : Nat) : Nat := s.rd (Reg.ACT_CLASS.CLASS a)
/-- The die link carries traffic. -/
def State.dlkUp (s : State) : Bool := s.on (Reg.DLK_STA.UP 0) && s.on (Reg.DLK_STA.UP 1)
/-- The die link retrains and holds all traffic (R30). -/
def State.dlkHeld (s : State) : Bool := s.on (Reg.DLK_STA.RETRAINING 0)
/-- Traffic between a half and an address is held by a retrain. -/
def State.linkHolds (s : State) (half addr : Nat) : Bool := homeHalf addr ≠ half && s.dlkHeld
/-- Payload that the die link delivers to a half (DLK_RX_BYTES, R52). -/
def State.linkBytes (s : State) (half n : Nat) : State := s.countWrap (Reg.DLK_RX_BYTES.BYTES half) n
/-- A message of a class whose payload the manual does not size reaches a half over the die link: a free number of bytes (log entry 59). -/
def State.linkMessage (s : State) (half : Nat) : State := (s.linkBytes half (Config.freeNat s.free)).skipFree 1
/-- An access of a half to an extent crosses the die link where the extent lies in the other half: its reads come back as LINE_RD data, its
writes go out as LINE_WR (R28). -/
def State.linkAccess (s : State) (half addr n : Nat) (rd wr : Bool) : State :=
  if n = 0 ∨ homeHalf addr = half then s
  else
    let t := if rd then s.linkBytes half n else s
    if wr then t.linkBytes (1 - half) n else t

/-! Tallies and watches (R436, R439). -/

def tallyHome (t : Nat) : Nat := if t < 131072 then 0 else 1
def State.tally (s : State) (t : Nat) : Nat := (tblGet 0 s.tallies t).toNat

/-- A watch fires once its tally is at least its threshold. -/
def State.fireWatch (s : State) (u : Nat) : State :=
  if s.on (Reg.RING_WATCH.VALID u) ∧ s.rd (Reg.RING_WATCH_VALUE.VALUE u) ≤ s.tally (s.rd (Reg.RING_WATCH.TALLY u)) then
    (s.wrb (Reg.RING_WATCH.VALID u) false).raiseVec (u / 32) (s.rd (Reg.RING_WATCH.VECTOR u))
  else s

/-- The rings whose watch register is set, from the registers listed. -/
def State.watchers (s : State) (t : Nat) : List Nat :=
  (s.regs.filter fun e => decide (0x3000000 ≤ e.1) && decide (e.1 < 0x3400000) && e.1 % 0x1000 = 0x60).filterMap fun e =>
    let u := (e.1 - 0x3000000) / 0x1000
    if s.on (Reg.RING_WATCH.VALID u) && s.rd (Reg.RING_WATCH.TALLY u) = t then some u else none

/-- A tally changes: every watch on it is evaluated. -/
def State.setTally (s : State) (t v : Nat) : State :=
  let x := { s with tallies := tblSet 0 s.tallies t (BitVec.ofNat 64 v) }
  (x.watchers t).foldl State.fireWatch x

def State.addTally (s : State) (t v : Nat) : State := s.setTally t (s.tally t + v)

/-- The account's tally range holds a tally. -/
def State.ownsTally (s : State) (a t : Nat) : Bool :=
  decide (s.rd (Reg.ACT_TALLY.FIRST a) ≤ t) && decide (t < s.rd (Reg.ACT_TALLY.FIRST a) + 64 * s.rd (Reg.ACT_TALLY.UNITS a))

/-! Descriptor header (R413). -/

/-- A WAIT or SIG field: its tally while VALID, with its value. -/
def tallyField (d : Desc) (o vo : Nat) : Option (Nat × Nat) :=
  if bit (descAt d o 4) 31 then some (descAt d o 4 % 2 ^ 18, descAt d vo 8) else none

def descWaits (d : Desc) : List (Nat × Nat) := [tallyField d 0x10 0x20, tallyField d 0x14 0x28].filterMap id
def descSignals (d : Desc) : List (Nat × Nat) := [tallyField d 0x18 0x30, tallyField d 0x1C 0x38].filterMap id

/-- Reserved header fields are 0, and a field without VALID is 0 throughout. -/
def descHeaderOk (d : Desc) : Bool :=
  decide (descAt d 2 2 < 4) && zeroAt d 6 2 && zeroAt d 14 2
    && [(0x10, 0x20), (0x14, 0x28), (0x18, 0x30), (0x1C, 0x38)].all fun f => validTally (descAt d f.1 4) (descAt d f.2 8)

/-! Operand checks (R383-R385, R416). -/

/-- R385 on an extent of an account: HBM within one window with the permissions, scratchpad within its banks; with the tamper latched no
secure bank passes (R516). -/
def State.extentRule (s : State) (a addr n : Nat) (rd wr : Bool) : Nat :=
  match placeOf addr with
  | .hbm .. =>
    if View.inWindow s.rd a addr n rd wr then Code.OK
    else if View.inWindow s.rd a addr n false false then Code.PERMISSION else Code.BOUNDS
  | .bank h b o =>
    let last := b + (o + n - 1) / 0x200000
    if (List.range 48).all fun i => decide (i < b) || decide (last < i) || bit (s.ownedBanks a h) i then
      (if s.on (Reg.BNK_TAMPER.LATCHED h) && s.touchesSecure addr n then Code.PERMISSION else Code.OK)
    else Code.BOUNDS
  | .outside => Code.BOUNDS

/-- Check 6 on one operand. -/
def State.operandCode (s : State) (a : Nat) (u : Use) : Nat :=
  let x := u.opd
  if x.len = 0 then Code.OK
  else if 2 ^ 52 < x.addr + x.len then Code.BOUNDS
  else if s.extentCode x.addr x.len ≠ Code.OK then s.extentCode x.addr x.len
  else if x.addr % fmtUnit x.fmt ≠ 0 ∨ x.len % fmtUnit x.fmt ≠ 0 then Code.ALIGN
  else s.extentRule a x.addr x.len u.rd u.wr

/-- A failed check: code, INFO, index of the failing operand (15: none). -/
structure Fail where
  code : Nat
  info : Nat
  idx : Nat
deriving DecidableEq, Repr, Inhabited

def passed : Fail := ⟨Code.OK, 0, 15⟩

/-- The first operand that fails check 6. -/
def State.usesCode (s : State) (a : Nat) (uses : List Use) : Fail :=
  match uses.zipIdx.find? fun p => s.operandCode a p.1 ≠ Code.OK with
  | some (u, i) => ⟨s.operandCode a u, if s.operandCode a u = Code.PERMISSION then 0 else u.opd.addr, i⟩
  | none => passed

/-- Checks 5-7 of R416, as R419 and R388 repeat them. -/
def State.ruleCode (s : State) (a : Nat) (d : Desc) (p : OpSpec) : Fail :=
  if !((descWaits d ++ descSignals d).all fun f => s.ownsTally a f.1) || !(p.tallies.all (s.ownsTally a)) then ⟨Code.PERMISSION, 0, 15⟩
  else
    let c := s.usesCode a p.uses
    if c.code ≠ Code.OK then c else if !p.ranges then ⟨Code.PERMISSION, 0, 15⟩ else passed

/-- Checks 2-8 of R416 on a descriptor of ring `u`. -/
def State.admitCode (s : State) (u : Nat) (d : Desc) : Fail :=
  let a := u / 32
  match s.opSpec a (s.ringHalf u) d with
  | none => ⟨Code.FORMAT, 0, 15⟩
  | some p =>
    if !descHeaderOk d then ⟨Code.FORMAT, 0, 15⟩
    else if p.badIdx.isSome then ⟨Code.FORMAT, 0, p.badIdx.getD 15⟩
    else if descAt d 4 2 ≠ 0 ∧ descAt d 4 2 ≠ s.boot.libVersion then ⟨Code.VERSION, 0, 15⟩
    else if !p.units then ⟨Code.ABSENT, 0, 15⟩
    else
      let c := s.ruleCode a d p
      if c.code ≠ Code.OK then c else if !p.limits then ⟨Code.LIMIT, 0, 15⟩ else passed

/-- Checks 5-7 again for an admitted op, under the rules in force. -/
def State.recheck (s : State) (o : Op) : Fail :=
  match s.opSpec o.acct (s.opHalf o) o.desc with
  | some p => s.ruleCode o.acct o.desc p
  | none => ⟨Code.FORMAT, 0, 15⟩

/-! What follows a change of the admitted ops: ring, dispatcher and engine registers. -/

/-- The rings not DISABLED, from the registers listed. -/
def State.liveRings (s : State) : List Nat :=
  (s.regs.filter fun e => decide (0x3000000 ≤ e.1) && decide (e.1 < 0x3400000) && e.1 % 0x1000 = 0x20).filterMap fun e =>
    let u := (e.1 - 0x3000000) / 0x1000
    if s.ringSt u = RingSt.DISABLED then none else some u

def State.waitsMet (s : State) (o : Op) : Bool := (descWaits o.desc).all fun w => decide (w.2 ≤ s.tally w.1)

/-- An op is the first of its ring that has not issued. -/
def State.atHead (s : State) (o : Op) : Bool := !o.issued && s.ops.all fun x => x.u ≠ o.u || x.issued || decide (o.seq ≤ x.seq)

/-- The opcode class that a half's engine counts in flight. -/
def State.countOps (s : State) (half lo hi : Nat) : Nat :=
  (s.ops.filter fun o => o.issued && decide (lo ≤ o.opcode) && decide (o.opcode ≤ hi) && s.opHalf o = half).length

/-- A loaded image that no session has accepted: no ring runs and no doorbell is taken (R206, R212). -/
def State.ringsBarred (s : State) : Bool :=
  s.stage = Stage.LOADED || s.stage = Stage.LOADED_REFUSED || (s.stage = Stage.LOADING && s.boot.loadFrom = Stage.LOADED_REFUSED)

/-- Bring the dispatchers' and engines' registers, and ACT_OLD, up to date. -/
def State.refreshDsp (s : State) : State :=
  [0, 1].foldl (fun t h =>
    let rings := (s.liveRings.filter fun u => s.ringHalf u = h).length
    let exc := (s.ops.filter fun o => o.phase = .paused && s.opHalf o = h).length
    let waiting := (s.ops.filter fun o => s.atHead o && !s.waitsMet o && s.opHalf o = h).length
    let t := ((t.wr (Reg.DSP_STA.RINGS h) rings).wr (Reg.DSP_STA.EXC_PENDING h) exc).wr (Reg.DSP_WAITING.COUNT h) waiting
    let t := (t.wr (Reg.COL_STA.INFLIGHT h) (s.countOps h 0x0400 0x0404)).wr (Reg.MNT_STA.INFLIGHT h) (s.countOps h 0x0500 0x0500)
    t.wr (Reg.UPD_STA.INFLIGHT h) (s.countOps h 0x0600 0x0600)) s.refreshOld

/-- Highest SEQ with every admitted SEQ at or below it recorded (R441). -/
def State.seqDone (s : State) (u : Nat) : Nat :=
  let l := ((s.ringOps u).map fun o => (o.seq, o.prev)) ++ ((s.ringX u).held.filter fun r => !r.dup).map fun r => (r.seq, r.prev)
  match l with
  | [] => s.rd (Reg.RING_SEQ_ADM.SEQ u)
  | x :: xs => (xs.foldl (fun b y => if y.1 < b.1 then y else b) x).2

/-- Bring a ring's registers up to date; a drained ring is DISABLED; the op at its head starts its wait clock (R421, R432). -/
def State.refreshRing (s : State) (u : Nat) : State :=
  let ops := s.ringOps u
  let t := (s.wr (Reg.RING_STA.INFLIGHT u) (ops.filter Op.issued).length).wr (Reg.RING_SEQ_DONE.SEQ u) (s.seqDone u)
  let t := if t.ringSt u = RingSt.DRAINING ∧ ops.isEmpty then t.wr (Reg.RING_STA.STATE u) RingSt.DISABLED else t
  let t := { t with ops := t.ops.map fun (o : Op) => if o.u = u ∧ o.since = none ∧ t.atHead o then { o with since := some t.uptime } else o }
  t.refreshDsp

/-- A ring faults (R433-R435). -/
def State.faultRing (s : State) (u cause code : Nat) : State :=
  let t := ((s.wr (Reg.RING_STA.STATE u) RingSt.FAULT).wr (Reg.RING_STA.CAUSE u) cause).lastCode u code
  t.raise (0x80 + s.ringHalf u) 1

/-! Completion records (R422-R426, R434). -/

/-- Completion slots in use or reserved. -/
def State.slotsTaken (s : State) (u : Nat) : Nat :=
  (s.rd (Reg.RING_CPL_CNT.COUNT u) + 2 ^ 32 - s.rd (Reg.RING_CPL_ACK.COUNT u)) % 2 ^ 32
    + ((s.ringOps u).filter Op.issued).length + (s.ringX u).held.length

/-- A completion slot can be reserved. -/
def State.slotFree (s : State) (u : Nat) : Bool := decide (s.slotsTaken u < s.ringSize u)

/-- The 32 bytes of record `n` of ring `u`. -/
def State.recordBytes (s : State) (u n : Nat) (x : Rec) : List Byte :=
  let phase := b2n (n / s.ringSize u % 2 = 0)
  leBytes 6 x.seq ++ leBytes 1 x.code ++ leBytes 1 (phase + 2 * b2n x.dup + 4 * b2n x.signalled) ++ leBytes 2 x.opcode
    ++ leBytes 1 (u % 32) ++ leBytes 1 (x.slot / 256) ++ leBytes 4 (x.slot % 256 + x.failOp % 16 * 256 + x.detail) ++ leBytes 8 s.now ++ leBytes 8 x.info

/-- How an access of a ring to device memory fails: code, and whether a rule change is the reason (R433, R435). -/
def State.ringAccess (s : State) (u addr n : Nat) (wr : Bool) : Option (Nat × Bool) :=
  if s.extentCode addr n ≠ Code.OK ∨ s.extentRule (u / 32) addr n (!wr) wr ≠ Code.OK then some (Code.PERMISSION, true)
  else if homeHalf addr ≠ s.ringHalf u ∧ !s.dlkUp then some (Code.LINK_NOT_READY, false)
  else ((if wr then s.writeFault addr n else s.readFault addr n)).map fun f => (f.1, false)

/-- The die link's retrain holds the records of a ring whose completion ring lies in the other half (R30). -/
def State.recordsHeld (s : State) (u : Nat) : Bool :=
  s.on (Reg.RING_CPL_BASE.LOC u) && s.linkHolds (s.ringHalf u) (s.rd (Reg.RING_CPL_BASE.ADDR u) * 4096)

/-- A record is written: the count, the error tally and the vector follow. -/
def State.recordWritten (s : State) (u : Nat) (x : Rec) : State :=
  let t := s.countWrap (Reg.RING_CPL_CNT.COUNT u) 1
  let bad := x.code ≠ Code.OK && x.code ≠ Code.DUPLICATE
  let t := if bad ∧ t.on (Reg.RING_ERR_TALLY.VALID u) then t.addTally (t.rd (Reg.RING_ERR_TALLY.TALLY u)) 1 else t
  if t.on (Reg.RING_VEC.EVERY u) || x.irq || bad then t.raiseVec (u / 32) (t.rd (Reg.RING_VEC.VECTOR u)) else t

/-- Hold a record behind a failed write. -/
def State.holdRec (s : State) (u : Nat) (x : Rec) : State := s.setRingX u { s.ringX u with held := (s.ringX u).held ++ [x] }

/-- Write a record, `wr` being how a write to host memory ends; a failure faults the ring and holds it, and so does a retrain of the die
link that the record would cross, without a fault. -/
def State.putRecord (s : State) (u : Nat) (x : Rec) (wr : DmaEnd) : State :=
  if (s.ringSt u = RingSt.FAULT ∧ s.rd (Reg.RING_STA.CAUSE u) ≠ 1) ∨ s.recordsHeld u then s.holdRec u x
  else
    let n := s.rd (Reg.RING_CPL_CNT.COUNT u)
    let addr := s.rd (Reg.RING_CPL_BASE.ADDR u) * 4096 + 32 * (n % s.ringSize u)
    let bs := s.recordBytes u n x
    if s.on (Reg.RING_CPL_BASE.LOC u) then
      match s.ringAccess u addr 32 true with
      | some (code, rules) => ((s.noteFault (code, addr) true Source.ENGINE (u / 32)).faultRing u (if rules then 3 else 2) code).holdRec u x
      | none => ((s.writeExtent addr bs).linkAccess (s.ringHalf u) addr 32 false true).recordWritten u x
    else if wr = .ok then (s.emit (.record (u / 32) (u % 32) addr bs)).recordWritten u x
    else (s.faultRing u 2 (dmaCode wr)).holdRec u x

/-- The held records of a ring are written in their order before any new one (R434). -/
def State.flushRecords (s : State) (u : Nat) : State :=
  let held := (s.ringX u).held
  held.foldl (fun t x => t.putRecord u x .ok) (s.setRingX u { s.ringX u with held := [] })

/-- The record of an op with an outcome. -/
def Op.record (o : Op) (f : Fail) (detail : Nat) (signalled : Bool) : Rec :=
  ⟨o.seq, f.code, false, signalled, o.opcode, o.slot, f.idx, detail, f.info, o.prev, bit (descAt o.desc 2 2) 0⟩

/-- A retained group version is freed once no op under it runs (R636). -/
def State.freeRetained (s : State) (o : Op) : State :=
  match o.group with
  | some (g, e) =>
    let x := s.group g
    match x.retained with
    | some v => if v.epoch = e ∧ !s.groupBusy g e then { s with groups := tblSet default s.groups g { x with retained := none } } else s
    | none => s
  | none => s

/-- A signal of an OK op waits for a retrain of the die link (R30). -/
def State.signalsHeld (s : State) (o : Op) : Bool :=
  !o.abort && o.code = Code.OK && s.dlkHeld && (descSignals o.desc).any fun g => tallyHome g.1 ≠ s.opHalf o

/-- An add to a tally from a half; one homed in the other half crosses the die link. -/
def State.signalTally (s : State) (half t v : Nat) : State :=
  (if tallyHome t = half then s else s.linkMessage (tallyHome t)).addTally t v

/-- The engine counters of completed ops. -/
def State.countDone (s : State) (o : Op) : State :=
  let h := s.opHalf o
  if 0x0400 ≤ o.opcode ∧ o.opcode ≤ 0x0404 then s.countWrap (Reg.COL_OPS.COUNT h) 1
  else if o.opcode = 0x0500 then s.countWrap (Reg.MNT_OPS.COUNT h) 1 else s

/-- An op completes (R422): signals if OK, then its record and vector. -/
def State.completeOp (s : State) (o : Op) (wr : DmaEnd) : State :=
  let sigs := descSignals o.desc
  let base : Fail := if o.abort then ⟨Code.ABORTED, 0, 15⟩ else ⟨o.code, o.info, o.failOp⟩
  let cut := base.code = Code.OK ∧ (sigs.any fun g => tallyHome g.1 ≠ s.opHalf o) ∧ !s.dlkUp
  let f : Fail := if cut then ⟨Code.LINK_NOT_READY, 0, 15⟩ else base
  let t := if f.code = Code.OK then sigs.foldl (fun t g => t.signalTally (s.opHalf o) g.1 g.2) s else s
  let t := if o.issued then t.countDone o else t
  let t := ((t.dropOp o).freeRetained o).putRecord o.u (o.record f (if o.abort then 0 else o.detail) (f.code = Code.OK && !sigs.isEmpty)) wr
  t.refreshRing o.u

/-! Admission (R416, R425). -/

/-- A fetched descriptor of ring `u` is admitted, or completes at once; with no completion slot for its record it is not taken. -/
def State.admitDescriptor (s : State) (u : Nat) (bytes : List Byte) (wr : DmaEnd) : State :=
  let d : Desc := BitVec.ofNat 1024 (leNat (padTo 128 bytes))
  let h := s.ringHalf u
  let seq := descAt d 8 6
  let adm := s.rd (Reg.RING_SEQ_ADM.SEQ u)
  let o : Op := ⟨u / 32, u % 32, seq, s.rd (Reg.RING_HEAD.COUNT u) % s.ringSize u, d, .waiting, s.epochOf (u / 32), none, 0, 0, 15, 0, false, 0, 0, adm⟩
  let t := s.countWrap (Reg.RING_HEAD.COUNT u) 1
  let c := s.admitCode u d
  if seq ≤ adm then
    if !s.slotFree u then s
    else
      let t := ((t.count (Reg.DSP_DUP.COUNT h) 1).count (Reg.DSP_ADMIT_FAIL.COUNT h) 1).raise (0x80 + h) 2
      (t.putRecord u { o.record ⟨Code.DUPLICATE, 0, 15⟩ 0 false with dup := true } wr).refreshRing u
  else if c.code = Code.OK then
    let t := t.wr (Reg.RING_SEQ_ADM.SEQ u) seq
    ({ t with ops := t.ops ++ [o] } : State).refreshRing u
  else if !s.slotFree u then s
  else
    let t := (((t.wr (Reg.RING_SEQ_ADM.SEQ u) seq).count (Reg.DSP_ADMIT_FAIL.COUNT h) 1).raise (0x80 + h) 2)
    (t.putRecord u (o.record c 0 false) wr).refreshRing u

/-- Ring `u` may fetch its next slot: at most 8 ahead of the op it is issuing (R412). -/
def State.canFetch (s : State) (u : Nat) : Bool :=
  s.ringSt u = RingSt.RUNNING && !s.resetting (0x80 + s.ringHalf u) && s.computeOn && !s.ringsBarred && s.rd (Reg.RING_HEAD.COUNT u) ≠ s.rd (Reg.RING_TAIL.COUNT u)
    && !s.on (Reg.RING_ABORT_STA.BUSY u) && decide (((s.ringOps u).filter fun o => !o.issued).length ≤ 8)

/-! Issue (R419, R420, R427). -/

/-- The page of the engine that runs an op; none for NOP, TALLY_CAS, the tiles and the fabric. -/
def State.enginePageOf (s : State) (o : Op) : Option Nat :=
  let h := s.opHalf o
  match o.opcode / 256 with
  | 2 => some (0x1C0 + h)
  | 4 => some (0x280 + h)
  | 5 => some (0x2A0 + h)
  | 6 => some (if o.opcode = 0x0600 ∨ o.opcode = 0x0602 then 0x2B0 + h else 0x2B2)
  | _ => none

/-- Everything R420 asks but the dispatcher's grant. -/
def State.canIssue (s : State) (o : Op) : Bool :=
  let mine := s.ringOps o.u
  (s.ringSt o.u = RingSt.RUNNING || s.ringSt o.u = RingSt.DRAINING || (s.ringSt o.u = RingSt.FAULT && s.rd (Reg.RING_STA.CAUSE o.u) = 1))
    && s.computeOn && !s.ringsBarred && !((s.enginePageOf o).any s.resetting) && s.atHead o && !o.abort && s.waitsMet o && s.slotFree o.u && decide ((mine.filter Op.issued).length < 64)
    && (!bit (descAt o.desc 2 2) 1 || mine.all fun x => decide (o.seq ≤ x.seq)) && mine.all fun x => x.phase ≠ .paused

/-! Operands of an op. -/

/-- The operands an op's descriptor names, in their order. -/
def State.opUses (s : State) (o : Op) : List Use :=
  match s.opSpec o.acct (s.opHalf o) o.desc with
  | some p => p.uses
  | none => []

/-- Something an extent lies on is not ready for an op of a half: a stack that retrains, a bank that is wiped, offline or waking, a die
link that retrains (R59, R490, R510, R515, R521). -/
def State.extentBusy (s : State) (half : Nat) (x : Operand) : Bool :=
  x.len ≠ 0 && (s.linkHolds half x.addr
    || match placeOf x.addr with
      | .hbm h _ => (s.halfStacks h).any fun k => s.on (Reg.HMC_STA.RETRAINING k)
      | .bank h b o => (List.range 48).any fun i =>
          decide (b ≤ i) && decide (i ≤ b + (o + x.len - 1) / 0x200000) && (s.bankWiping h i || s.bankOffline h i || s.bankSta h i = 3)
      | .outside => false)

/-- Something that an op needs is not ready: what an operand lies on, or the die link to the tally that a TALLY_CAS names (R30). -/
def State.operandsBusy (s : State) (o : Op) : Bool :=
  (s.opUses o).any (fun u => s.extentBusy (s.opHalf o) u.opd)
    || (o.opcode = 0x0002 && s.dlkHeld && tallyHome (descAt o.desc 0x40 4) ≠ s.opHalf o)

/-! Turns (R427, R472). -/

/-- The op that the round robin of a class reaches next: of the first ring that has one, from the ring `first` on, its oldest. -/
def inTurn (first : Nat) (l : List Op) : Option Op :=
  l.foldl (fun b o => match b with
    | none => some o
    | some x => if (o.u + 1024 - first) % 1024 < (x.u + 1024 - first) % 1024 then some o else some x) none

/-- The ops of a class: 0 URGENT, 1 NORMAL, 2 BULK. -/
def State.ofClass (s : State) (c : Nat) (l : List Op) : List Op := l.filter fun o => s.classOf o.acct = c

/-- Whose turn it is among ops of half `h` that could go: URGENT first; while NORMAL and BULK both wait, NORMAL_WEIGHT of NORMAL for each of
BULK (log entry 69). -/
def State.turn (s : State) (k h : Nat) (l : List Op) : Option Op :=
  let t := tblGet default s.turns k
  match inTurn t.urgent (s.ofClass 0 l), inTurn t.normal (s.ofClass 1 l), inTurn t.bulk (s.ofClass 2 l) with
  | some o, _, _ => some o
  | none, some n, some b => if t.normals < s.rd (Reg.DSP_CFG.NORMAL_WEIGHT h) then some n else some b
  | none, some n, none => some n
  | none, none, b => b

/-- An op took its turn among `l`. -/
def State.tookTurn (s : State) (k : Nat) (l : List Op) (o : Op) : State :=
  let t := tblGet default s.turns k
  let next := (o.u + 1) % 1024
  let x : Turns := match s.classOf o.acct with
    | 0 => { t with urgent := next }
    | 1 => { t with normal := next, normals := if (s.ofClass 2 l).isEmpty then t.normals else t.normals + 1 }
    | _ => { t with bulk := next, normals := 0 }
  { s with turns := tblSet default s.turns k x }

/-- An op finishes with its outcome decided. -/
def State.endOp (s : State) (o : Op) (f : Fail) (detail : Nat) : State :=
  match s.opAt o.acct o.ring o.seq with
  | some x => (s.setOp { x with phase := .done, code := f.code, info := f.info, failOp := f.idx, detail := detail }).refreshRing o.u
  | none => s

def State.endOk (s : State) (o : Op) (detail : Nat) : State := s.endOp o passed detail
def State.endCode (s : State) (o : Op) (code : Nat) : State := s.endOp o ⟨code, 0, 15⟩ 0

/-- The ops that a half's dispatcher may grant (R420, R427): an op for an engine waits until what its operands lie on is ready. -/
def State.grantable (s : State) (h : Nat) : List Op :=
  s.ops.filter fun o => s.opHalf o = h && s.canIssue o && !s.operandsBusy o

/-- The dispatcher of its half grants an op now (R427). -/
def State.granted (s : State) (o : Op) : Bool :=
  (s.turn (s.opHalf o) (s.opHalf o) (s.grantable (s.opHalf o))).any fun x => x.is o.acct o.ring o.seq

/-- Issue the op of a ring with a given opcode and run its effect; nothing happens while it cannot issue. A rule change since
admission is checked first. -/
def State.issue (s : State) (a r seq opcode : Nat) (run : State → Op → State) : State :=
  match s.opAt a r seq with
  | none => s
  | some o =>
    if o.opcode ≠ opcode ∨ !s.canIssue o ∨ !s.granted o then s
    else
      let x := { o with phase := .running, epoch := s.epochOf a }
      let h := s.opHalf o
      let t := ((s.tookTurn h (s.grantable h) o).setOp x).countWrap (Reg.DSP_ISSUED.COUNT h) 1
      let c := if o.epoch = s.epochOf a then passed else s.recheck o
      if c.code = Code.OK then (run t x).refreshRing o.u else t.endOp x c 0

/-- Wake the RETAIN and OFF banks under an extent (R510). -/
def State.wakeExtent (s : State) (x : Operand) : State :=
  if x.len = 0 then s
  else match placeOf x.addr with
  | .bank h b o => (List.range 48).foldl (fun t i =>
      if b ≤ i ∧ i ≤ b + (o + x.len - 1) / 0x200000 ∧ t.bankSta h i ≠ 0 then
        ({ t with woken := tblSet false t.woken (48 * h + i) true } : State).bankOn h i
      else t) s
  | _ => s

/-- How an access of an op to an extent fails: a latched tamper, a failed die link, poison or a fault. -/
def State.extentFault (s : State) (half : Nat) (u : Use) : Option (Nat × Nat) :=
  let x := u.opd
  let tampered := match placeOf x.addr with
    | .bank h .. => s.on (Reg.BNK_TAMPER.LATCHED h) && s.touchesSecure x.addr x.len
    | _ => false
  if tampered then some (Code.PERMISSION, 0)
  else if homeHalf x.addr ≠ half ∧ !s.dlkUp then some (Code.LINK_NOT_READY, 0)
  else match (if u.rd then s.readFault x.addr x.len else none) with
    | some f => some f
    | none => if u.wr then s.writeFault x.addr x.len else none

/-- The first failing access of a list of uses. -/
def State.usesFault (s : State) (half : Nat) (uses : List Use) : Option Fail :=
  uses.zipIdx.findSome? fun p => if p.1.opd.len = 0 then none else (s.extentFault half p.1).map fun f => ⟨f.1, f.2, p.2⟩

/-- An access of an op that failed is counted and logged (R493, R498). -/
def State.noteOp (s : State) (o : Op) (f : Fail) (rmw : Bool) : State :=
  s.noteFault (f.code, f.info) rmw (if o.opcode / 256 = 1 then Source.TILE else Source.ENGINE) o.acct

/-- As `noteOp`, for the failing one of a list of uses. -/
def State.noteUse (s : State) (o : Op) (uses : List Use) (f : Fail) : State := s.noteOp o f (!(uses[f.idx]?.any (·.rd)))

/-- The output extents of an op are undefined (R476): free bytes. -/
def State.scribbleOutputs (s : State) (o : Op) : State :=
  (s.opUses o).foldl (fun t u => if u.wr ∧ u.opd.len ≠ 0 then t.scribble u.opd.addr u.opd.len else t) s

/-- An op reaches its operands: their banks wake, and what lies in the other half crosses the die link. -/
def State.reachOperands (s : State) (o : Op) : State :=
  (s.opUses o).foldl (fun t u => (t.wakeExtent u.opd).linkAccess (s.opHalf o) u.opd.addr u.opd.len u.rd u.wr) s

/-- Issue an op with operands in memory. -/
def State.issueMem (s : State) (a r seq opcode : Nat) (run : State → Op → State) : State :=
  s.issue a r seq opcode fun t x => run (t.reachOperands x) x

/-- The bytes of an operand. -/
def State.operandBytes (s : State) (x : Operand) : List Byte := if x.len = 0 then [] else s.load x.addr x.len

/-- Write an operand. -/
def State.putOperand (s : State) (x : Operand) (bs : List Byte) : State := if x.len = 0 then s else s.writeExtent x.addr bs

end Sys2Proof.Machine
end

