-- ==== Sys2Proof/Machine/Tiles.lean ====
section
/-!
DEFINITION. The ops of the ring chapter and the tiles (R415, R438, R460-R470), and the commands of tiles and their slices
(R471-R480).
-/
namespace Sys2Proof.Machine

/-! NOP and TALLY_CAS. -/

def execNop (a r seq : Nat) (s : State) : Result := .next (s.issue a r seq 0x0001 fun t o => t.endOk o 0)

/-- Compare-and-set of a tally: DETAIL bit 12 tells the swap, INFO the value found. A tally of the other half is reached over the die link
(R28, R59). -/
def State.tallyCas (s : State) (o : Op) : State :=
  let i := descAt o.desc 0x40 4
  let old := s.tally i
  let far := tallyHome i ≠ s.opHalf o
  let t := if far then s.linkMessage (tallyHome i) else s
  if far ∧ !s.dlkUp then s.endCode o Code.LINK_NOT_READY
  else if old = descAt o.desc 0x48 8 then (t.setTally i (descAt o.desc 0x50 8)).endOp o ⟨Code.OK, old, 15⟩ 4096
  else t.endOp o ⟨Code.OK, old, 15⟩ 0

def execTallyCas (a r seq : Nat) (s : State) : Result := .next (s.issue a r seq 0x0002 State.tallyCas)

/-! The shared frame of a tile op. -/

/-- The outcome of an issued op is decided; its tiles still hold it. -/
def State.decideOp (s : State) (o : Op) (f : Fail) (detail : Nat) : State :=
  s.setOp { o with code := f.code, info := f.info, failOp := f.idx, detail := detail }

/-- What a tile op computes: the state with its output, its outcome, its DETAIL flags. -/
structure TileEnd where
  st : State
  fail : Fail
  detail : Nat

/-- DETAIL of R462. -/
def flagsDetail (sat nonFinite : Bool) : Nat := 4096 * b2n nonFinite + 8192 * b2n sat

/-- The op writes an operand with encoded rows. -/
def State.tileOut (s : State) (y : Operand) (e : List Byte × Bool × Bool) : TileEnd :=
  ⟨s.putOperand y e.1, passed, flagsDetail e.2.1 e.2.2⟩

/-- The op has no work. -/
def State.tileIdle (s : State) : TileEnd := ⟨s, passed, 0⟩

/-- A tile op issues: an access that fails leaves its outputs undefined, otherwise its result is computed. -/
def State.tileOp (s : State) (a r seq opcode : Nat) (body : State → Op → TileEnd) : State :=
  s.issueMem a r seq opcode fun t o =>
    match t.usesFault (t.opHalf o) (t.opUses o) with
    | some f => ((t.noteUse o (t.opUses o) f).scribbleOutputs o).decideOp o f 0
    | none =>
      let e := body t o
      e.st.decideOp o e.fail e.detail

/-! Their results. -/

def State.tileCopy (s : State) (o : Op) : TileEnd :=
  let x := operandAt o.desc 0x40
  let y := operandAt o.desc 0x50
  if hasWork [] [x, y] then ⟨s.putOperand y (s.operandBytes x), passed, 0⟩ else s.tileIdle

/-- Byte `i` of a repeated 8-byte pattern. -/
def patternBytes (p n : Nat) : List Byte := (List.range n).map fun i => BitVec.ofNat 8 (p / 256 ^ (i % 8))

def State.tileFill (s : State) (o : Op) : TileEnd :=
  let y := operandAt o.desc 0x40
  ⟨s.putOperand y (patternBytes (descAt o.desc 0x50 8) y.len), passed, 0⟩

def State.tileQuantise (s : State) (o : Op) : TileEnd :=
  let x := operandAt o.desc 0x40
  let y := operandAt o.desc 0x50
  let n := descAt o.desc 0x60 4
  let row := (quantiseRows o.desc).2
  if hasWork [n] [x, y] then s.tileOut y (encodeRows y.fmt row (elems x.fmt row (s.operandBytes x) n)) else s.tileIdle

/-- A signed 32-bit number. -/
def int32 (v : Nat) : Int := if v < 2 ^ 31 then (v : Int) else (v : Int) - 2 ^ 32

def State.tileGather (s : State) (o : Op) : TileEnd :=
  let x := operandAt o.desc 0x50
  let y := operandAt o.desc 0x60
  let rb := descAt o.desc 0x70 4
  let rows := descAt o.desc 0x74 4
  if hasWork [rb, rows] [operandAt o.desc 0x40, x, y] then
    let ix := s.operandBytes x
    let idx := (List.range (x.len / 4)).map fun i => int32 (fieldAt ix (4 * i) 4)
    match idx.findIdx? fun i => decide (i < 0) || decide ((rows : Int) ≤ i) with
    | some p => ⟨s, ⟨Code.BOUNDS, p, 1⟩, 0⟩
    | none => ⟨s.putOperand y (idx.flatMap fun i => s.load ((operandAt o.desc 0x40).addr + i.toNat * rb) rb), passed, 0⟩
  else s.tileIdle

/-- One element of GEMM (R467): panels of 4,096 products in index order. -/
def gemmElem (start : Num) (k : Nat) (a b : Nat → Num) : Num :=
  (pieces 4096 (List.range k)).foldl (fun acc p => rn (acc.add (chunkedSum Num.zero (p.map fun i => (a i).mul (b i))))) start

def State.tileGemm (s : State) (o : Op) : TileEnd :=
  let a := operandAt o.desc 0x40
  let b := operandAt o.desc 0x50
  let c := operandAt o.desc 0x60
  let m := descAt o.desc 0x70 4
  let n := descAt o.desc 0x74 4
  let k := descAt o.desc 0x78 4
  let f := descAt o.desc 0x7C 4
  if hasWork [m, n, k] [a, b, c] then
    let ab := s.operandBytes a
    let bb := s.operandBytes b
    let cb := s.operandBytes c
    let av (i x : Nat) : Num := if bit f 0 then elemAt a.fmt m ab (x * m + i) else elemAt a.fmt k ab (i * k + x)
    let bv (x j : Nat) : Num := if bit f 1 then elemAt b.fmt k bb (j * k + x) else elemAt b.fmt n bb (x * n + j)
    let out := (List.range m).flatMap fun i => (List.range n).map fun j =>
      gemmElem (if bit f 2 then elemAt c.fmt n cb (i * n + j) else Num.zero) k (av i) (fun x => bv x j)
    s.tileOut c (encodeRows c.fmt n out)
  else s.tileIdle

def one : Num := .fin false 1 0

/-- One element of ELTWISE (R468). -/
def eltElem (lib func : Nat) (al be x y : Num) : Num :=
  if func = 0 then rn ((rn (al.mul x)).add (rn (be.mul y)))
  else if func = 1 then rn ((rn (al.mul x)).mul y)
  else if func = 2 then rn ((rn (al.mul x)).add be)
  else if func = 3 then Num.max x Num.zero
  else if func = 4 then
    let t2 := rn ((rn (x.mul x)).mul x)
    let t4 := rn (x.add (rn ((f32 0x3D372713).mul t2)))
    let t6 := libTanh lib (rn ((f32 0x3F4C422A).mul t4))
    rn ((rn ((Num.fin false 1 (-1)).mul x)).mul (rn (one.add t6)))
  else if func = 5 then rn (x.mul (libSigmoid lib x))
  else if func = 6 then rn ((rn (x.mul (libSigmoid lib x))).mul y)
  else if func = 7 then libExp lib (rn (al.mul x))
  else if func = 8 then rn (one.div x)
  else libRsqrt lib x

def State.tileEltwise (s : State) (o : Op) : TileEnd :=
  let x := operandAt o.desc 0x40
  let y := operandAt o.desc 0x50
  let z := operandAt o.desc 0x60
  let func := descAt o.desc 0x70 2
  let n := descAt o.desc 0x74 4
  if hasWork [n] (if eltUsesY func then [x, y, z] else [x, z]) then
    let xb := s.operandBytes x
    let yb := s.operandBytes y
    let out := (List.range n).map fun i => eltElem s.boot.libVersion func (f32 (descAt o.desc 0x78 4)) (f32 (descAt o.desc 0x7C 4))
      (elemAt x.fmt n xb i) (if eltUsesY func then elemAt y.fmt n yb i else Num.zero)
    s.tileOut z (encodeRows z.fmt n out)
  else s.tileIdle

/-- A count as a value. -/
def numOf (n : Nat) : Num := .fin false n 0

/-- One row of NORM (R470). -/
def normRow (lib mode : Nat) (eps : Num) (w x : List Num) : List Num :=
  let n := numOf x.length
  let mu := if mode = 1 then rn ((chunkedSum Num.zero x).div n) else Num.zero
  let d := x.map fun v => rn (v.sub mu)
  let v := rn ((chunkedSum Num.zero (d.map fun k => rn (k.mul k))).div n)
  let r := libRsqrt lib (rn (v.add eps))
  d.zipWith (fun k g => rn ((rn (k.mul r)).mul g)) w

def State.tileNorm (s : State) (o : Op) : TileEnd :=
  let x := operandAt o.desc 0x40
  let w := operandAt o.desc 0x50
  let y := operandAt o.desc 0x60
  let rows := descAt o.desc 0x70 4
  let row := descAt o.desc 0x74 4
  if hasWork [rows, row] [x, w, y] then
    let wv := elems w.fmt row (s.operandBytes w) row
    let out := (pieces row (elems x.fmt row (s.operandBytes x) (rows * row))).flatMap
      (normRow s.boot.libVersion (descAt o.desc 0x7C 1) (f32 (descAt o.desc 0x78 4)) wv)
    s.tileOut y (encodeRows y.fmt row out)
  else s.tileIdle

/-- The largest of a row; NaN where it holds one. -/
def maxOf : List Num → Num
  | [] => .nan
  | x :: xs => xs.foldl Num.max x

/-- One row of SOFTMAX (R470). -/
def softmaxRow (lib : Nat) (scale : Num) (x : List Num) : List Num :=
  let t := x.map fun v => rn (scale.mul v)
  let m := maxOf t
  let e := t.map fun v => libExp lib (rn (v.sub m))
  let sum := chunkedSum Num.zero e
  e.map fun v => rn (v.div sum)

def State.tileSoftmax (s : State) (o : Op) : TileEnd :=
  let x := operandAt o.desc 0x40
  let y := operandAt o.desc 0x50
  let rows := descAt o.desc 0x60 4
  let row := descAt o.desc 0x64 4
  if hasWork [rows, row] [x, y] then
    let out := (pieces row (elems x.fmt row (s.operandBytes x) (rows * row))).flatMap (softmaxRow s.boot.libVersion (f32 (descAt o.desc 0x68 4)))
    s.tileOut y (encodeRows y.fmt row out)
  else s.tileIdle

def execCopy (a r seq : Nat) (s : State) : Result := .next (s.tileOp a r seq 0x0100 State.tileCopy)
def execFill (a r seq : Nat) (s : State) : Result := .next (s.tileOp a r seq 0x0101 State.tileFill)
def execQuantise (a r seq : Nat) (s : State) : Result := .next (s.tileOp a r seq 0x0102 State.tileQuantise)
def execGather (a r seq : Nat) (s : State) : Result := .next (s.tileOp a r seq 0x0103 State.tileGather)
def execGemm (a r seq : Nat) (s : State) : Result := .next (s.tileOp a r seq 0x0110 State.tileGemm)
def execEltwise (a r seq : Nat) (s : State) : Result := .next (s.tileOp a r seq 0x0120 State.tileEltwise)
def execNorm (a r seq : Nat) (s : State) : Result := .next (s.tileOp a r seq 0x0130 State.tileNorm)
def execSoftmax (a r seq : Nat) (s : State) : Result := .next (s.tileOp a r seq 0x0131 State.tileSoftmax)

/-! Tiles and slices (R471-R480). -/

def isTileOp (o : Op) : Bool := decide (0x0100 ≤ o.opcode) && decide (o.opcode ≤ 0x01FF)

/-- The op whose slice a tile runs. -/
def State.tileRuns (s : State) (i : Nat) : Option Op :=
  if s.on (Reg.TIL_STA.RUNNING i) then s.opAt (s.rd (Reg.TIL_STA.ACCOUNT i)) (s.rd (Reg.TIL_OP.RING i)) (s.rd (Reg.TIL_OP.SEQ i)) else none

/-- A tile runs no slice. -/
def State.tileIdleNow (s : State) (i : Nat) : State :=
  (((s.wrb (Reg.TIL_STA.RUNNING i) false).wr (Reg.TIL_STA.ACCOUNT i) 0).wr (Reg.TIL_OP.SEQ i) 0).wr (Reg.TIL_OP.RING i) 0

/-- A tile runs a slice of an op. -/
def State.tileTakes (s : State) (i : Nat) (o : Op) : State :=
  (((s.wrb (Reg.TIL_STA.RUNNING i) true).wr (Reg.TIL_STA.ACCOUNT i) o.acct).wr (Reg.TIL_OP.SEQ i) o.seq).wr (Reg.TIL_OP.RING i) o.ring

/-- The contexts saved on a tile are given up or resumed. -/
def State.dropContext (s : State) (i : Nat) : State :=
  ({ s with contexts := s.contexts.filter fun c => c.1 ≠ i } : State).wrb (Reg.TIL_STA.CONTEXT_HELD i) false

/-- Every tile leaves an op that is over. -/
def State.releaseTiles (s : State) (o : Op) : State :=
  let t := (List.range 48).foldl (fun t i => if (t.tileRuns i).any fun x => x.is o.acct o.ring o.seq then t.tileIdleNow i else t) s
  let mine (c : Nat × Nat × Nat × Nat) : Bool := c.2.1 = o.acct && c.2.2.1 = o.ring && c.2.2.2 = o.seq
  (t.contexts.filter mine).foldl (fun t c => t.dropContext c.1) t

/-- A tile with nothing to run takes the deeper of the power state asked of it and PWR's gating, and joins or leaves the pool (R477). -/
def State.tileSettle (s : State) (i : Nat) : State :=
  if s.on (Reg.TIL_STA.RUNNING i) ∨ s.on (Reg.TIL_STA.CONTEXT_HELD i) then s
  else
    let req := max (s.rd (Reg.TIL_PWR_REQ.REQ i)) (b2n (bit s.gated i))
    let st := s.rd (Reg.TIL_STA.STATE i)
    let t := if req ≠ 0 then s.wr (Reg.TIL_STA.STATE i) req
      else if st = 1 then s.wr (Reg.TIL_STA.STATE i) 0 else if st = 2 then s.wr (Reg.TIL_STA.STATE i) 3 else s
    t.wrb (Reg.TIL_STA.IN_POOL i) (t.rd (Reg.TIL_STA.STATE i) = 0 && t.on (Reg.CTL.ENABLE (0x100 + i)) && !t.on (Reg.STA.FAULT (0x100 + i)))

/-- The banks wiped under an op hold one of its operands (R515). -/
def State.wipedUnder (s : State) (o : Op) : Bool :=
  (s.opUses o).any fun u => u.opd.len ≠ 0 && match placeOf u.opd.addr with
    | .bank h b off => (List.range 48).any fun i => decide (b ≤ i) && decide (i ≤ b + (off + u.opd.len - 1) / 0x200000)
        && bit (if h = 0 then o.wipedA else o.wipedB) i
    | _ => false

/-- An issued op ends early with a code: its outputs are undefined. -/
def State.cutOp (s : State) (o : Op) (f : Fail) : State := ((s.scribbleOutputs o).releaseTiles o).endOp o f 0

/-- An operand of an op lies in the other half. -/
def State.crossesLink (s : State) (o : Op) : Bool := (s.opUses o).any fun u => u.opd.len ≠ 0 && homeHalf u.opd.addr ≠ s.opHalf o

/-- The checks of a slice boundary on the op that runs there (R59, R388, R428, R472, R515). -/
def State.boundaryOp (s : State) (o : Op) (exc : Bool) : State :=
  if o.phase ≠ .running then s
  else if o.abort ∨ s.wipedUnder o then s.cutOp o ⟨Code.ABORTED, 0, 15⟩
  else if s.crossesLink o ∧ !s.dlkUp then s.cutOp o ⟨Code.LINK_NOT_READY, 0, 15⟩
  else
    let c := if o.epoch = s.epochOf o.acct then passed else s.recheck o
    if c.code ≠ Code.OK then s.cutOp o ⟨Code.PERMISSION, 0, c.idx⟩
    else
      let x := { o with epoch := s.epochOf o.acct }
      if exc then (((s.setOp { x with phase := .paused }).releaseTiles x).refreshDsp).raise (0x80 + s.opHalf o) 0 else s.setOp x

/-- The most tiles of a half that run an account's ops at once (R379). -/
def State.tileCap (s : State) (a half : Nat) : Nat := if half = 0 then s.rd (Reg.ACT_LIMIT.TILES_A a) else s.rd (Reg.ACT_LIMIT.TILES_B a)

/-- The tiles of the half of tile `i`, but for it, that run an account's slices. -/
def State.tilesOf (s : State) (i a : Nat) : Nat :=
  ((List.range 24).filter fun j =>
    let k := 24 * (i / 24) + j
    k ≠ i && s.on (Reg.TIL_STA.RUNNING k) && s.rd (Reg.TIL_STA.ACCOUNT k) = a).length

/-- The ops whose slices tile `i` may take: granted ones of its half under their account's tile cap, on the reserved tile of URGENT accounts
alone (R379, R427, R474). -/
def State.tileOps (s : State) (i : Nat) : List Op :=
  s.ops.filter fun o => isTileOp o && o.phase = .running && !o.abort && s.opHalf o = i / 24
    && decide (s.tilesOf i o.acct < s.tileCap o.acct (i / 24)) && (!s.on (Reg.TIL_STA.URGENT_ONLY i) || s.classOf o.acct = 0)

/-- The tile op whose slice a tile takes next, in the class order of R427 (R472). -/
def State.nextTileOp (s : State) (i : Nat) : Option Op := s.turn (2 + i / 24) (i / 24) (s.tileOps i)

/-- A tile takes its next slice, and the turn passes on. -/
def State.takeTurn (s : State) (i : Nat) (o : Op) : State := (s.tookTurn (2 + i / 24) (s.tileOps i) o).tileTakes i o

/-- An URGENT op preempts on tile `i` (R473): no tile of its half open to it idles, and the tile holds no context. -/
def State.preempts (s : State) (i : Nat) (cur : Op) : Option Op :=
  if s.classOf cur.acct = 0 ∨ s.on (Reg.TIL_STA.CONTEXT_HELD i) ∨ (List.range 24).any (fun j =>
      s.on (Reg.TIL_STA.IN_POOL (24 * (i / 24) + j)) && !s.on (Reg.TIL_STA.RUNNING (24 * (i / 24) + j))) then none
  else (s.nextTileOp i).filter fun o => s.classOf o.acct = 0

/-- Tile `i` is free to take a slice: a saved context resumes once no URGENT slice waits for the tile; a tile that is to leave the pool takes
no other (R473, R477). -/
def State.tileNext (s : State) (i : Nat) : State :=
  let leaving := s.rd (Reg.TIL_PWR_REQ.REQ i) ≠ 0 || bit s.gated i || !s.on (Reg.CTL.ENABLE (0x100 + i))
  let held := (s.contexts.find? fun c => c.1 = i).bind fun c => s.opAt c.2.1 c.2.2.1 c.2.2.2
  match held, (s.nextTileOp i).filter fun o => s.classOf o.acct = 0 && !leaving with
  | some c, none => (s.dropContext i).tileTakes i c
  | some _, some u => s.takeTurn i u
  | none, _ =>
    let t := s.tileIdleNow i
    if leaving then t.tileSettle i
    else if !t.on (Reg.TIL_STA.IN_POOL i) then t
    else match t.nextTileOp i with
      | some o => t.takeTurn i o
      | none => t

/-- A tile finishes a slice and takes its next one. -/
def State.sliceBoundary (s : State) (i : Nat) (exc : Bool) : State :=
  let t := match s.tileRuns i with
    | some o => (s.boundaryOp o exc).countWrap (Reg.TIL_SLICES.COUNT i) 1
    | none => s.tileIdleNow i
  match (t.tileRuns i).bind fun cur => if cur.phase = .running then (t.preempts i cur).map fun u => (cur, u) else none with
  | some (cur, u) =>
    let x := ({ t with contexts := t.contexts ++ [(i, cur.acct, cur.ring, cur.seq)] } : State).wrb (Reg.TIL_STA.CONTEXT_HELD i) true
    ((x.count (Reg.TIL_PREEMPT.COUNT i) 1).raise (0x100 + i) 3).takeTurn i u
  | none => t.tileNext i

/-- No slice of tile `i` ends while its op waits for a die link that retrains (R30). -/
def State.tileWaits (s : State) (i : Nat) : Bool := s.dlkHeld && (s.tileRuns i).any s.crossesLink

def execSliceBoundary (tile : Nat) (exc : Bool) (s : State) : Result :=
  .next (if tile < 48 ∧ s.computeOn ∧ !s.tileWaits tile then s.sliceBoundary tile exc else s)

/-- An uncorrectable scratch error (R480). -/
def State.scratchError (s : State) (i : Nat) : State :=
  let bad := (s.tileRuns i).toList ++ (s.contexts.filter fun c => c.1 = i).filterMap fun c => s.opAt c.2.1 c.2.2.1 c.2.2.2
  let t := bad.foldl (fun t o => if o.phase = .running then t.cutOp o ⟨Code.UNCORRECTABLE, 0, 15⟩ else t) s
  let t := ((t.tileIdleNow i).dropContext i).count (Reg.TIL_ECC.UNCORR i) 1
  ((t.raise (0x100 + i) 2).setFault (0x100 + i)).wrb (Reg.TIL_STA.IN_POOL i) false

def execTileScratchError (tile : Nat) (s : State) : Result :=
  .next (if tile < 48 ∧ s.computeOn ∧ !s.on (Reg.STA.FAULT (0x100 + tile)) then s.scratchError tile else s)

/-- TIL_PWR_REQ takes a PF write; a request to leave ON is refused on the URGENT tile (R474, R478). -/
def execTilePwrReq (req : Req) (tile value : Nat) (s : State) : Result :=
  .next (
    if !(s.pf req) ∨ 48 ≤ tile ∨ 3 ≤ value then s
    else if s.on (Reg.TIL_STA.URGENT_ONLY tile) ∧ value ≠ 0 then s.lastStatus (0x100 + tile) Code.LIMIT
    else (s.wr (Reg.TIL_PWR_REQ.REQ tile) value).tileSettle tile)

def execTileWakeDone (tile : Nat) (s : State) : Result :=
  .next (
    if tile < 48 ∧ s.rd (Reg.TIL_STA.STATE tile) = 3 then
      ((s.wr (Reg.TIL_STA.STATE tile) 0).raise (0x100 + tile) 0).tileSettle tile
    else s)

/-- CTL.ENABLE of a tile: a write of 1 to a faulted tile is ignored (R478). -/
def execTileEnable (req : Req) (tile : Nat) (on : Bool) (s : State) : Result :=
  .next (
    if (s.pf req ∨ (req = .sec ∧ s.reqLive req)) ∧ tile < 48 ∧ !s.resetting (0x100 + tile) ∧ !(on && s.on (Reg.STA.FAULT (0x100 + tile))) then
      (s.wrb (Reg.CTL.ENABLE (0x100 + tile)) on).tileSettle tile
    else s)

end Sys2Proof.Machine
end

