-- ==== Sys2Proof/Machine/FabOps.lean ====
section
/-!
DEFINITION. The transport of the Dunist fabric: messages, streams, the port a message waits on, packets sent and sent again, and the
checks of a target (R590-R613).
-/
namespace Sys2Proof.Machine

/-! Ports (R584). -/
abbrev PortSt.DISABLED : Nat := 0
abbrev PortSt.TRAINING : Nat := 1
abbrev PortSt.VERIFY : Nat := 2
abbrev PortSt.UP : Nat := 3
abbrev PortSt.ADAPTING : Nat := 4
abbrev PortSt.DOWN : Nat := 5
abbrev PortSt.MISWIRED : Nat := 6

def State.portSt (s : State) (p : Nat) : Nat := s.rd (Reg.FPT_STA.STATE p)
def State.portUp (s : State) (p : Nat) : Bool := decide (p < 18) && s.portSt p = PortSt.UP
def State.fport (s : State) (p : Nat) : FabPort := tblGet default s.fports p
def State.setFport (s : State) (p : Nat) (x : FabPort) : State := { s with fports := tblSet default s.fports p x }

/-- A mesh port, and an uplink (R592, R593). -/
def State.isMesh (s : State) (p : Nat) : Bool := (List.range 16).any fun m => s.meshPort m = p
def State.isUplink (s : State) (p : Nat) : Bool := (List.range 3).any fun k => s.uplinkPort k = p

/-- The half whose die holds a port, and whether traffic between it and an engine of a half crosses the die link (FAB_XFER, R26, R28). -/
def portHalf (p : Nat) : Nat := if p < 9 then 0 else 1
def portFar (half : Option Nat) (p : Nat) : Bool := decide (p < 18) && half.any (· ≠ portHalf p)

/-- The die link has failed for such traffic (R59). -/
def State.linkCuts (s : State) (half : Option Nat) (p : Nat) : Bool := portFar half p && !s.dlkUp && !s.dlkHeld

/-- Payload of such traffic, towards a half. -/
def State.fabLink (s : State) (half : Option Nat) (p dest n : Nat) : State := if portFar half p then s.linkBytes dest n else s

/-! Message kinds, channels (R596, R598). -/
abbrev Kind.WRITE : Nat := 1
abbrev Kind.READ_REQ : Nat := 2
abbrev Kind.READ_RSP : Nat := 3
abbrev Kind.WRITE_DONE : Nat := 4
abbrev Kind.PART_REQ : Nat := 5
abbrev Kind.PART_RSP : Nat := 6
abbrev Kind.COLL : Nat := 7
abbrev Kind.CONTROL : Nat := 8

/-- The port number of a message that loops back inside XPT (R607). -/
def loopPort : Nat := 31

/-- The channel of an account's WRITE and READ_REQ messages. -/
def State.dataChan (s : State) (a : Nat) : Nat := 3 + min 2 (s.classOf a)

/-- The priority of a channel. -/
def State.chanPcp (s : State) (c : Nat) : Nat := bits (s.rd Reg.XPT_PCP.PCP) (3 * c) 3

/-! Streams. -/

def streamKey (node chan : Nat) : Nat := 8 * node + chan
def State.tx (s : State) (node chan : Nat) : TxStream := tblGet default s.txStreams (streamKey node chan)
def State.setTx (s : State) (node chan : Nat) (x : TxStream) : State := { s with txStreams := tblSet default s.txStreams (streamKey node chan) x }

/-- Packets of a message. -/
def FabMsg.packets (m : FabMsg) : Nat := max 1 ((m.body.length + 4095) / 4096)

/-- Distance in 32-bit sequence numbers. -/
def seqDist (a b : Nat) : Nat := (b + 2 ^ 32 - a % 2 ^ 32) % 2 ^ 32

/-- A message has packets not sent. -/
def FabMsg.unsent (m : FabMsg) : Bool := m.granted && decide (m.sent < m.packets)

/-- Packet `i` of a message as it leaves; `retx` marks one sent again. -/
def FabMsg.out (m : FabMsg) (i : Nat) (retx : Bool) : Out :=
  .packet m.port m.dst m.chan ((m.first + i) % 2 ^ 32) (4096 * i) (min 4096 (m.body.length - 4096 * i)) retx
    (match m.poisonAt with | some p => decide (p / 4096 ≤ i) | none => false)

/-- The plane of a stream and the port of it (R592, R593); the numbers enter the hash as 2, 2 and 1 little-endian bytes. -/
def State.routePort (s : State) (node chan : Nat) : Nat :=
  if node = s.node then loopPort
  else if s.inPod node then s.meshPort (node % 16)
  else
    let planes := (List.range 3).filter fun k => s.uplinkPort k ≠ 0xFF
    if planes.isEmpty then loopPort + 1
    else
      let i := crc32c (leBytes 2 s.node ++ leBytes 2 node ++ leBytes 1 chan) % planes.length
      let order := planes.drop i ++ planes.take i
      match order.find? fun k => s.portUp (s.uplinkPort k) with
      | some k => s.uplinkPort k
      | none => s.uplinkPort (planes.getD i 0)

/-- A stream changes its port only while none of its packets is unacknowledged. -/
def State.streamPort (s : State) (node chan : Nat) : Nat :=
  match (s.tx node chan).msgs.filter fun m => m.granted with
  | m :: _ => m.port
  | [] => s.routePort node chan

/-- FPT_HELD.LEVEL of every port: messages that wait on a port that is not UP (R590). -/
def State.refreshHeld (s : State) : State :=
  let waiting := s.txStreams.flatMap fun e => e.2.msgs.filter fun m => !m.granted
  (List.range 18).foldl (fun t p => t.wr (Reg.FPT_HELD.LEVEL p) (if s.portUp p then 0 else (waiting.filter fun m => m.port = p).length)) s

/-! Receiving (R608). -/

/-- The first check of R608 that a WRITE or READ_REQ fails; `len` bytes at `off` of a window. -/
def State.exportCode (s : State) (src srcAcct acct win off len rtally : Nat) (wr : Bool) : Nat :=
  let size := s.rd (Reg.ACT_WIN_CTL.SIZE acct win) * granule
  if 32 ≤ acct ∨ !s.on (Reg.CTL.ENABLE (0x40 + acct)) then Code.PERMISSION
  else if src &&& s.rd (Reg.XPT_EXPORT.NODE_MASK acct) ≠ s.rd (Reg.XPT_EXPORT.NODE_MATCH acct)
      ∨ !bit (s.rd (Reg.XPT_EXPORT_ACCT.ACCTS acct)) srcAcct then Code.PERMISSION
  else if 16 ≤ win ∨ !(if wr then s.on (Reg.ACT_WIN_CTL.WR acct win) && bit (s.rd (Reg.XPT_EXPORT.WR acct)) win
      else s.on (Reg.ACT_WIN_CTL.RD acct win) && bit (s.rd (Reg.XPT_EXPORT.RD acct)) win) then Code.PERMISSION
  else if size < off + len then Code.BOUNDS
  else if bit rtally 31 ∧ !(s.ownsTally acct (rtally % 2 ^ 18) && s.on (Reg.XPT_EXPORT_TALLY.ENABLE acct)) then Code.PERMISSION
  else Code.OK

/-- The device address of an offset in a window. -/
def State.windowAddr (s : State) (acct win off : Nat) : Nat := s.rd (Reg.ACT_WIN_BASE.BASE acct win) * granule + off

/-- The length that the first packet of a request names. -/
def RxMsg.span (m : RxMsg) : Nat := if m.kind = Kind.READ_REQ then m.value else m.len

/-- The outcome of the checks at a message's first packet. -/
def State.firstCode (s : State) (m : RxMsg) : Nat :=
  if m.kind = Kind.WRITE then s.exportCode m.src m.srcAcct m.dstAcct m.dstWin m.dstOffset m.span m.rtally true
  else if m.kind = Kind.READ_REQ then s.exportCode m.src m.srcAcct m.dstAcct m.dstWin m.dstOffset m.span 0 false
  else Code.OK

/-- The offset in a window of a device address in it. -/
def State.windowOffset (s : State) (acct win addr : Nat) : Nat := addr - s.windowAddr acct win 0

/-- A WRITE's bytes are written as their packet is accepted at port `p`, until one fails or is poisoned (R609, R610). -/
def State.takeBytes (s : State) (p : Nat) (m : RxMsg) (off : Nat) (bs : List Byte) (poison : Bool) : State × RxMsg :=
  let m := { m with bytes := m.bytes ++ bs, poison := m.poison || poison }
  if m.kind ≠ Kind.WRITE ∨ m.code ≠ Code.OK ∨ m.poison ∨ bs.isEmpty then (s, m)
  else
    let a := s.windowAddr m.dstAcct m.dstWin (m.dstOffset + off)
    if s.linkCuts (some (homeHalf a)) p then (s, { m with code := Code.LINK_NOT_READY })
    else match s.writeFault a bs.length with
    | some f => (s.noteFault f true Source.FABRIC m.dstAcct, { m with code := f.1, value := s.windowOffset m.dstAcct m.dstWin f.2 })
    | none => ((s.writeExtent a bs).fabLink (some (homeHalf a)) p (homeHalf a) bs.length, m)

/-! Sending. -/

/-- A granted request whose response is due (R613). -/
def FabMsg.request (m : FabMsg) (now : Nat) : List FabReq :=
  match m.owner with
  | some o => if m.kind = Kind.WRITE ∨ m.kind = Kind.READ_REQ ∨ m.kind = Kind.PART_REQ then [⟨o, m.dst, m.chan, m.first, m.port, now, m.retx, m.tag⟩] else []
  | none => []

/-- A message that loops back arrives whole, under the checks of its target. -/
def State.loopBack (s : State) (m : FabMsg) : State :=
  let x := s.tx m.dst m.chan
  let m := { m with first := x.next, granted := true, sent := m.packets }
  let r : RxMsg := ⟨s.node, m.chan, m.first, m.body.length, m.kind, m.srcAcct, m.dstAcct, m.dstWin, m.status, m.dstOffset, m.rtally, m.reqSeq,
    m.value, [], 0, false, true⟩
  let r := { r with code := s.firstCode r }
  let cut := match m.poisonAt with | some p => p / 4096 * 4096 | none => m.body.length
  let a := s.takeBytes loopPort r 0 (m.body.take cut) false
  let b := if cut < m.body.length ∨ m.poisonAt.isSome then (a.1.takeBytes loopPort a.2 cut (m.body.drop cut) true) else a
  let next := (x.next + m.packets) % 2 ^ 32
  let t := b.1.setTx m.dst m.chan { x with next := next, acked := next }
  ({ t with inbox := t.inbox ++ [b.2], requests := t.requests ++ m.request s.uptime } : State).countWrap Reg.XPT_TX_MSG.COUNT 1

/-- A message enters the queue of its port (R590), or loops back. A response does not leave its half over a failed die link; a message of an
op waits there to fail LINK_NOT_READY (R59). -/
def State.sendMsg (s : State) (m : FabMsg) : State :=
  let m := { m with port := s.streamPort m.dst m.chan, entered := s.uptime }
  if m.port = loopPort then s.loopBack m
  else if s.linkCuts m.half m.port ∧ m.owner.isNone then s
  else
    let x := s.tx m.dst m.chan
    (s.setTx m.dst m.chan { x with msgs := x.msgs ++ [m] }).refreshHeld

/-- A message with the fields every kind sets. -/
def fabMsg (dst chan kind srcAcct dstAcct : Nat) (body : List Byte) (owner : Option (Nat × Nat × Nat)) : FabMsg :=
  ⟨dst, chan, kind, srcAcct, dstAcct, 0, 0, 0, 0, 0, 0, body, none, owner, 0, 0, false, 0, 0, 0, 0, none⟩

/-- The answer to a request (R596, R609): READ_RSP, WRITE_DONE or PART_RSP, on channel 6. -/
def State.answerMsg (s : State) (m : RxMsg) (kind status info : Nat) (body : List Byte) (poisonAt half : Option Nat) : State :=
  s.sendMsg { fabMsg m.src 6 kind m.dstAcct m.srcAcct body none with
    status := status, reqSeq := m.first, value := info, poisonAt := poisonAt, half := half }

/-- Send the packets of granted messages while fewer than 256 are unacknowledged (R601). -/
def pumpMsgs (acked : Nat) : Nat → List FabMsg → Nat × List FabMsg × List Out
  | next, [] => (next, [], [])
  | next, m :: ms =>
    if m.unsent then
      let room := 256 - min 256 (seqDist acked next)
      let n := min room (m.packets - m.sent)
      let outs := (List.range n).map fun i => m.out (m.sent + i) false
      let r := pumpMsgs acked ((next + n) % 2 ^ 32) ms
      (r.1, { m with sent := m.sent + n } :: r.2.1, outs ++ r.2.2)
    else
      let r := pumpMsgs acked next ms
      (r.1, m :: r.2.1, r.2.2)

/-- Count frames that a port sends. -/
def State.emitFrames (s : State) (outs : List Out) : State :=
  outs.foldl (fun t o => match o with
    | .packet p .. => (t.emit o).countWrap (Reg.FPT_TX_FRAMES.COUNT p) 1
    | o => t.emit o) s

def State.pumpStream (s : State) (node chan : Nat) : State :=
  let x := s.tx node chan
  if (x.msgs.filter FabMsg.unsent).any fun m => !s.portUp m.port || bit (s.fport m.port).paused (s.chanPcp chan) then s
  else
    let r := pumpMsgs x.acked x.next x.msgs
    (s.setTx node chan { x with next := r.1, msgs := r.2.1 }).emitFrames r.2.2

/-- The stream's oldest unacknowledged packet advances to `seq`: messages acknowledged whole leave the sender. -/
def State.advanceTx (s : State) (node chan seq : Nat) : State :=
  let x := s.tx node chan
  if seqDist x.acked seq = 0 ∨ seqDist x.acked x.next < seqDist x.acked seq then s
  else
    let past (m : FabMsg) : Bool := m.granted && m.sent = m.packets && decide (seqDist x.acked (m.first + m.packets) ≤ seqDist x.acked seq)
    let done := (x.msgs.filter past).length
    ((s.setTx node chan { x with acked := seq, msgs := x.msgs.filter fun m => !past m }).countWrap Reg.XPT_TX_MSG.COUNT done).pumpStream node chan

/-- Sequence numbers already sent and not acknowledged. -/
def unackedSeqs (x : TxStream) : List Nat := (List.range (min 256 (seqDist x.acked x.next))).map fun i => (x.acked + i) % 2 ^ 32

/-- Resend every unacknowledged packet in order, with RETX (R601). -/
def State.resend (s : State) (node chan : Nat) : State :=
  let x := s.tx node chan
  let inMsg (m : FabMsg) (q : Nat) : Bool := m.granted && decide (seqDist m.first q < m.sent)
  let l := (unackedSeqs x).filterMap fun q => (x.msgs.find? fun m => inMsg m q).map fun m => (m, q)
  if l.isEmpty ∨ (l.any fun p => !s.portUp p.1.port) then s
  else
    let outs := l.map fun p => p.1.out (seqDist p.1.first p.2) true
    let msgs := x.msgs.map fun m => { m with retx := m.retx + ((unackedSeqs x).filter (inMsg m)).length }
    let reqs := s.requests.map fun r =>
      if r.dst = node ∧ r.chan = chan then
        match msgs.find? fun m => m.granted && m.first = r.seq with | some m => { r with retx := m.retx } | none => r
      else r
    let t := (s.setTx node chan { x with msgs := msgs }).count Reg.XPT_RETX.COUNT l.length
    ({ t with requests := reqs } : State).emitFrames outs

/-- The message that port `p`'s arbiter grants next: the first not granted of a stream with none half sent, by priority (R603); one that
crosses the die link waits while the link is not up (R30). -/
def State.nextGrant (s : State) (p : Nat) : Option FabMsg :=
  let heads := s.txStreams.filterMap fun e =>
    if e.2.msgs.any FabMsg.unsent then none
    else (e.2.msgs.find? fun m => !m.granted).filter fun m => m.port = p && !bit (s.fport p).paused (s.chanPcp m.chan) && (s.dlkUp || !portFar m.half p)
  heads.foldl (fun b m => match b with
    | some x => if s.chanPcp x.chan < s.chanPcp m.chan then some m else some x
    | none => some m) none

/-- Grant one message (R603): it takes its sequence numbers and goes out whole. -/
def State.grant (s : State) (m : FabMsg) : State :=
  let x := s.tx m.dst m.chan
  let g := { m with granted := true, first := x.next }
  let swap : Bool → List FabMsg → Bool × List FabMsg := fun done l => l.foldl (fun acc y =>
    if !acc.1 ∧ !y.granted then (true, acc.2 ++ [g]) else (acc.1, acc.2 ++ [y])) (done, [])
  let t := (s.setTx m.dst m.chan { x with msgs := (swap false x.msgs).2 }).fabLink m.half m.port (portHalf m.port) m.body.length
  (({ t with requests := t.requests ++ g.request m.entered } : State).pumpStream m.dst m.chan).refreshHeld

/-- The queued, not granted messages of an op leave their queues (R604). -/
def State.cancelQueued (s : State) (owner : Nat × Nat × Nat) : State :=
  ({ s with txStreams := s.txStreams.map fun e => (e.1, { e.2 with msgs := e.2.msgs.filter fun m => m.granted || m.owner ≠ some owner }) } : State).refreshHeld

/-- An op has a message that no arbiter granted. -/
def State.queuedOf (s : State) (owner : Nat × Nat × Nat) : List FabMsg :=
  s.txStreams.flatMap fun e => e.2.msgs.filter fun m => !m.granted && m.owner = some owner

/-- An op waits for a response. -/
def State.awaiting (s : State) (owner : Nat × Nat × Nat) : List FabReq := s.requests.filter fun r => r.owner = owner

def Op.key (o : Op) : Nat × Nat × Nat := (o.acct, o.ring, o.seq)

/-- The requests of an op are forgotten: a later response is discarded (R613). -/
def State.forgetRequests (s : State) (owner : Nat × Nat × Nat) : State := { s with requests := s.requests.filter fun r => r.owner ≠ owner }

/-- DETAIL of R612. -/
def fabDetail (retx : Nat) (remote : Bool) : Nat := 4096 * min retx 65535 + 2 ^ 28 * b2n remote

/-- INFO of R613. -/
def peerInfo (node port : Nat) : Nat := node + 65536 * port

/-! FAB_WRITE and FAB_READ (R607-R613). -/

/-- The first line at which a source fails, as an offset in it. -/
def State.sourceFault (s : State) (half addr n : Nat) : Option (Nat × Nat × Nat) :=
  if n = 0 then none
  else match s.extentFault half ⟨⟨addr, n, Fmt.RAW, 0, 0⟩, true, false⟩ with
    | some f =>
      let line := (grains addr n).find? fun g => s.storageFaulted g || s.poisoned g
      some (f.1, f.2, match line with | some g => g - min g addr | none => 0)
    | none => none

/-- The die link has failed between an op and the port towards a node. -/
def State.opCut (s : State) (o : Op) (node chan : Nat) : Bool := s.linkCuts (some (s.opHalf o)) (s.streamPort node chan)

def State.fabWrite (s : State) (o : Op) : State :=
  let x := operandAt o.desc 0x40
  let d := o.desc
  let f := s.sourceFault (s.opHalf o) x.addr x.len
  let t := match f with
    | some e => (s.noteOp o ⟨e.1, e.2.1, 0⟩ false).setOp { o with code := e.1, info := e.2.1 }
    | none => s
  if s.opCut o (descAt d 0x50 2) (s.dataChan o.acct) then s.endCode o Code.LINK_NOT_READY
  else if f.any fun e => e.1 ≠ Code.POISON && e.1 ≠ Code.UNCORRECTABLE then s.endOp o ⟨f.map (·.1) |>.getD 0, 0, 0⟩ 0
  else t.sendMsg { fabMsg (descAt d 0x50 2) (s.dataChan o.acct) Kind.WRITE o.acct (descAt d 0x52 1) (s.operandBytes x) (some o.key) with
    dstWin := descAt d 0x53 1, dstOffset := descAt d 0x58 8, rtally := descAt d 0x60 4, value := descAt d 0x68 8, poisonAt := f.map (·.2.2), half := some (s.opHalf o) }

def execFabWrite (a r seq : Nat) (s : State) : Result := .next (s.issueMem a r seq 0x0300 State.fabWrite)

def State.fabRead (s : State) (o : Op) : State :=
  let x := operandAt o.desc 0x40
  let d := o.desc
  if s.opCut o (descAt d 0x50 2) (s.dataChan o.acct) then s.endCode o Code.LINK_NOT_READY
  else s.sendMsg { fabMsg (descAt d 0x50 2) (s.dataChan o.acct) Kind.READ_REQ o.acct (descAt d 0x52 1) [] (some o.key) with
    dstWin := descAt d 0x53 1, dstOffset := descAt d 0x58 8, value := x.len, half := some (s.opHalf o) }

def execFabRead (a r seq : Nat) (s : State) : Result := .next (s.issueMem a r seq 0x0301 State.fabRead)

end Sys2Proof.Machine
end

