-- ==== Sys2Proof/Machine/Folios.lean ====
section
/-!
DEFINITION. Folios, their page tables and pools, APPEND_KV, and attention over the tree of partials (R539-R570).
-/
namespace Sys2Proof.Machine

/-! Records and page tables (R540-R544). -/
abbrev FolioSt.CLOSED : Nat := 0
abbrev FolioSt.OPEN : Nat := 1

def State.folio (s : State) (f : Nat) : Folio := tblGet default s.folios f

/-- LEN of a layer. -/
def Folio.lenOf (x : Folio) (l : Nat) : Nat := tblGet (x.basePage * 256) x.len l
def Folio.setLen (x : Folio) (l n : Nat) : Folio := { x with len := tblSet (x.basePage * 256) x.len l n }

/-- The key of a page in a table, and its entry. -/
def pageKey (l i : Nat) : Nat := 131072 * l + i
def Folio.entry (x : Folio) (l i : Nat) : Nat := tblGet 0 x.table (pageKey l i)
def Folio.setEntry (x : Folio) (l i e : Nat) : Folio := { x with table := tblSet 0 x.table (pageKey l i) e }

/-- CLASS of an entry (R543). -/
abbrev Entry.EMPTY : Nat := 0
abbrev Entry.LOCAL : Nat := 1
abbrev Entry.OTHER_HALF : Nat := 2
abbrev Entry.PEER : Nat := 3
def entryClass (e : Nat) : Nat := e % 4
def poolEntry (class_ pool slot : Nat) : Nat := class_ + 4 * pool + 1024 * slot
def peerEntry (node ref gen : Nat) : Nat := 3 + 4 * node + 2 ^ 18 * ref + 2 ^ 28 * gen

/-- Show the folio and layer that FOL_QUERY names, of this half (R570). -/
def State.showQuery (s : State) (half : Nat) : State :=
  let f := s.rd (Reg.FOL_QUERY.FOLIO half)
  let l := s.rd (Reg.FOL_QUERY.LAYER half)
  let x := if f / 512 = half then s.folio f else default
  let t := ((s.wr (Reg.FOL_QUERY_STA.STATE half) x.st).wr (Reg.FOL_QUERY_STA.KIND half) x.kind).wr (Reg.FOL_QUERY_STA.GEN half) x.gen
  let pool := x.table.filter fun e => entryClass e.2 = Entry.LOCAL || entryClass e.2 = Entry.OTHER_HALF
  (((t.wr (Reg.FOL_QUERY_STA.FMT half) x.fmt).wr (Reg.FOL_QUERY_STA.LAYERS half) x.layers).wr (Reg.FOL_QUERY_LEN.LEN half)
    (if x.st = 0 ∨ x.layers ≤ l then 0 else x.lenOf l)).wr (Reg.FOL_QUERY_PAGES.PAGES half) pool.length

/-- A folio's record changes, and with it what FOL_QUERY shows. -/
def State.setFolio (s : State) (f : Nat) (x : Folio) : State :=
  ({ s with folios := tblSet default s.folios f x } : State).showQuery (f / 512)

/-- Bytes of a part, and of a page (R542). -/
def partBytes (fmt hd : Nat) : Nat := if fmt = Fmt.BF16 then 512 * hd else if fmt = Fmt.MXFP4 then 136 * hd else 264 * hd
def Folio.pageBytes (x : Folio) : Nat := 2 * x.kvHeads * partBytes x.fmt x.headDim

/-- Entries of an allotment. -/
def allotment (layers pages : Nat) : Nat := (layers * pages + 65535) / 65536 * 65536

/-- Table entries of a half that no open folio holds. -/
def State.tableFree (s : State) (half : Nat) : Nat :=
  33554432 - ((s.folios.filter fun e => e.1 / 512 = half && e.2.st ≠ 0).map fun e => allotment e.2.layers e.2.maxPages).sum

/-- Bring FOL_STA and FOL_TABLE_FREE up to date. -/
def State.refreshFol (s : State) (half : Nat) : State :=
  let l := s.folios.filter fun e => e.1 / 512 = half && e.2.st ≠ 0
  ((s.wr (Reg.FOL_STA.OPEN half) l.length).wr (Reg.FOL_STA.SHADOWS half) (l.filter fun e => e.2.kind = 1).length).wr
    (Reg.FOL_TABLE_FREE.ENTRIES half) (s.tableFree half)

/-! Pools (R545, R546). -/

/-- Pop a slot of a pool. -/
def State.popSlot (s : State) (p : Nat) : Option (Nat × State) :=
  let x := tblGet default s.pools p
  let free := Reg.FOL_POOL_FREE.FREE (p / 64) (p % 64)
  let dec (t : State) : State :=
    let n := t.rd free - 1
    let u := t.wr free n
    if n ≤ t.poolPages p / 16 then u.raise (0x1C0 + p / 64) 0 else u
  match x.freed with
  | k :: rest => some (k, dec { s with pools := tblSet default s.pools p { x with freed := rest } })
  | [] => if x.next < s.poolPages p then some (x.next, dec { s with pools := tblSet default s.pools p { x with next := x.next + 1 } }) else none

/-- Push a slot back. -/
def State.pushSlot (s : State) (p k : Nat) : State :=
  let x := tblGet default s.pools p
  let free := Reg.FOL_POOL_FREE.FREE (p / 64) (p % 64)
  ({ s with pools := tblSet default s.pools p { x with freed := k :: x.freed } } : State).wr free (s.rd free + 1)

/-- Free the pool page of an entry. -/
def State.freeEntry (s : State) (e : Nat) : State :=
  if entryClass e = Entry.LOCAL ∨ entryClass e = Entry.OTHER_HALF then s.pushSlot (bits e 2 7) (bits e 10 22) else s

/-- The device address of a pool page. -/
def State.pageAddr (s : State) (e : Nat) : Nat :=
  let p := bits e 2 7
  s.rd (Reg.FOL_POOL_BASE.BASE (p / 64) (p % 64)) * granule + bits e 10 22 * s.rd (Reg.FOL_POOL_STRIDE.LINES (p / 64) (p % 64)) * 64

/-- The pages and layers a folio holds an entry for, in page order and within a page in layer order. -/
def Folio.entriesInOrder (x : Folio) (first count : Nat) : List Nat :=
  ((List.range count).flatMap fun i => (List.range x.layers).map fun l => x.entry l (first + i)).filter (· ≠ 0)

/-- The entries of a folio in page order and within a page in layer order, from those its table lists. -/
def Folio.allEntries (x : Folio) : List Nat :=
  ((x.table.map fun e => (e.1 % 131072 * 128 + e.1 / 131072, e.2)).mergeSort fun p q => decide (p.1 ≤ q.1)).map (·.2)

/-- A folio closes (R541): its pages return to their pools; GEN stays. -/
def State.closeFolio (s : State) (f : Nat) : State :=
  let x := s.folio f
  let t := x.allEntries.foldl State.freeEntry s
  (t.setFolio f { (default : Folio) with gen := x.gen }).refreshFol (f / 512)

/-! Exclusion (R549). -/

def isFolioOp (o : Op) : Bool := decide (0x0200 ≤ o.opcode) && decide (o.opcode ≤ 0x0204)

/-- The folio and layer an op names; the whole folio for the ops that name no layer. -/
def Op.folioRef (o : Op) : Nat × Option Nat :=
  if o.opcode = 0x0202 ∨ o.opcode = 0x0203 then (descAt o.desc 0x60 2, some (descAt o.desc 0x62 1)) else (descAt o.desc 0x40 2, none)

/-- Two folio ops exclude each other. -/
def folioConflict (x y : Op) : Bool :=
  x.folioRef.1 = y.folioRef.1 && !(x.opcode = 0x0203 && y.opcode = 0x0203)
    && (match x.folioRef.2, y.folioRef.2 with | some a, some b => a = b | _, _ => true)

/-- An op must wait for a running ATTEND, or for an op that waits before it. -/
def State.folioBlocked (s : State) (o : Op) (before : List Op) : Bool :=
  (s.attends.any fun t => (s.ops.find? fun x => x.key = t.owner).any (folioConflict o))
    || before.any fun x => x.phase = .held && isFolioOp x && folioConflict o x

/-- The op waits in its engine, behind the ops that wait already. -/
def State.holdOp (s : State) (o : Op) : State :=
  { s with ops := (s.ops.filter fun x => !x.is o.acct o.ring o.seq) ++ [{ o with phase := .held }] }

/-! FOLIO_OPEN, FOLIO_CLOSE, FOLIO_LINK (R550-R553). -/

def State.folioOpen (s : State) (o : Op) : State :=
  let d := o.desc
  let f := descAt d 0x40 2
  let half := f / 512
  let span := 2 ^ descAt d 0x4D 1
  let x : Folio := ⟨1, descAt d 0x42 1, descAt d 0x43 1, descAt d 0x44 1, descAt d 0x45 1, descAt d 0x46 2, descAt d 0x48 4, descAt d 0x4C 1,
    descAt d 0x4D 1, descAt d 0x54 4, descAt d 0x50 2, descAt d 0x52 2, ((s.folio f).gen + 1) % 64, o.acct, [], []⟩
  let fields := (x.fmt = Fmt.BF16 || x.fmt = Fmt.MXE4M3 || x.fmt = Fmt.MXFP4) && decide (1 ≤ x.layers) && decide (x.layers ≤ 128)
    && decide (1 ≤ x.kvHeads) && decide (x.kvHeads ≤ 16) && decide (64 ≤ x.headDim) && decide (x.headDim ≤ 256) && x.headDim % 32 = 0
    && decide (4 ≤ x.spanLog2) && decide (x.spanLog2 ≤ 16) && decide (1 ≤ x.maxPages) && decide (x.maxPages ≤ 131072) && x.maxPages % span = 0
    && decide (x.pool < 128)
    && (if x.kind = 0 then x.basePage = 0 && x.homeNode = 0 && x.homeFolio = 0
        else x.basePage % span = 0 && x.homeNode ≠ s.node && decide (x.homeFolio < 1024))
  if (s.folio f).st ≠ FolioSt.CLOSED then s.endCode o Code.LIMIT
  else if !fields then s.endCode o Code.FORMAT
  else if 131072 < x.basePage + x.maxPages then s.endCode o Code.BOUNDS
  else if s.rd (Reg.FOL_POOL_STRIDE.LINES (x.pool / 64) (x.pool % 64)) * 64 < x.pageBytes then s.endCode o Code.FORMAT
  else if s.tableFree half < allotment x.layers x.maxPages then s.endCode o Code.LIMIT
  else ((s.setFolio f x).refreshFol half).endOk o (4096 * x.gen)

def State.folioClose (s : State) (o : Op) : State :=
  let f := descAt o.desc 0x40 2
  if (s.folio f).st ≠ FolioSt.OPEN then s.endCode o Code.LIMIT else (s.closeFolio f).endOk o 0

def State.folioLink (s : State) (o : Op) : State :=
  let d := o.desc
  let f := descAt d 0x40 2
  let first := descAt d 0x44 4
  let count := descAt d 0x48 4
  let x := s.folio f
  let span := 2 ^ x.spanLog2
  let stop := first + count
  let e := peerEntry (descAt d 0x4C 2) (descAt d 0x4E 2) (descAt d 0x50 1)
  let layers := List.range x.layers
  let fits := layers.all fun l =>
    ((List.range count).all fun i => x.entry l (first + i) = 0 || (entryClass (x.entry l (first + i)) ≠ Entry.PEER && decide ((first + i + 1) * 256 ≤ x.lenOf l)))
      && (decide (stop * 256 ≤ x.lenOf l) || x.lenOf l = first * 256)
  if x.st ≠ FolioSt.OPEN ∨ x.kind ≠ 0 then s.endCode o Code.LIMIT
  else if first % span ≠ 0 ∨ count % span ≠ 0 ∨ count = 0 ∨ 1023 < descAt d 0x4E 2 ∨ 63 < descAt d 0x50 1 ∨ descAt d 0x4C 2 = s.node then s.endCode o Code.FORMAT
  else if x.maxPages < stop then s.endCode o Code.BOUNDS
  else if !fits then s.endCode o Code.BOUNDS
  else
    let y := layers.foldl (fun y l => (List.range count).foldl (fun y i => y.setEntry l (first + i) e) y) x
    let y := layers.foldl (fun y l => if y.lenOf l < stop * 256 then y.setLen l (stop * 256) else y) y
    ((x.entriesInOrder first count).foldl State.freeEntry (s.setFolio f y)).endOk o 0

/-! KV parts (R542, R556, R560). -/

/-- The bytes that store token `j`'s vector in a part, by offset in the part. -/
def kvWrites (fmt hd j : Nat) (xs : List Num) : List (Nat × List Byte) :=
  if fmt = Fmt.BF16 then [(2 * hd * j, (encodeRows Fmt.BF16 hd xs).1)]
  else (pieces 32 xs).zipIdx.flatMap fun p =>
    let b := mxQuantise fmt p.1
    let k := j * (hd / 32) + p.2
    let base := k / 32 * groupBytes fmt
    let body := if fmt = Fmt.MXFP4 then (pieces 2 b.codes).map fun c => BitVec.ofNat 8 (c.getD 0 0 + 16 * c.getD 1 0) else b.codes.map (BitVec.ofNat 8)
    [(base + k % 32, [BitVec.ofNat 8 b.scale]), (base + 32 + fmtUnit fmt * (k % 32), body)]

/-- Token `j`'s vector of a part as MXFP8 E4M3 values (R560). -/
def kvRead (fmt hd j : Nat) (part : List Byte) : List Num :=
  if fmt = Fmt.BF16 then
    (pieces 32 ((List.range hd).map fun c => fmtBf16.decode (fieldAt part (2 * hd * j + 2 * c) 2))).flatMap fun b =>
      (mxQuantise Fmt.MXE4M3 b).values Fmt.MXE4M3
  else (List.range hd).map fun c => elemAt fmt (256 * hd) part (j * hd + c)

/-! APPEND_KV (R554-R556). -/

/-- Pop a slot for each EMPTY page; the state, the folio and the pages allocated. -/
def allocPages (pool class_ l : Nat) : List Nat → State × Folio × Nat → Option (State × Folio × Nat)
  | [], acc => some acc
  | i :: is, (s, x, n) =>
    if x.entry l i ≠ 0 then allocPages pool class_ l is (s, x, n)
    else match s.popSlot pool with
      | some (k, t) => allocPages pool class_ l is (t, x.setEntry l i (poolEntry class_ pool k), n + 1)
      | none => none

def State.appendKv (s : State) (o : Op) : State :=
  let d := o.desc
  let k := operandAt d 0x40
  let v := operandAt d 0x50
  let f := descAt d 0x60 2
  let l := descAt d 0x62 1
  let count := descAt d 0x64 4
  let start := descAt d 0x68 4
  let x := s.folio f
  let row := x.kvHeads * x.headDim
  let pages := (List.range ((start + count + 255) / 256 - start / 256)).map fun i => start / 256 + i
  let empty := (pages.filter fun i => x.entry l i = 0).length
  let half := f / 512
  if count = 0 ∨ k.len = 0 ∨ v.len = 0 then s.endOk o 0
  else if x.st ≠ FolioSt.OPEN then s.endCode o Code.LIMIT
  else if x.layers ≤ l then s.endCode o Code.BOUNDS
  else if k.fmt ≠ v.fmt ∨ k.len ≠ implied k.fmt count row ∨ v.len ≠ implied v.fmt count row then s.endCode o Code.FORMAT
  else if start ≠ x.lenOf l then s.endCode o Code.BOUNDS
  else if (x.basePage + x.maxPages) * 256 < start + count then s.endCode o Code.LIMIT
  else if pages.any fun i => entryClass (x.entry l i) = Entry.PEER then s.endCode o Code.BOUNDS
  else if s.rd (Reg.FOL_POOL_FREE.FREE (x.pool / 64) (x.pool % 64)) < empty then s.endCode o Code.LIMIT
  else match s.usesFault half (s.opUses o) with
  | some e => (s.noteUse o (s.opUses o) e).endOp o e 0
  | none =>
    match allocPages x.pool (if x.pool / 64 = half then Entry.LOCAL else Entry.OTHER_HALF) l pages (s, x, 0) with
    | none => s.endCode o Code.LIMIT
    | some (t, y, n) =>
      let kb := s.operandBytes k
      let vb := s.operandBytes v
      let part := partBytes x.fmt x.headDim
      let vec (fmt : Nat) (bs : List Byte) (tok h : Nat) : List Num := (List.range x.headDim).map fun c => elemAt fmt row bs (tok * row + h * x.headDim + c)
      let writes := (List.range count).flatMap fun tok =>
        let pos := start + tok
        let page := t.pageAddr (y.entry l (pos / 256))
        (List.range x.kvHeads).flatMap fun h =>
          ((kvWrites x.fmt x.headDim (pos % 256) (vec k.fmt kb tok h)).map fun w => (page + 2 * h * part + w.1, w.2))
            ++ (kvWrites x.fmt x.headDim (pos % 256) (vec v.fmt vb tok h)).map fun w => (page + (2 * h + 1) * part + w.1, w.2)
      let bad := pages.findSome? fun i =>
        let a := t.pageAddr (y.entry l i)
        let c := t.extentRule o.acct a x.pageBytes true true
        if c ≠ Code.OK then some (Fail.mk c (if c = Code.PERMISSION then 0 else a) 15) else none
      let bad := bad.or (writes.findSome? fun w =>
        (t.extentFault half ⟨⟨w.1, w.2.length, Fmt.RAW, 0, 0⟩, false, true⟩).map fun e => Fail.mk e.1 e.2 15)
      match bad with
      | some e => (s.noteOp o e true).endOp o e 0
      | none =>
        let t := writes.foldl (fun t w => t.writeExtent w.1 w.2) t
        (t.setFolio f (y.setLen l (start + count))).endOk o (4096 * n)

/-! Partials (R559-R562). -/

/-- The empty partial (R565). -/
def emptyPartial (hd : Nat) : Partial := ⟨0xFF800000, 0, List.replicate hd 0⟩
def partialEmpty (p : Partial) : Bool := p.m = 0xFF800000 && p.l = 0

/-- What a request asks for each query row (R559). -/
structure Query where
  flags : Nat
  qrows : Nat
  qheads : Nat
  pos0 : Nat
  scale : Nat
  lo : Nat
  hi : Nat
  l : Nat
  lib : Nat
  q8 : List Num
deriving DecidableEq, Repr

/-- Token `t` is allowed for query row `r`. -/
def Query.allowed (q : Query) (r t : Nat) : Bool :=
  decide (t < q.l) && (!bit q.flags 0 || decide (t ≤ q.pos0 + r)) && (!bit q.flags 1 || (decide (q.lo ≤ t) && decide (t < q.hi)))

/-- The leaf of page `i` for one query row and head (R560): `ks` and `vs` are the page's vectors of its tokens below L. -/
def leafOf (q : Query) (hd i r : Nat) (q8 : List Num) (ks vs : List (List Num)) : Partial :=
  let ok (j : Nat) : Bool := q.allowed r (256 * i + j)
  let toks := (List.range 256).filter ok
  if toks.isEmpty then emptyPartial hd
  else
    let sc := toks.map fun j => (j, rn ((f32 q.scale).mul (chunkedSum Num.zero (q8.zipWith Num.mul (ks.getD j [])))))
    let m := maxOf (sc.map (·.2))
    let p := (List.range 256).map fun j => match sc.find? fun e => e.1 = j with
      | some e => libExp q.lib (rn (e.2.sub m))
      | none => Num.zero
    let p8 := (pieces 32 p).flatMap fun b => (mxQuantise Fmt.MXE4M3 b).values Fmt.MXE4M3
    let o := (List.range hd).map fun c => chunkedSum Num.zero (p8.zipIdx.map fun e =>
      match vs[e.2]? with | some v => e.1.mul (v.getD c Num.zero) | none => Num.zero)
    ⟨rnd m, rnd (chunkedSum Num.zero p8), o.map rnd⟩

/-- combine (R561). -/
def combinePartial (lib : Nat) (a b : Partial) : Partial :=
  if partialEmpty a then b
  else if partialEmpty b then a
  else
    let m := Num.max (f32 a.m) (f32 b.m)
    let sa := libExp lib (rn ((f32 a.m).sub m))
    let sb := libExp lib (rn ((f32 b.m).sub m))
    let mix (x y : Nat) : Nat := rnd ((rn (sa.mul (f32 x))).add (rn (sb.mul (f32 y))))
    ⟨rnd m, mix a.l b.l, a.o.zipWith mix b.o⟩

/-- Node (k, i) of the tree over known nodes; pages from `pages` up are empty. -/
def treeNode (lib pages : Nat) (none_ : List Partial) (known : List PartNode) : Nat → Nat → List Partial
  | k, i =>
    match known.find? fun n => n.level = k && n.index = i with
    | some n => n.parts
    | none =>
      match k with
      | 0 => none_
      | k + 1 => if pages ≤ i * 2 ^ (k + 1) then none_
        else (treeNode lib pages none_ known k (2 * i)).zipWith (combinePartial lib) (treeNode lib pages none_ known k (2 * i + 1))

/-- The nodes wholly inside a run whose parents are not (R564), in page order. -/
def runNodes : Nat → Nat → Nat → List (Nat × Nat)
  | 0, _, _ => []
  | fuel + 1, first, stop =>
    if stop ≤ first then []
    else
      let k := ((List.range 18).filter fun k => first % 2 ^ k = 0 && decide (first + 2 ^ k ≤ stop)).getLastD 0
      (k, first / 2 ^ k) :: runNodes fuel (first + 2 ^ k) stop

/-- The vectors of one part of a page below L. -/
def State.pagePart (s : State) (x : Folio) (addr l i : Nat) : List (List Num) :=
  let bytes := s.load addr (partBytes x.fmt x.headDim)
  (List.range (min 256 (l - 256 * i))).map fun j => kvRead x.fmt x.headDim j bytes

/-- The leaf of a pool page for every query row and head. -/
def State.pageLeaf (s : State) (x : Folio) (q : Query) (l i : Nat) : PartNode :=
  let page := s.pageAddr (x.entry l i)
  let part := partBytes x.fmt x.headDim
  let ratio := max 1 (q.qheads / x.kvHeads)
  let kv := (List.range x.kvHeads).map fun h => (s.pagePart x (page + 2 * h * part) q.l i, s.pagePart x (page + (2 * h + 1) * part) q.l i)
  ⟨0, i, (List.range q.qrows).flatMap fun r => (List.range q.qheads).map fun h =>
    let g := kv.getD (h / ratio) ([], [])
    leafOf q x.headDim i r ((q.q8.drop ((r * q.qheads + h) * x.headDim)).take x.headDim) g.1 g.2⟩

/-- The nodes a holder returns for a run of its pool pages. -/
def State.holdNodes (s : State) (x : Folio) (q : Query) (l first count : Nat) : List PartNode :=
  let leaves := (List.range count).map fun i => s.pageLeaf x q l (first + i)
  let none_ := List.replicate (q.qrows * q.qheads) (emptyPartial x.headDim)
  (runNodes count first (first + count)).map fun n => ⟨n.1, n.2, treeNode q.lib (first + count) none_ leaves n.1 n.2⟩

/-- The first page of a run whose reading fails: the account's rules, then its lines. -/
def State.runFault (s : State) (x : Folio) (acct half l first count : Nat) : Option (Nat × Nat) :=
  (List.range count).findSome? fun i =>
    let a := s.pageAddr (x.entry l (first + i))
    let c := s.extentRule acct a x.pageBytes true false
    if c ≠ Code.OK then some (c, if c = Code.PERMISSION then 0 else a)
    else s.extentFault half ⟨⟨a, x.pageBytes, Fmt.RAW, 0, 0⟩, true, false⟩

/-! ATTEND (R557-R567). -/

/-- The query of an ATTEND: its vectors quantised to MXFP8 E4M3 per block of 32. -/
def State.attendQuery (s : State) (d : Desc) (hd l : Nat) : Query :=
  let q := operandAt d 0x40
  let n := descAt d 0x64 2 * descAt d 0x66 2 * hd
  let xs := elems q.fmt hd (s.operandBytes q) n
  ⟨descAt d 0x63 1, descAt d 0x64 2, descAt d 0x66 2, descAt d 0x68 4, descAt d 0x6C 4, descAt d 0x70 4, descAt d 0x74 4, l, s.boot.libVersion,
    (pieces 32 xs).flatMap fun b => (mxQuantise Fmt.MXE4M3 b).values Fmt.MXE4M3⟩

/-- The holder of an entry: none for the home half, otherwise the class with node, REF and GEN. -/
def holderOf (e : Nat) : Option (Nat × Nat × Nat × Nat) :=
  if entryClass e = Entry.PEER then some (3, bits e 2 16, bits e 18 10, bits e 28 6)
  else if entryClass e = Entry.OTHER_HALF then some (2, 0, 0, 0) else none

/-- The runs of consecutive pages with one holder: first page, count, holder. -/
def splitRuns (x : Folio) (l : Nat) : List Nat → List (Nat × Nat × Option (Nat × Nat × Nat × Nat))
  | [] => []
  | i :: is =>
    let h := holderOf (x.entry l i)
    match splitRuns x l is with
    | (f, n, h') :: rest => if h = h' then (i, n + 1, h) :: rest else (i, 1, h) :: (f, n, h') :: rest
    | [] => [(i, 1, h)]

/-- The 64-byte header and the groups of Q of a PART_REQ (R565). -/
def State.partReqBytes (s : State) (d : Desc) (ref gen l first count hd : Nat) : List Byte :=
  let q := operandAt d 0x40
  let n := descAt d 0x64 2 * descAt d 0x66 2 * hd
  leBytes 2 ref ++ leBytes 1 gen ++ leBytes 1 (descAt d 0x62 1) ++ leBytes 2 s.boot.libVersion ++ leBytes 1 (descAt d 0x63 1) ++ zeros 1
    ++ leBytes 2 (descAt d 0x64 2) ++ leBytes 2 (descAt d 0x66 2) ++ leBytes 4 (descAt d 0x68 4) ++ leBytes 4 (descAt d 0x6C 4)
    ++ leBytes 4 (descAt d 0x70 4) ++ leBytes 4 (descAt d 0x74 4) ++ leBytes 4 l ++ leBytes 4 first ++ leBytes 4 count
    ++ leBytes 2 (descAt d 0x60 2) ++ zeros 22 ++ (encodeRows Fmt.MXE4M3 n (elems q.fmt hd (s.operandBytes q) n)).1

/-- OUT of an ATTEND from its roots (R562): bytes, NONFINITE, EMPTY_ROW. -/
def attendOut (fmt hd : Nat) (roots : List Partial) : List Byte × Bool × Bool :=
  let xs := roots.flatMap fun p => if partialEmpty p then List.replicate hd Num.zero else p.o.map fun c => rn ((f32 c).div (f32 p.l))
  let e := encodeRows fmt hd xs
  (e.1, e.2.2, roots.any partialEmpty)

/-- An ATTEND ends once every run is answered: the lowest failing run decides, otherwise OUT is written (R567). -/
def State.attendEnd (s : State) (a : Attend) : State :=
  if a.runs.any fun r => r.rsp.isNone then s
  else match s.ops.find? fun o => o.key = a.owner with
  | none => { s with attends := s.attends.filter fun x => x.owner ≠ a.owner }
  | some o =>
    let t := { s with attends := s.attends.filter fun x => x.owner ≠ a.owner }
    let half := s.opHalf o
    match a.runs.find? fun r => r.rsp.any fun x => x.code ≠ Code.OK with
    | some r =>
      let code := match r.rsp with | some x => x.code | none => 0
      let t := if code = Code.PEER_LOST then (t.count (Reg.FOL_PEER_LOST.COUNT half) 1).raise (0x1C0 + half) 1 else t
      t.endOp o ⟨code, (match r.node with | some n => n | none => s.node) + 2 ^ 32 * r.first, 15⟩ 0
    | none =>
      let d := o.desc
      let x := s.folio (descAt d 0x60 2)
      let out := operandAt d 0x50
      let known := a.nodes ++ a.runs.flatMap fun r => match r.rsp with | some y => y.nodes | none => []
      let none_ := List.replicate (descAt d 0x64 2 * descAt d 0x66 2) (emptyPartial x.headDim)
      let e := attendOut out.fmt x.headDim (treeNode s.boot.libVersion ((a.len + 255) / 256) none_ known 17 0)
      match t.usesFault half [⟨out, false, true⟩] with
      | some f => (t.noteOp o f true).endOp o { f with idx := 1 } 0
      | none => (t.putOperand out e.1).endOk o (4096 * b2n e.2.1 + 8192 * b2n e.2.2)

def State.attend (s : State) (o : Op) : State :=
  let d := o.desc
  let q := operandAt d 0x40
  let out := operandAt d 0x50
  let f := descAt d 0x60 2
  let l := descAt d 0x62 1
  let rows := descAt d 0x64 2
  let heads := descAt d 0x66 2
  let x := s.folio f
  let len := x.lenOf l
  let n := rows * heads * x.headDim
  let half := f / 512
  if rows = 0 ∨ heads = 0 ∨ q.len = 0 ∨ out.len = 0 then s.endOk o 0
  else if x.st ≠ FolioSt.OPEN ∨ x.kind ≠ 0 then s.endCode o Code.LIMIT
  else if x.layers ≤ l then s.endCode o Code.BOUNDS
  else if heads % x.kvHeads ≠ 0 ∨ 16 < heads / x.kvHeads ∨ q.len ≠ n * fmtUnit q.fmt ∨ out.len ≠ n * fmtUnit out.fmt then s.endCode o Code.FORMAT
  else if bit (descAt d 0x63 1) 0 ∧ len ≤ descAt d 0x68 4 + rows - 1 then s.endCode o Code.BOUNDS
  else if bit (descAt d 0x63 1) 1 ∧ descAt d 0x74 4 ≤ descAt d 0x70 4 then s.endCode o Code.FORMAT
  else match s.usesFault half (s.opUses o) with
  | some e => (s.noteUse o (s.opUses o) e).endOp o e 0
  | none =>
    let t := s.countWrap (Reg.FOL_ATTEND.COUNT half) 1
    let runs := splitRuns x l (List.range ((len + 255) / 256))
    let mine := runs.filter fun r => r.2.2.isNone
    match mine.findSome? fun r => s.runFault x o.acct half l r.1 r.2.1 with
    | some e => (t.noteOp o ⟨e.1, e.2, 15⟩ false).endOp o ⟨e.1, e.2, 15⟩ 0
    | none =>
      let qu := s.attendQuery d x.headDim len
      let nodes := mine.flatMap fun r => s.holdNodes x qu l r.1 r.2.1
      let far := runs.filterMap fun r => r.2.2.map fun h => (r.1, r.2.1, h)
      let other := far.map fun r =>
        AttendRun.mk r.1 r.2.1 (if r.2.2.1 = 3 then some r.2.2.2.1 else none) (if r.2.2.1 = 3 then r.2.2.2.2.1 else f) (if r.2.2.1 = 3 then r.2.2.2.2.2 else x.gen) 0
          (if (r.2.2.1 = 2 ∧ !s.dlkUp ∧ !s.dlkHeld) ∨ (r.2.2.1 = 3 ∧ s.opCut o r.2.2.2.1 1) then some ⟨Code.LINK_NOT_READY, 0, []⟩ else none)
      let t := (({ t with attends := t.attends ++ [⟨o.key, len, nodes, other⟩] } : State).countWrap (Reg.FOL_PART_TX.COUNT half) other.length)
      let t := other.foldl (fun t r => match r.node with
        | some node => t.sendMsg { fabMsg node 1 Kind.PART_REQ o.acct 0 (s.partReqBytes d r.ref r.gen len r.first r.count x.headDim) (some o.key) with tag := r.first, half := some half }
        | none => t) t
      t.attendEnd ⟨o.key, len, nodes, other⟩

/-! The commands. -/

/-- A folio op issues, or waits in its engine behind an op that excludes it. -/
def State.folioOp (s : State) (a r seq opcode : Nat) (run : State → Op → State) : State :=
  s.issueMem a r seq opcode fun t o => if t.folioBlocked o t.ops then t.holdOp o else run t o

def execFolioOpen (a r seq : Nat) (s : State) : Result := .next (s.folioOp a r seq 0x0200 State.folioOpen)
def execFolioClose (a r seq : Nat) (s : State) : Result := .next (s.folioOp a r seq 0x0201 State.folioClose)
def execFolioLink (a r seq : Nat) (s : State) : Result := .next (s.folioOp a r seq 0x0204 State.folioLink)
def execAppendKv (a r seq : Nat) (s : State) : Result := .next (s.folioOp a r seq 0x0202 State.appendKv)
def execAttend (a r seq : Nat) (s : State) : Result := .next (s.folioOp a r seq 0x0203 State.attend)

/-- An op that waited for an excluding op runs. -/
def State.folioUnblock (s : State) (o : Op) : State :=
  let before := s.ops.takeWhile fun x => !x.is o.acct o.ring o.seq
  if !s.computeOn ∨ o.phase ≠ .held ∨ !isFolioOp o ∨ s.folioBlocked o before ∨ (s.opUses o).any (fun u => s.extentBusy (s.opHalf o) u.opd) then s
  else
    let x := { o with phase := .running }
    let t := s.setOp x
    let c := if o.opcode = 0x0200 then t.folioOpen x else if o.opcode = 0x0201 then t.folioClose x else if o.opcode = 0x0202 then t.appendKv x
      else if o.opcode = 0x0203 then t.attend x else t.folioLink x
    c.refreshRing o.u

def execFolioOpUnblock (a r seq : Nat) (s : State) : Result :=
  .next (match s.opAt a r seq with | some o => s.folioUnblock o | none => s)

/-- The checks of R566 on a request, and the response. -/
def State.servePart (s : State) (m : PartReq) : PartRsp :=
  let f := m.ref
  let x := s.folio f
  let half := f / 512
  let bad (c i : Nat) : PartRsp := ⟨c, i, []⟩
  let pages := (List.range m.pageCount).map fun i => m.firstPage + i
  let inTable := pages.all fun i => decide (x.basePage ≤ i) && decide (i < x.basePage + x.maxPages)
    && (entryClass (x.entry m.layer i) = Entry.LOCAL || entryClass (x.entry m.layer i) = Entry.OTHER_HALF)
  if 1024 ≤ f ∨ x.st ≠ FolioSt.OPEN ∨ m.gen ≠ x.gen then bad Code.EPOCH 0
  else if m.peer ∧ (x.kind ≠ 1 ∨ m.srcNode ≠ x.homeNode ∨ m.homeFolio ≠ x.homeFolio) then bad Code.PERMISSION 0
  else if m.libver ≠ s.boot.libVersion then bad Code.VERSION 0
  else if x.layers ≤ m.layer ∨ m.qheads % x.kvHeads ≠ 0 ∨ m.qheads = 0 ∨ m.q.length ≠ implied Fmt.MXE4M3 1 (m.qrows * m.qheads * x.headDim) then bad Code.FORMAT 0
  else if !inTable ∨ x.lenOf m.layer < min m.l ((m.firstPage + m.pageCount) * 256) then bad Code.BOUNDS 0
  else match s.runFault x x.acct (if m.peer then half else 1 - half) m.layer m.firstPage m.pageCount with
  | some e => bad e.1 e.2
  | none =>
    let n := m.qrows * m.qheads * x.headDim
    let q : Query := ⟨m.flags, m.qrows, m.qheads, m.pos0, m.scale, m.lo, m.hi, m.l, s.boot.libVersion, elems Fmt.MXE4M3 n m.q n⟩
    ⟨Code.OK, 0, s.holdNodes x q m.layer m.firstPage m.pageCount⟩

/-- The bytes of a response (R565). -/
def partRspBytes (r : PartRsp) : List Byte :=
  leBytes 1 r.code ++ zeros 3 ++ leBytes 4 r.nodes.length ++ leBytes 8 r.info
    ++ r.nodes.flatMap fun n => leBytes 1 n.level ++ zeros 3 ++ leBytes 4 n.index ++ n.parts.flatMap fun p =>
      leBytes 4 p.m ++ leBytes 4 p.l ++ p.o.flatMap (leBytes 4)

/-- A response answers a run of an ATTEND. -/
def State.answerRun (s : State) (owner : Nat × Nat × Nat) (first : Nat) (rsp : PartRsp) : State :=
  match s.attends.find? fun a => a.owner = owner with
  | none => s
  | some a =>
    let b := { a with runs := a.runs.map fun r => if r.first = first ∧ r.rsp.isNone then { r with rsp := some rsp } else r }
    ({ s with attends := s.attends.map fun x => if x.owner = owner then b else x } : State).attendEnd b

/-- A partial-attention request is served (R566): the other half's answers its ATTEND at once, a peer's goes back over the transport. -/
def State.partReq (s : State) (m : PartReq) : State :=
  let rsp := s.servePart m
  let half := if m.ref < 1024 then (if m.peer then m.ref / 512 else 1 - m.ref / 512) else 0
  let t := (s.countWrap (Reg.FOL_PART_RX.COUNT half) 1).noteFault (rsp.code, rsp.info) false (if m.peer then Source.FABRIC else Source.ENGINE) (s.folio m.ref).acct
  let t := if rsp.code = Code.OK then t else (t.count (Reg.FOL_REFUSED.COUNT half) 1).raise (0x1C0 + half) 2
  if m.peer then
    t.sendMsg { fabMsg m.srcNode 6 Kind.PART_RSP (s.folio m.ref).acct 0 (partRspBytes rsp) none with status := rsp.code, reqSeq := m.reqSeq, value := rsp.info, half := some half }
  else
    match s.attends.find? fun a => (s.ops.find? fun o => o.key = a.owner).any (fun o => descAt o.desc 0x60 2 = m.ref && descAt o.desc 0x62 1 = m.layer)
        && a.runs.any fun r => r.node.isNone && r.first = m.firstPage && r.rsp.isNone with
    | some a => ((t.linkBytes half (64 + m.q.length)).linkBytes (1 - half) (partRspBytes rsp).length).answerRun a.owner m.firstPage rsp
    | none => t

/-- A request of the other half crosses the die link: a retrain holds it, and a failed link has answered for it (R28, R30, R59). -/
def execPartReq (m : PartReq) (s : State) : Result := .next (if s.computeOn ∧ (m.peer ∨ s.dlkUp) then s.partReq m else s)

/-- The die link has failed: every run that the other half has not answered ends LINK_NOT_READY (R567). -/
def State.failRuns (s : State) : State :=
  s.attends.foldl (fun t a => (a.runs.filter fun r => r.node.isNone && r.rsp.isNone).foldl
    (fun t r => t.answerRun a.owner r.first ⟨Code.LINK_NOT_READY, 0, []⟩) t) s

/-- A peer's response: it answers the run whose request it names, or comes late (R613). -/
def State.partRsp (s : State) (reqSeq : Nat) (rsp : PartRsp) : State :=
  match s.requests.find? fun r => r.chan = 1 && r.seq = reqSeq with
  | some r =>
    let t := { s with requests := s.requests.filter fun x => !(x.chan = 1 && x.seq = reqSeq && x.dst = r.dst) }
    let half := (s.opAt r.owner.1 r.owner.2.1 r.owner.2.2).map s.opHalf
    let u := t.advanceTx r.dst 1 ((r.seq + ((s.tx r.dst 1).msgs.find? fun m => m.granted && m.first = r.seq).elim 0 FabMsg.packets) % 2 ^ 32)
    (u.fabLink half r.port (1 - portHalf r.port) (partRspBytes rsp).length).answerRun r.owner r.tag
      (if s.linkCuts half r.port then ⟨Code.LINK_NOT_READY, 0, []⟩ else rsp)
  | none => (s.count Reg.XPT_LATE_RSP.COUNT 1).raise 0x260 1

/-- A retrain of the die link holds a response to an op of the half that its port does not lie in (R30). -/
def State.rspHeld (s : State) (r : FabReq) : Bool := s.dlkHeld && portFar ((s.opAt r.owner.1 r.owner.2.1 r.owner.2.2).map s.opHalf) r.port

def execPartRsp (reqSeq : Nat) (m : PartRsp) (s : State) : Result :=
  .next (if s.computeOn ∧ !(s.requests.any fun r => r.chan = 1 && r.seq = reqSeq && s.rspHeld r) then s.partRsp reqSeq m else s)

/-- FOL_QUERY takes a write (R570). -/
def State.folQuery (s : State) (half value : Nat) : State :=
  ((s.wr (Reg.FOL_QUERY.FOLIO half) (bits value 0 10)).wr (Reg.FOL_QUERY.LAYER half) (bits value 16 7)).showQuery half

def execFolQuery (req : Req) (half value : Nat) (s : State) : Result := .next (if s.direct req ∧ half < 2 then s.folQuery half value else s)

end Sys2Proof.Machine
end

