-- ==== Sys2Proof/Machine/CollOps.lean ====
section
/-!
DEFINITION. Collective and MINT steps: what a member contributes, the clearing format and the other reductions, the selection and records of
the Minting engine, the global norm, and the status record (R638-R653, R664, R686-R704).
-/
namespace Sys2Proof.Machine

abbrev Stage.READY : Nat := 0
abbrev Stage.ROSTER : Nat := 1
abbrev Stage.EXP : Nat := 2
abbrev Stage.DATA : Nat := 3
abbrev Stage.CLOSE : Nat := 4
abbrev Stage.ERROR : Nat := 5

/-- What a collective or MINT descriptor asks: its opcode and reduction, input and output, flags, ROOT, status record, and the ledger, K and
QFMT of a MINT. -/
structure CollJob where
  code : Nat
  red : Nat
  x : Operand
  y : Operand
  l : Operand
  clear : Bool
  keep : Bool
  ovf : Bool
  norm : Bool
  rosterOut : Bool
  root : Nat
  stat : Option Nat
  k : Nat
  qfmt : Nat
deriving DecidableEq, Repr, Inhabited

def jobOf (d : Desc) : CollJob :=
  if descAt d 0 2 = 0x0500 then
    let p := operandAt d 0x70
    let f := p.aux / 256
    ⟨0x0500, 0, operandAt d 0x40, operandAt d 0x60, operandAt d 0x50, bit f 0, bit f 1, bit f 2, bit f 3, false, 0, some (p.addr + 0x40),
      (operandAt d 0x50).aux, p.aux % 256⟩
  else
    let f := descAt d 0x63 1
    let w := descAt d 0x78 8
    ⟨descAt d 0 2, descAt d 0x62 1, operandAt d 0x40, operandAt d 0x50, default, bit f 0, bit f 1, bit f 2, bit f 3, bit f 4, descAt d 0x66 2,
      if bit w 63 then some (w % 2 ^ 52) else none, 0, 0⟩

namespace CollJob

def mint (j : CollJob) : Bool := j.code = 0x0500
def reduces (j : CollJob) : Bool := decide (j.code ≤ 0x0401) || j.mint
/-- The reduction is the clearing sum of R647. -/
def clears (j : CollJob) : Bool := j.reduces && j.red = 0 && (j.x.fmt ≠ Fmt.INT32 || j.mint)
/-- The exponent pass runs: a MINT's records carry their exponents. -/
def expPass (j : CollJob) : Bool := j.clears && !j.mint
/-- A closing pass runs (R652, R698). -/
def closes (j : CollJob) : Bool := j.mint || j.code = 0x0401 || j.norm
/-- Elements of the input. -/
def n (j : CollJob) : Nat := gradElems j.x
/-- Bytes that a data-movement op moves from one rank to another. -/
def part (j : CollJob) (r : Nat) : Nat := if j.code = 0x0403 then j.y.len else if j.code = 0x0404 then j.x.len / r else j.x.len
/-- Chunks of the step (R664); a zero-length step exchanges one empty chunk (R644). -/
def chunks (j : CollJob) (r : Nat) : Nat := if j.reduces then max 1 ((j.n + 8191) / 8192) else max 1 ((j.part r + 65535) / 65536)
/-- The elements of the result that a rank holds (R640). -/
def shard (j : CollJob) (r me : Nat) : Nat × Nat := if j.code = 0x0401 then (j.n * me / r, j.n * (me + 1) / r) else (0, j.n)
/-- A rank needs a chunk. -/
def needs (j : CollJob) (r me c : Nat) : Bool :=
  !j.reduces || j.n = 0 || (decide ((j.shard r me).1 < (c + 1) * 8192) && decide (c * 8192 < (j.shard r me).2))
/-- A rank sends data. -/
def sends (j : CollJob) (rank : Nat) : Bool := j.code ≠ 0x0403 || rank = j.root

end CollJob

/-! Lengths and SHAPE (R640, R642, R664, R699). -/

/-- The lengths match R640 for a group of `r`, ROOT is a rank, and the formats go with the op; an operand of length 0 may leave its
format 0 (R417). -/
def CollJob.fits (j : CollJob) (r me : Nat) : Bool :=
  let xu := fmtUnit j.x.fmt
  let yu := fmtUnit j.y.fmt
  let ok (f : Nat) : Bool := f = 0 || f = Fmt.FP32 || f = Fmt.BF16 || f = Fmt.INT32
  let open_ := j.x.fmt = 0 || j.y.fmt = 0
  let pair := ok j.x.fmt && ok j.y.fmt && (open_ || decide (j.x.fmt = Fmt.INT32 ↔ j.y.fmt = Fmt.INT32))
  let same := open_ || decide (j.y.fmt = j.x.fmt)
  decide (j.root < r) &&
    (if j.mint then true
     else if j.code = 0x0400 then pair && j.x.len % xu = 0 && j.y.len = j.n * yu
     else if j.code = 0x0401 then pair && j.x.len % xu = 0 && j.n % (128 * r) = 0 && j.y.len = j.n / r * yu
     else if j.code = 0x0402 then same && j.y.len = r * j.x.len
     else if j.code = 0x0403 then same && j.x.len = (if me = j.root then j.y.len else 0)
     else same && j.x.len % r = 0 && j.y.len = j.x.len)

def CollJob.shape (j : CollJob) (deadline : Nat) : Nat :=
  let flags := b2n j.ovf + 2 * b2n j.norm
  if j.mint then
    crc32c (leBytes 2 j.code ++ leBytes 2 j.k ++ leBytes 1 j.qfmt ++ leBytes 1 flags ++ leBytes 1 j.y.fmt ++ leBytes 4 j.n ++ leBytes 8 deadline)
  else
    crc32c (leBytes 2 j.code ++ leBytes 1 j.red ++ leBytes 1 flags ++ leBytes 1 j.x.fmt ++ leBytes 1 j.y.fmt ++ leBytes 4 j.y.len ++ leBytes 2 j.root
      ++ leBytes 8 deadline)

/-! Rosters. -/

/-- The ranks of a roster in order. -/
def ranksOf (r mask : Nat) : List Nat := (List.range r).filter (bit mask)
def GroupVer.size (v : GroupVer) : Nat := v.list.length
def GroupVer.node (v : GroupVer) (rank : Nat) : Nat := v.list.getD rank 0
/-- The roster bitmap, and its hash (R653). -/
def bitmapBytes (r mask : Nat) : List Byte := leBytes ((r + 7) / 8) mask
def rosterHash (r mask : Nat) : Nat := crc32c (bitmapBytes r mask)
/-- Candidates of a group (R656). -/
def GroupVer.candidates (v : GroupVer) : Nat := min v.size 8

/-- The ranks a member forwards a roster to: its children in the binomial tree of the roster in rank order, rooted at `origin` (R657). -/
def treeChildren (ranks : List Nat) (origin me : Nat) : List Nat :=
  let n := ranks.length
  let at0 := ranks.findIdx (· == origin)
  let i := (ranks.findIdx (· == me) + n - at0) % n
  ((List.range 17).map fun k => 2 ^ k).filterMap fun b =>
    if i < b ∧ i + b < n then ranks[(i + b + at0) % n]? else none

/-! Contributions to reductions. -/

/-- The FP32 pattern of an element of FP32 or BF16 data. -/
def pattern32 (fmt : Nat) (bs : List Byte) (i : Nat) : Nat :=
  if fmt = Fmt.BF16 then fieldAt bs (2 * i) 2 * 65536 else fieldAt bs (4 * i) 4

/-- expfield of R647. -/
def expField (p : Nat) : Nat := bits p 23 8

/-- E of a block's exponent byte. -/
def clearE (eb : Nat) : Int := (max eb 1 : Nat) - 127

/-- The contribution of an element to a block whose exponent byte is `eb`. -/
def clearQuant (eb p : Nat) : Int := if eb = 0xFF then 0 else ((f32 p).shift (30 - clearE eb)).toIntEven

/-- The element of the result from a total. -/
def clearResult (fmt eb : Nat) (t : Int) : Conv := if eb = 0xFF then convert fmt .nan else convert fmt (Num.ofInt t (clearE eb - 30))

/-- Elements `lo` to `hi - 1` cut into the blocks of 128 they lie in. -/
def blockMax (ps : List Nat) : List Nat := (pieces 128 ps).map fun b => b.foldl (fun m p => max m (expField p)) 0

/-- The patterns of chunk `c` of this member's input. -/
def CollJob.chunkPatterns (j : CollJob) (own : List Byte) (c : Nat) : List Nat :=
  (List.range (min 8192 (j.n - 8192 * c))).map fun i => pattern32 j.x.fmt own (8192 * c + i)

/-- Maximum of lists position by position. -/
def maxRows (rows : List (List Nat)) : List Nat :=
  match rows with
  | [] => []
  | r :: rs => rs.foldl (fun a b => a.zipWith max b) r

/-- The exponent bytes of a chunk agreed by the roster. -/
def CollStep.chunkEb (st : CollStep) (ranks : List Nat) (c : Nat) : List Nat :=
  maxRows (ranks.map fun r => ((st.got.find? fun e => e.1 = (Stage.EXP, c, r)).elim [] (·.2)).map Int.toNat)

def CollStep.has (st : CollStep) (stage c r : Nat) : Bool := st.got.any fun e => e.1 = (stage, c, r)
def CollStep.valsOf (st : CollStep) (stage c r : Nat) : List Int := (st.got.find? fun e => e.1 = (stage, c, r)).elim [] (·.2)
def CollStep.put (st : CollStep) (stage c r : Nat) (vals : List Int) : CollStep := { st with got := st.got ++ [((stage, c, r), vals)] }
def bytesOf (vals : List Int) : List Byte := vals.map fun v => BitVec.ofInt 8 v
def intsOf (bs : List Byte) : List Int := bs.map fun b => (b.toNat : Int)

/-! The Minting engine (R693, R694). -/

/-- What selection makes of a gradient block: its record, its new remainders, and whether it is non-finite. -/
structure MintBlock where
  record : List Byte
  lnew : List Byte
  bad : Bool
deriving DecidableEq, Repr

/-- Bytes packed two 12-bit indices to three bytes. -/
def packIndices (is : List Nat) : List Byte := (pieces 2 is).flatMap fun p => leBytes 3 (p.getD 0 0 + 4096 * p.getD 1 0)
def packCodes (qfmt : Nat) (cs : List Nat) : List Byte :=
  if qfmt = Fmt.MXFP4 then (pieces 2 cs).map fun p => BitVec.ofNat 8 (p.getD 0 0 + 16 * p.getD 1 0) else cs.map (BitVec.ofNat 8)
def pad4 (bs : List Byte) : List Byte := bs ++ zeros ((4 - bs.length % 4) % 4)

/-- Bytes of a record of a block of `b` elements. -/
def recordLen (k qfmt b : Nat) : Nat :=
  let k' := min k b
  ((k' + 31) / 32 + (if qfmt = Fmt.MXFP4 then (k' + 1) / 2 else k') + 3 * ((k' + 1) / 2) + 3) / 4 * 4

/-- The positions selected: those before which fewer than `k` elements come in descending magnitude, ties to the lower index. -/
def topK (k : Nat) (cs : List Num) : List Nat :=
  let mags := cs.zipIdx.map fun c => (c.1.abs, c.2)
  (mags.filter fun m => decide ((mags.filter fun x => Num.lt m.1 x.1 || (!Num.lt x.1 m.1 && decide (x.2 < m.2))).length < k)).map (·.2)

def mintBlock (k qfmt lfmt : Nat) (gs ls : List Num) : MintBlock :=
  let cs := gs.zipWith (fun g l => rn (g.add l)) ls
  let b := cs.length
  let keepL := ls.flatMap fun l => leBytes (fmtUnit lfmt) (convert lfmt l).code
  if cs.any Num.nonFinite then
    ⟨List.replicate ((min k b + 31) / 32) 0xFF ++ zeros (recordLen k qfmt b - (min k b + 31) / 32), keepL, true⟩
  else
    let sel := topK (min k b) cs
    let blocks := (pieces 32 sel).map fun is => mxQuantise qfmt (is.map fun i => cs.getD i Num.zero)
    let dq := blocks.flatMap (MxBlock.values qfmt)
    let rec_ := pad4 (blocks.map (fun q => BitVec.ofNat 8 q.scale) ++ packCodes qfmt (blocks.flatMap (·.codes)) ++ packIndices sel)
    let lnew := cs.zipIdx.flatMap fun c =>
      let v := match (sel.zip dq).find? fun p => p.1 = c.2 with | some p => rn (c.1.sub p.2) | none => c.1
      leBytes (fmtUnit lfmt) (convert lfmt v).code
    ⟨rec_, lnew, false⟩

/-- The contribution a record of a block of `b` elements stands for, as FP32 patterns. -/
def recordPatterns (k qfmt b : Nat) (r : List Byte) : List Nat :=
  let k' := min k b
  let ns := (k' + 31) / 32
  if fieldAt r 0 1 = 0xFF then List.replicate b 0x7FC00000
  else
    let ne := if qfmt = Fmt.MXFP4 then (k' + 1) / 2 else k'
    let at_ (t : Nat) : Nat := bits (fieldAt r (ns + ne + 3 * (t / 2)) 3) (12 * (t % 2)) 12
    let code (t : Nat) : Nat := if qfmt = Fmt.MXFP4 then bits (fieldAt r (ns + t / 2) 1) (4 * (t % 2)) 4 else fieldAt r (ns + t) 1
    let entries := (List.range k').map fun t => (at_ t, rnd (mxValue qfmt (fieldAt r (t / 32) 1) (code t)))
    (List.range b).map fun i => match entries.find? fun e => e.1 = i with | some e => e.2 | none => 0

/-- This member's records, new remainders and non-finite blocks. -/
def CollJob.mintOwn (j : CollJob) (g l : List Byte) : List MintBlock :=
  (List.range ((j.n + 4095) / 4096)).map fun b =>
    let is := (List.range (min 4096 (j.n - 4096 * b))).map fun i => 4096 * b + i
    mintBlock j.k j.qfmt j.l.fmt (is.map (elemAt j.x.fmt j.n g)) (is.map (elemAt j.l.fmt j.n l))

/-- The bytes of the records of chunk `c`: two gradient blocks. -/
def CollJob.recordSpan (j : CollJob) (c : Nat) : Nat × Nat :=
  let full := recordLen j.k j.qfmt 4096
  let size (b : Nat) : Nat := if j.n ≤ 4096 * b then 0 else recordLen j.k j.qfmt (min 4096 (j.n - 4096 * b))
  (2 * c * full, size (2 * c) + size (2 * c + 1))

/-- The FP32 patterns of a rank's contribution to chunk `c` of a MINT. -/
def CollJob.mintPatterns (j : CollJob) (bs : List Byte) (c : Nat) : List Nat :=
  let b0 := min 4096 (j.n - 8192 * c)
  let b1 := min 4096 (j.n - 8192 * c - b0)
  recordPatterns j.k j.qfmt b0 bs ++ recordPatterns j.k j.qfmt b1 (bs.drop (recordLen j.k j.qfmt b0))

/-! Data of a chunk. -/

/-- This member's data of chunk `c` for rank `dst`, with its ENC and the bytes of an element: sums once the exponents are agreed, else
bytes. -/
def CollStep.ownData (st : CollStep) (j : CollJob) (ranks : List Nat) (c dst : Nat) : Nat × Nat × List Int :=
  if j.mint then
    let sp := j.recordSpan c
    (3, 1, intsOf ((st.own.drop sp.1).take sp.2))
  else if j.clears then
    let eb := st.chunkEb ranks c
    (1, 6, (j.chunkPatterns st.own c).zipIdx.map fun p => clearQuant (eb.getD (p.2 / 128) 0) p.1)
  else if j.reduces then
    let u := fmtUnit j.x.fmt
    (0, 1, intsOf ((st.own.drop (8192 * c * u)).take (8192 * u)))
  else
    let base := if j.code = 0x0404 then dst * j.part st.ver.size else 0
    (0, 1, intsOf (((st.own.drop base).take (j.part st.ver.size)).drop (65536 * c) |>.take 65536))

/-- Numeric order of R650, for elements as values. -/
def pickElem (red : Nat) (xs : List Num) : Num :=
  let f := if red = 1 then Num.max else Num.min'
  match xs with
  | [] => Num.zero
  | y :: ys => ys.foldl f y

/-- An element of an INT32 or floating operand as a value. -/
def elemValue (fmt : Nat) (bs : List Byte) (i : Nat) : Num :=
  if fmt = Fmt.INT32 then Num.ofInt (int32 (fieldAt bs (4 * i) 4)) 0 else f32 (pattern32 fmt bs i)

/-- The reduced elements of chunk `c` from the contributions of the roster, with whether each sets overflow. -/
def CollStep.reduced (st : CollStep) (j : CollJob) (ranks : List Nat) (c : Nat) : List (Nat × Bool) :=
  let m := min 8192 (j.n - 8192 * c)
  if j.mint then
    let rows := ranks.map fun r => j.mintPatterns (bytesOf (st.valsOf Stage.DATA c r)) c
    let eb := maxRows (rows.map blockMax)
    (List.range m).map fun i =>
      let e := eb.getD (i / 128) 0
      let v := clearResult j.y.fmt e (rows.foldl (fun t row => t + clearQuant e (row.getD i 0)) 0)
      (v.code, v.nonFinite)
  else if j.clears then
    let eb := st.chunkEb ranks c
    let rows := ranks.map fun r => st.valsOf Stage.DATA c r
    (List.range m).map fun i =>
      let v := clearResult j.y.fmt (eb.getD (i / 128) 0) (rows.foldl (fun t row => t + row.getD i 0) 0)
      (v.code, v.nonFinite)
  else
    let rows := ranks.map fun r => bytesOf (st.valsOf Stage.DATA c r)
    (List.range m).map fun i =>
      if j.red = 0 then
        let t := rows.foldl (fun t row => t + int32 (fieldAt row (4 * i) 4)) 0
        ((t % 2 ^ 32).toNat, decide (t < -2 ^ 31) || decide (2 ^ 31 ≤ t))
      else
        let xs := rows.map fun row => elemValue j.x.fmt row i
        let v := pickElem j.red xs
        if j.x.fmt = Fmt.INT32 then ((v.toIntEven % 2 ^ 32).toNat, false)
        else
          let w := convert j.y.fmt v
          (w.code, v.isNan || (w.nonFinite && !v.nonFinite))

/-- The elements of the result that this member holds. -/
def CollStep.result (st : CollStep) (j : CollJob) (ranks : List Nat) : List (Nat × Bool) :=
  let r := st.ver.size
  let sh := j.shard r st.ver.rank
  (List.range (j.chunks r)).flatMap fun c =>
    if j.needs r st.ver.rank c then
      (st.reduced j ranks c).zipIdx.filterMap fun e => if sh.1 ≤ 8192 * c + e.2 ∧ 8192 * c + e.2 < sh.2 then some e.1 else none
    else []

/-! The global norm (R652). -/

def squareOf (fmt code : Nat) : Nat :=
  let y := (floatFmt fmt).decode code
  rnd (y.mul y)

def normExp (sqs : List Nat) : Nat := sqs.foldl (fun m p => max m (expField p)) 0
def normSum (en : Nat) (sqs : List Nat) : Int := if en = 0xFF then 0 else sqs.foldl (fun t p => t + clearQuant en p) 0
def normF32 (en nsq : Nat) : Nat := if en = 0xFF then 0x7F800000 else rnd (.fin false nsq (clearE en - 30))

/-! Messages (R664). -/

def collHeader (group stage enc rank epoch step chunk hash tag code count shape : Nat) : List Byte :=
  leBytes 2 group ++ leBytes 1 stage ++ leBytes 1 enc ++ leBytes 4 rank ++ leBytes 8 (cfOf epoch) ++ leBytes 8 step ++ leBytes 4 chunk
    ++ leBytes 4 hash ++ leBytes 4 tag ++ leBytes 1 code ++ zeros 3 ++ leBytes 4 count ++ leBytes 4 shape

/-- A payload of integers of `u` bytes each. -/
def collPayload (u : Nat) (vals : List Int) : List Byte := vals.flatMap fun v => leBytes u (v % 2 ^ (8 * u)).toNat

/-- COUNT of this member's data: records in a MINT, else elements or bytes. -/
def CollJob.dataCount (j : CollJob) (c : Nat) (vals : List Int) : Nat :=
  if j.mint then (min 8192 (j.n - 8192 * c) + 4095) / 4096
  else if j.reduces && !j.clears then vals.length / fmtUnit j.x.fmt else vals.length

/-- Send a message of a step to the node of a rank; this chip's own rank is not sent to. -/
def State.sendColl (s : State) (st : CollStep) (rank stage enc u chunk code count : Nat) (vals : List Int) : State :=
  if rank = st.ver.rank then s
  else
    let hash := if stage = Stage.READY then 0 else match st.roster with | some m => rosterHash st.ver.size m | none => 0
    let body := collHeader st.group stage enc st.ver.rank st.ver.epoch st.step chunk hash st.ver.tag code count st.shape ++ collPayload u vals
    s.sendMsg { fabMsg (st.ver.node rank) 2 Kind.COLL st.owner.1 st.owner.1 body (some st.owner) with tag := chunk, half := some st.half }

/-- The algorithm of R645, of R696 for a MINT. -/
def State.algo (s : State) (st : CollStep) (j : CollJob) (mask : Nat) : Nat :=
  let ranks := ranksOf st.ver.size mask
  let pod := ranks.all fun r => s.inPod (st.ver.node r)
  let small := if 2 ^ Nat.log2 ranks.length = ranks.length then 1 else 2
  if j.mint then (if ranks.length = 1 then 0 else if st.ver.size ≤ 64 then 5 else 6)
  else if st.ver.size = 1 then 0
  else if st.ver.policy = 1 then small
  else if st.ver.policy = 2 then 3
  else if pod then 4
  else if j.y.len ≤ st.ver.threshold then small else 3

/-- DETAIL of R653 and R702. -/
def collDetail (algo : Nat) (overflow excluded remote : Bool) : Nat :=
  4096 * b2n overflow + 8192 * b2n excluded + (if 4 < algo then 65536 * (algo - 4) + 2 ^ 19 else 65536 * algo) + 2 ^ 28 * b2n remote

/-- The status record of R653, with the roster bitmap of ROSTER_OUT. -/
def statBytes (j : CollJob) (st : CollStep) (algo code : Nat) (overflow excluded below : Bool) (en nsq f : Nat) : List Byte :=
  let mask := st.roster.getD 0
  let r := st.ver.size
  let map := bitmapBytes r mask
  let normed := j.norm && !excluded && !below && code ≠ Code.ROSTER
  leBytes 1 code ++ leBytes 1 (b2n overflow + 2 * b2n excluded + 4 * b2n normed + 8 * b2n below) ++ leBytes 1 algo ++ leBytes 1 en
    ++ leBytes 4 (popCount mask r) ++ leBytes 8 st.step ++ leBytes 2 st.ver.epoch ++ leBytes 2 st.ver.axis ++ leBytes 4 (crc32c map)
    ++ leBytes 4 st.origin ++ leBytes 4 (if j.mint then st.nonFinite else 0) ++ leBytes 16 nsq ++ leBytes 4 f ++ zeros 12
    ++ (if j.rosterOut then padTo ((map.length + 63) / 64 * 64) map else [])

end Sys2Proof.Machine
end

