-- ==== Sys2Proof/Machine/Collectives.lean ====
section
/-!
DEFINITION. Collective and MINT steps in the engines: issue, rosters, the exchange of keyed contributions, outcomes, errors and the early
arrivals (R636-R668, R686-R703). A contribution of every roster member travels under its own key; the schedules of R645, R646 and R696 that
combine contributions on the way change no result bit and are not modelled (log entry 40).
-/
namespace Sys2Proof.Machine

def colPage (half : Nat) : Nat := 0x280 + half
def mntPage (half : Nat) : Nat := 0x2A0 + half

/-! Steps. -/

def State.setStep (s : State) (st : CollStep) : State := { s with steps := s.steps.map fun x => if x.owner = st.owner then st else x }
def State.stepOp (s : State) (st : CollStep) : Option Op := s.opAt st.owner.1 st.owner.2.1 st.owner.2.2

/-- Bytes that a held message takes. -/
def collSize (m : CollMsg) : Nat := 48 + m.vals.length * (if m.enc = 1 then 6 else if m.enc = 2 then 12 else 1)

/-- The engine of a half holds a message that waits: records with the Minting engine; the half follows the group (log entry 41). -/
def earlyIn (half : Nat) (mint : Bool) (m : CollMsg) : Bool := m.group % 2 = half && (m.enc = 3) = mint
def State.earlyBytes (s : State) (half : Nat) (mint : Bool) : Nat :=
  ((s.early.filter fun e => earlyIn half mint e.1).map fun e => collSize e.1).sum

/-- Bring the level of the early-arrival buffers up to date. -/
def State.refreshEarly (s : State) : State :=
  [0, 1].foldl (fun t h => (t.wr (Reg.COL_EARLY.KIB h) ((t.earlyBytes h false + 1023) / 1024)).wr (Reg.MNT_EARLY.KIB h) ((t.earlyBytes h true + 1023) / 1024)) s

/-- The step is over on this chip. -/
def State.dropStep (s : State) (st : CollStep) : State :=
  ({ s with steps := s.steps.filter fun x => x.owner ≠ st.owner
            early := s.early.filter fun e => !(e.1.group = st.group && e.1.step = st.step && cfVal e.1.epoch = some st.ver.epoch)
            rosters := s.rosters.map fun k =>
              if k.group = st.group ∧ k.epoch = st.ver.epoch ∧ k.step = st.step then { k with doneAt := some s.uptime } else k } : State).refreshEarly

/-- What an outcome counts (R672, R705). -/
def State.countOutcome (s : State) (st : CollStep) (j : CollJob) (code : Nat) (overflow excluded : Bool) : State :=
  let h := st.half
  if j.mint then
    let t := if code = Code.RESIDUE then (s.count (Reg.MNT_RESIDUE.FAILS h) 1).raise (mntPage h) 0 else s
    let t := if code = Code.TIMEOUT then t.raise (mntPage h) 3 else t
    let t := if overflow then t.raise (mntPage h) 4 else t
    if excluded then (t.count (if j.keep then Reg.MNT_EXCLUDED.KEEP h else Reg.MNT_EXCLUDED.DROP h) 1).raise (mntPage h) 2 else t
  else
    let t := if code = Code.RESIDUE then (s.count (Reg.COL_RESIDUE.FAILS h) 1).raise (colPage h) 0 else s
    let t := if code = Code.TIMEOUT then (t.count (Reg.COL_TIMEOUT.COUNT h) 1).raise (colPage h) 1 else t
    let t := if overflow then (t.count (Reg.COL_OVERFLOW.COUNT h) 1).raise (colPage h) 3 else t
    if excluded then (t.count (Reg.COL_EXCLUDED.SELF h) 1).raise (colPage h) 2 else t

/-- A step ends with its op's outcome decided. -/
def State.endStep (s : State) (st : CollStep) (f : Fail) (detail : Nat) : State :=
  match s.stepOp st with
  | some o => (s.dropStep st).endOp o f detail
  | none => s.dropStep st

/-- Write extents in order up to the first that fails: operand index, address, bytes. -/
def collWrites (half acct : Nat) : List (Nat × Nat × List Byte) → State → State × Option Fail
  | [], s => (s, none)
  | (i, a, bs) :: rest, s =>
    if bs.isEmpty then collWrites half acct rest s
    else match s.extentFault half ⟨⟨a, bs.length, Fmt.RAW, 0, 0⟩, false, true⟩ with
      | some f => (s.noteFault f true Source.ENGINE acct, some ⟨f.1, f.2, i⟩)
      | none => collWrites half acct rest (s.writeExtent a bs)

/-- Operand indices of X, L, Y and the status record. -/
def CollJob.xi (_ : CollJob) : Nat := 0
def CollJob.yi (j : CollJob) : Nat := if j.mint then 2 else 1
def CollJob.si (j : CollJob) : Nat := if j.mint then 3 else 2

/-- The output, and the ledger of a MINT, are undefined. -/
def State.scribbleY (s : State) (j : CollJob) : State :=
  let t := if j.y.len = 0 then s else s.scribble j.y.addr j.y.len
  if j.mint ∧ j.l.len ≠ 0 then t.scribble j.l.addr j.l.len else t

/-- Write extents, then end the step: a failed write ends this member's op alone (R661). -/
def State.endWith (s : State) (st : CollStep) (j : CollJob) (w : List (Nat × Nat × List Byte)) (code : Nat) (overflow excluded : Bool) : State :=
  let d := collDetail (s.algo st j (st.roster.getD 0)) overflow excluded false
  match collWrites st.half st.owner.1 w s with
  | (t, some f) => (t.scribbleY j).endStep st f d
  | (t, none) => (t.countOutcome st j code overflow excluded).endStep st ⟨code, 0, 15⟩ d

def statWrite (j : CollJob) (bs : List Byte) : List (Nat × Nat × List Byte) := match j.stat with | some a => [(j.si, a, bs)] | none => []
def clearWrite (j : CollJob) (b : Bool) : List (Nat × Nat × List Byte) := if b then [(j.xi, j.x.addr, zeros j.x.len)] else []

/-! Errors and aborts (R660-R663). -/

/-- Send ERROR to the other members of a mask. -/
def State.sendError (s : State) (st : CollStep) (mask code chunk : Nat) : State :=
  (ranksOf st.ver.size mask).foldl (fun t r => t.sendColl st r Stage.ERROR 0 1 chunk code 0 []) s

/-- The step ends here with an error that `origin` met: outputs are undefined; a ROSTER outcome of a collective writes its status record. -/
def State.collStop (s : State) (st : CollStep) (code origin chunk : Nat) : State :=
  match s.stepOp st with
  | none => s.dropStep st
  | some o =>
    let j := jobOf o.desc
    let algo := s.algo st j (st.roster.getD 0)
    let t := (s.scribbleY j).countOutcome st j code false false
    let t := if code = Code.ROSTER ∧ !j.mint then (collWrites st.half o.acct (statWrite j (statBytes j st algo code false false false 0 0 0)) t).1 else t
    t.endStep st ⟨code, origin + 2 ^ 32 * chunk, 15⟩ (collDetail (if st.roster.isSome then algo else 0) false false (decide (origin ≠ s.node)))

/-- This member meets an error of R661. -/
def State.collFail (s : State) (st : CollStep) (code chunk : Nat) : State :=
  (s.sendError st (st.roster.getD 0) code chunk).collStop st code s.node chunk

/-- An abort of an issued collective or MINT op (R663); one that waits for an issue slot has sent nothing. -/
def State.collAbort (s : State) (o : Op) : State :=
  match s.steps.find? fun st => st.owner = o.key with
  | some st => (s.sendError st (st.roster.getD (2 ^ st.ver.size - 1)) Code.ABORTED 0).collStop st Code.ABORTED s.node 0
  | none => if o.phase = .held then s.endCode o Code.ABORTED else s

/-- A node's SESSION changes: the steps whose roster holds it end (R662). -/
def State.peerRestarted (s : State) (node : Nat) : State :=
  s.steps.foldl (fun t st =>
    if (ranksOf st.ver.size (st.roster.getD 0)).any fun r => st.ver.node r = node then t.collFail st Code.PEER_LOST 0 else t) s

/-! The outcome of a complete exchange (R651-R653, R659, R700). -/

/-- The bytes a rank sent. -/
def CollStep.gathered (st : CollStep) (j : CollJob) (r : Nat) : List Byte :=
  (List.range (j.chunks st.ver.size)).flatMap fun c => bytesOf (st.valsOf Stage.DATA c r)

/-- Where a data-movement op puts each rank's bytes. -/
def CollStep.moved (st : CollStep) (j : CollJob) (ranks : List Nat) : List (Nat × Nat × List Byte) :=
  (ranks.filter j.sends).map fun r =>
    (j.yi, j.y.addr + (if j.code = 0x0403 then 0 else r * j.part st.ver.size), st.gathered j r)

def State.collFinish (s : State) (st : CollStep) (j : CollJob) (ranks : List Nat) (res : List (Nat × Bool)) (ov : Bool) (en nsq : Nat) : State :=
  let ov := ov || (j.norm && en = 0xFF)
  let nsq := if en = 0xFF then 0 else nsq
  let code := if ov && !j.ovf then Code.OVERFLOW else Code.OK
  let out := if j.reduces then [(j.yi, j.y.addr, res.flatMap fun e => leBytes (fmtUnit j.y.fmt) e.1)] else st.moved j ranks
  let led := if j.mint then [(1, j.l.addr, st.ledger)] else []
  let stat := statBytes j st (s.algo st j (st.roster.getD 0)) code ov false false en nsq (if j.norm then normF32 en nsq else 0)
  s.endWith st j (led ++ out ++ statWrite j stat ++ clearWrite j (j.clear && code = Code.OK)) code ov false

/-- The closing pass, once the data is complete (R652, R698). -/
def State.collClosing (s : State) (st : CollStep) (j : CollJob) (ranks : List Nat) : State :=
  let me := st.ver.rank
  let res := if j.reduces then st.result j ranks else []
  let ov := res.any (·.2) || (j.expPass && (List.range (j.chunks st.ver.size)).any fun c => (st.chunkEb ranks c).contains 0xFF)
  let sqs := if j.norm then res.map fun e => squareOf j.y.fmt e.1 else []
  let send (s : State) (st : CollStep) (c : Nat) (vals : List Int) : State × CollStep :=
    if st.has Stage.CLOSE c me then (s, st)
    else (ranks.foldl (fun t r => t.sendColl st r Stage.CLOSE 2 12 c 0 vals.length vals) s, st.put Stage.CLOSE c me vals)
  if !j.closes then s.collFinish st j ranks res ov 0 0
  else
    let a := send s st 0 [(b2n ov : Int), (normExp sqs : Int)]
    if !(ranks.all fun r => a.2.has Stage.CLOSE 0 r) then a.1.setStep a.2
    else
      let all := ranks.map fun r => a.2.valsOf Stage.CLOSE 0 r
      let ov := all.any fun v => v.getD 0 0 ≠ 0
      let en := all.foldl (fun m v => max m (v.getD 1 0).toNat) 0
      if j.code = 0x0401 ∧ j.norm then
        let b := send a.1 a.2 1 [normSum en sqs]
        if !(ranks.all fun r => b.2.has Stage.CLOSE 1 r) then b.1.setStep b.2
        else b.1.collFinish b.2 j ranks res ov en (ranks.foldl (fun t r => t + (b.2.valsOf Stage.CLOSE 1 r).getD 0 0) 0).toNat
      else a.1.collFinish a.2 j ranks res ov en (normSum en sqs).toNat

/-- Send this member's data of a chunk to the members that need it. -/
def State.collSendData (s : State) (st : CollStep) (j : CollJob) (ranks : List Nat) (c : Nat) : State × CollStep :=
  let r := st.ver.size
  let own := st.ownData j ranks c st.ver.rank
  let t := ranks.foldl (fun t k =>
    if k = st.ver.rank ∨ !j.needs r k c then t
    else
      let d := st.ownData j ranks c k
      let t := t.sendColl st k Stage.DATA d.1 d.2.1 c 0 (j.dataCount c d.2.2) d.2.2
      if j.mint then t.countWrap (Reg.MNT_TX_BYTES.BYTES st.half) d.2.2.length else t) s
  (t, st.put Stage.DATA c st.ver.rank own.2.2)

/-- Go as far as the contributions received allow. -/
def State.collAdvance (s : State) (st : CollStep) : State :=
  match st.roster, s.stepOp st with
  | some mask, some o =>
    let j := jobOf o.desc
    let r := st.ver.size
    let me := st.ver.rank
    let ranks := ranksOf r mask
    let cs := List.range (j.chunks r)
    let a := cs.foldl (fun (a : State × CollStep) c =>
      if a.2.has Stage.DATA c me ∨ !j.sends me ∨ (j.expPass && !(ranks.all fun k => a.2.has Stage.EXP c k)) then a
      else a.1.collSendData a.2 j ranks c) (s, st)
    let own := !j.sends me || cs.all fun c => a.2.has Stage.DATA c me
    let all := cs.all fun c => !j.needs r me c || (ranks.filter j.sends).all fun k => a.2.has Stage.DATA c k
    if own && all then a.1.collClosing a.2 j ranks else a.1.setStep a.2
  | _, _ => s.setStep st

/-! Rosters (R655-R659). -/

/-- An excluded member completes ROSTER: its input follows KEEP or DROP. -/
def State.collExclude (s : State) (st : CollStep) (j : CollJob) : State :=
  let algo := s.algo st j (st.roster.getD 0)
  if j.mint ∧ j.keep then
    match s.usesFault st.half [⟨j.x, true, false⟩, ⟨j.l, true, false⟩] with
    | some f => ((s.noteFault (f.code, f.info) false Source.ENGINE st.owner.1).scribbleY j).endStep st f (collDetail algo false true false)
    | none =>
      let g := s.operandBytes j.x
      let l := s.operandBytes j.l
      let bad := ((j.mintOwn g l).filter (·.bad)).length
      let st := { st with nonFinite := bad }
      let led := (List.range ((j.n + 4095) / 4096)).flatMap fun b =>
        let is := (List.range (min 4096 (j.n - 4096 * b))).map fun i => 4096 * b + i
        let ls := is.map (elemAt j.l.fmt j.n l)
        let cs := (is.map (elemAt j.x.fmt j.n g)).zipWith (fun x y => rn (x.add y)) ls
        (if cs.any Num.nonFinite then ls else cs).flatMap fun c => leBytes (fmtUnit j.l.fmt) (convert j.l.fmt c).code
      s.endWith st j ([(1, j.l.addr, led)] ++ statWrite j (statBytes j st algo Code.ROSTER false true false 0 0 0) ++ clearWrite j j.clear) Code.ROSTER false true
  else
    s.endWith st j (statWrite j (statBytes j st algo Code.ROSTER false true false 0 0 0) ++ clearWrite j (j.clear && !j.keep)) Code.ROSTER false true

/-- A roster below MIN_ROSTER fails the step. -/
def State.collBelow (s : State) (st : CollStep) (j : CollJob) : State :=
  s.endWith st j (statWrite j (statBytes j st (s.algo st j (st.roster.getD 0)) Code.ROSTER false false true 0 0 0)) Code.ROSTER false false

/-- A roster member takes its input and starts the exchange. -/
def State.collBegin (s : State) (st : CollStep) (j : CollJob) : State :=
  let me := st.ver.rank
  let reads : List Use := ⟨j.x, true, false⟩ :: (if j.mint then [⟨j.l, true, false⟩] else [])
  match s.usesFault st.half reads with
  | some f =>
    if f.code = Code.PERMISSION then (s.scribbleY j).endStep st f 0
    else (s.noteFault (f.code, f.info) false Source.ENGINE st.owner.1).collFail st f.code 0
  | none =>
    let x := s.operandBytes j.x
    if j.mint then
      let bl := j.mintOwn x (s.operandBytes j.l)
      let bad := (bl.filter (·.bad)).length
      let t := (s.countWrap (Reg.MNT_BLOCKS.COUNT st.half) bl.length).count (Reg.MNT_NONFINITE.COUNT st.half) bad
      let t := if bad = 0 then t else t.raise (mntPage st.half) 1
      t.collAdvance { st with own := bl.flatMap (·.record), ledger := bl.flatMap (·.lnew), nonFinite := bad }
    else
      let st := { st with own := x }
      let a := if !j.expPass then (s, st) else
        (List.range (j.chunks st.ver.size)).foldl (fun (a : State × CollStep) c =>
          let vals := (blockMax (j.chunkPatterns x c)).map fun (v : Nat) => (v : Int)
          ((ranksOf st.ver.size (st.roster.getD 0)).foldl (fun t r => t.sendColl st r Stage.EXP 0 1 c 0 vals.length vals) a.1,
            a.2.put Stage.EXP c me vals)) (s, st)
      a.1.collAdvance a.2

/-- A member's roster for the step is known. -/
def State.collEnter (s : State) (st : CollStep) : State :=
  match st.roster, s.stepOp st with
  | some mask, some o =>
    let j := jobOf o.desc
    let t := s.setStep st
    if popCount mask st.ver.size < st.ver.minRoster then t.collBelow st j
    else if !bit mask st.ver.rank then t.collExclude st j
    else t.collBegin st j
  | _, _ => s

/-- A member adopts the roster that rank `origin` decided, and passes it on down the tree. -/
def State.collAdopt (s : State) (st : CollStep) (mask origin : Nat) : State :=
  let x := { st with roster := some mask, origin := origin }
  let ranks := ranksOf st.ver.size mask
  let bm := intsOf (bitmapBytes st.ver.size mask)
  let t := if !bit mask st.ver.rank then s else
    (treeChildren ranks origin st.ver.rank).foldl (fun t r => t.sendColl x r Stage.ROSTER 0 1 origin 0 bm.length bm) s
  t.collEnter x

/-- The later of a candidate's stagger instant and its own issue. -/
def State.decideAt (s : State) (st : CollStep) : Nat := max (st.deadline + st.ver.rank * s.rd (Reg.COL_CFG.STAGGER_US st.half) * 1000) st.time

/-- A candidate decides, unless it still waits (R656, R657). -/
def State.collDecide (s : State) (st : CollStep) : State :=
  let tk := s.decideAt st
  let lower := st.ready.any fun r => decide (r < st.ver.rank)
  let due := if lower then tk + s.rd (Reg.COL_CFG.STAGGER_US st.half) * 1000 else tk
  if st.deadline = 0 ∨ st.ver.candidates ≤ st.ver.rank ∨ st.roster.isSome ∨ s.now < due then s
  else
    let mask := maskOf (fun r => r = st.ver.rank || st.ready.contains r) st.ver.size
    let n := popCount mask st.ver.size
    let t := if n < st.ver.minRoster then s else s.count (Reg.COL_EXCLUDED.OTHERS st.half) (st.ver.size - n)
    let k : KeptRoster := ⟨st.group, st.ver.epoch, st.step, mask, st.ver.timeout, none⟩
    ({ t with rosters := t.rosters ++ [k] } : State).collAdopt st mask st.ver.rank

/-! Receiving (R658, R665-R667). -/

/-- The version of a group that a message names. -/
def State.msgVersion (s : State) (m : CollMsg) : Option GroupVer :=
  let x := s.group m.group
  match cfVal m.epoch with
  | some e => ([x.live, x.retained, x.pending].filterMap id).find? fun v => v.epoch = e
  | none => none

/-- The first check of R666 that a message fails, SHAPE apart. -/
def State.collCheck (s : State) (m : CollMsg) : Nat :=
  if 32 ≤ m.dstAcct ∨ !s.on (Reg.CTL.ENABLE (0x40 + m.dstAcct)) ∨ !s.groupOf m.dstAcct m.group then Code.PERMISSION
  else match s.msgVersion m with
    | none => Code.EPOCH
    | some v => if m.tag = v.tag ∧ v.list[m.srcRank]? = some m.srcNode then Code.OK else Code.PERMISSION

/-- ERROR in answer to a message that fails a check. -/
def State.collAnswer (s : State) (m : CollMsg) (code : Nat) : State :=
  let rank := match s.msgVersion m with | some v => v.rank | none => ((s.group m.group).live.getD default).rank
  s.sendMsg (fabMsg m.srcNode 2 Kind.COLL m.dstAcct m.srcAcct
    (collHeader m.group Stage.ERROR 0 rank (m.epoch % 2 ^ 32) m.step m.chunk m.rosterHash m.tag code 0 m.shape) none)

def State.collStepOf (s : State) (m : CollMsg) : Option CollStep :=
  s.steps.find? fun st => st.group = m.group && st.step = m.step && cfVal m.epoch = some st.ver.epoch

/-- The step of a message has been issued on this chip. -/
def State.collIssued (s : State) (m : CollMsg) : Bool := match (s.group m.group).highest with | some h => decide (m.step ≤ h) | none => false

/-- A message finds the early-arrival buffer of 8 MiB full. -/
def State.earlyFull (s : State) (m : CollMsg) : Bool := decide (0x800000 < s.earlyBytes (m.group % 2) (m.enc = 3) + collSize m)

/-- A message waits for its step or its roster. -/
def State.collHold (s : State) (m : CollMsg) (rf at_ : Nat) : State :=
  if s.earlyFull m then s else ({ s with early := s.early ++ [(m, at_, rf)] } : State).refreshEarly

/-- Extra rosters and hash mismatches. -/
def State.collConflict (s : State) (half : Nat) : State := (s.count (Reg.COL_CONFLICT.COUNT half) 1).raise (colPage half) 4

/-- A repeated key is discarded. -/
def State.collRepeat (s : State) (st : CollStep) (mint : Bool) : State :=
  s.count (if mint then Reg.MNT_DUP.COUNT st.half else Reg.COL_DUP.COUNT st.half) 1

/-- The roster that a candidate kept answers a READY. -/
def State.collLateReady (s : State) (m : CollMsg) (k : KeptRoster) : State :=
  match s.msgVersion m with
  | none => s
  | some v =>
    let bm := bitmapBytes v.size k.mask
    s.sendMsg (fabMsg m.srcNode 2 Kind.COLL m.dstAcct m.srcAcct
      (collHeader m.group Stage.ROSTER 0 v.rank v.epoch m.step v.rank (rosterHash v.size k.mask) v.tag 0 bm.length m.shape ++ bm) none)

/-- The addition that a contribution enters fails its residue check `rf` times (R654). -/
def State.collResidue (s : State) (st : CollStep) (mint : Bool) (rf chunk : Nat) : State :=
  let t := if rf = 0 then s else s.count (if mint then Reg.MNT_RESIDUE.RETRIES st.half else Reg.COL_RESIDUE.RETRIES st.half) 1
  if rf < 2 then t.collAdvance st else (t.setStep st).collFail st Code.RESIDUE chunk

/-- A contribution of a roster member under its key. -/
def State.collPut (s : State) (st : CollStep) (m : CollMsg) (rf : Nat) : State :=
  match s.stepOp st with
  | none => s
  | some o =>
    let j := jobOf o.desc
    let hashed := m.stage = Stage.EXP || m.stage = Stage.DATA
    if hashed ∧ m.rosterHash ≠ rosterHash st.ver.size (st.roster.getD 0) then (s.collConflict st.half).collFail st Code.ROSTER m.chunk
    else if st.has m.stage m.chunk m.srcRank then s.collRepeat st j.mint
    else
      let adds := (m.stage = Stage.DATA && j.reduces && j.red = 0) || (m.stage = Stage.CLOSE && m.chunk = 1)
      s.collResidue (st.put m.stage m.chunk m.srcRank m.vals) j.mint (if adds then rf else 0) m.chunk

/-- A message of an issued step that passes the checks. -/
def State.collTake (s : State) (st : CollStep) (m : CollMsg) (rf at_ : Nat) : State :=
  if m.shape ≠ st.shape then (s.collAnswer m Code.FORMAT).collFail st Code.FORMAT m.chunk
  else if m.stage = Stage.READY then
    match s.rosters.find? fun k => k.group = st.group && k.epoch = st.ver.epoch && k.step = st.step with
    | some k => s.collLateReady m k
    | none => if st.ready.contains m.srcRank then s.collRepeat st ((s.stepOp st).any fun o => (jobOf o.desc).mint)
      else s.setStep { st with ready := st.ready ++ [m.srcRank] }
  else if m.stage = Stage.ROSTER then
    if st.roster.isSome then s.collConflict st.half
    else s.collAdopt st (leNat (bytesOf m.vals) % 2 ^ st.ver.size) m.chunk
  else if m.stage = Stage.ERROR then s.collStop st m.code m.srcNode m.chunk
  else if st.roster.isNone then s.collHold m rf at_
  else s.collPut st m rf

/-- One pass over the messages that waited and can go on. -/
def State.collDrain (s : State) : State :=
  s.early.foldl (fun t e =>
    match t.collStepOf e.1 with
    | some st =>
      if t.early.contains e ∧ (st.roster.isSome ∨ e.1.stage < 2 ∨ e.1.stage = Stage.ERROR) then
        (({ t with early := t.early.erase e } : State).refreshEarly).collTake st e.1 e.2.2 e.2.1
      else t
    | none => t) s

/-- A roster found in the first pass lets other messages go on in the second. -/
def State.collSettle (s : State) : State := s.collDrain.collDrain

/-- A COLL message arrives. -/
def State.collArrive (s : State) (m : CollMsg) (rf : Nat) : State :=
  if s.collCheck m ≠ Code.OK then s.collAnswer m (s.collCheck m)
  else match s.collStepOf m with
    | some st => (s.collTake st m rf s.uptime).collSettle
    | none =>
      if !s.collIssued m then s.collHold m rf s.uptime
      else if m.stage = Stage.READY then
        match s.rosters.find? fun k => k.group = m.group && cfVal m.epoch = some k.epoch && k.step = m.step with
        | some k => s.collLateReady m k
        | none => s
      else s

/-- A COLL message of a stage. -/
def State.collStage (s : State) (stage : Nat) (m : CollMsg) (rf : Nat) : State :=
  if s.computeOn ∧ m.stage = stage then s.collArrive m rf else s

/-! Issue (R642, R643, R692). -/

/-- A group carries 16 issued ops, or an op of it waits already. -/
def State.groupFull (s : State) (o : Op) (before : List Op) : Bool :=
  let g := o.group.map (·.1)
  let same (x : Op) : Bool := x.group.map (·.1) = g && !x.is o.acct o.ring o.seq
  decide (16 ≤ (s.ops.filter fun x => same x && x.phase ≠ .waiting && x.phase ≠ .held).length) || before.any fun x => same x && x.phase = .held

/-- STEP and DEADLINE of a step: in the descriptor, or in the parameter record of a MINT; none when the record fails R692. -/
def State.stepParams (s : State) (o : Op) : Nat × Nat × Fail :=
  if o.opcode = 0x0500 then
    let p := operandAt o.desc 0x70
    match s.extentFault (s.opHalf o) ⟨p, true, false⟩ with
    | some f => (0, 0, ⟨f.1, f.2, 3⟩)
    | none =>
      let bs := s.operandBytes p
      (fieldAt bs 0 8, fieldAt bs 8 8, if fieldAt bs 0x10 48 = 0 then passed else ⟨Code.FORMAT, 0, 15⟩)
  else (descAt o.desc 0x68 8, descAt o.desc 0x70 8, passed)

/-- A collective or MINT op issues its step. -/
def State.collStart (s : State) (o : Op) : State :=
  let p := s.stepParams o
  let j := jobOf o.desc
  match o.group with
  | none => s
  | some (g, e) =>
    let x := s.group g
    if p.2.2.code ≠ Code.OK then (s.noteOp o p.2.2 false).endOp o p.2.2 0
    else match x.live with
      | none => s.endCode o Code.LIMIT
      | some v =>
        if e ≠ v.epoch then s.endCode o Code.EPOCH
        else if x.highest.any fun h => decide (p.1 ≤ h) then s.endCode o Code.DUPLICATE
        else if !j.fits v.size v.rank then s.endCode o Code.FORMAT
        else
          let st : CollStep := ⟨o.key, s.opHalf o, g, v, p.1, p.2.1, j.shape p.2.1, s.uptime, s.now, [], none, 0xFFFFFFFF, [], [], 0, []⟩
          let t := { s with groups := tblSet default s.groups g { x with highest := some p.1 }, steps := s.steps ++ [st] }
          if p.2.1 = 0 then (t.collEnter { st with roster := some (2 ^ v.size - 1) }).collSettle
          else ((List.range v.candidates).foldl (fun t k => t.sendColl st k Stage.READY 0 1 0 0 0 []) t).collSettle

def State.collIssue (s : State) (a r seq opcode : Nat) : State :=
  s.issueMem a r seq opcode fun t o => if t.groupFull o t.ops then t.holdOp o else t.collStart o

def execAllReduce (a r seq : Nat) (s : State) : Result := .next (s.collIssue a r seq 0x0400)
def execReduceScatter (a r seq : Nat) (s : State) : Result := .next (s.collIssue a r seq 0x0401)
def execAllGather (a r seq : Nat) (s : State) : Result := .next (s.collIssue a r seq 0x0402)
def execBroadcast (a r seq : Nat) (s : State) : Result := .next (s.collIssue a r seq 0x0403)
def execAllToAll (a r seq : Nat) (s : State) : Result := .next (s.collIssue a r seq 0x0404)
def execMint (a r seq : Nat) (s : State) : Result := .next (s.collIssue a r seq 0x0500)

/-- An op that waited for one of its group's 16 issue slots issues. -/
def State.collUnblock (s : State) (o : Op) : State :=
  let before := s.ops.takeWhile fun x => !x.is o.acct o.ring o.seq
  if o.phase ≠ .held ∨ o.group.isNone ∨ s.groupFull o before ∨ !s.computeOn then s
  else
    let x := { o with phase := .running }
    ((s.setOp x).collStart x).refreshRing o.u

def execCollIssueUnblock (a r seq : Nat) (s : State) : Result := .next (match s.opAt a r seq with | some o => s.collUnblock o | none => s)

def execCollReady (m : CollMsg) (s : State) : Result := .next (s.collStage Stage.READY m 0)
def execCollRoster (m : CollMsg) (s : State) : Result := .next (s.collStage Stage.ROSTER m 0)
def execCollExp (m : CollMsg) (s : State) : Result := .next (s.collStage Stage.EXP m 0)
def execCollData (m : CollMsg) (residueFails : Nat) (s : State) : Result := .next (s.collStage Stage.DATA m residueFails)
def execCollClose (m : CollMsg) (residueFails : Nat) (s : State) : Result := .next (s.collStage Stage.CLOSE m residueFails)
def execCollError (m : CollMsg) (s : State) : Result := .next (s.collStage Stage.ERROR m 0)

def State.stepAt (s : State) (a r seq : Nat) : Option CollStep := s.steps.find? fun st => st.owner = (a, r, seq)

def execRosterDecide (a r seq : Nat) (s : State) : Result :=
  .next (match s.stepAt a r seq with | some st => if s.computeOn then (s.collDecide st).collSettle else s | none => s)

/-- The collective timeout passes after a step's issue (R660). -/
def execCollTimeout (a r seq : Nat) (s : State) : Result :=
  .next (match s.stepAt a r seq with
    | some st => if st.issued + st.ver.timeout * 1000000 ≤ s.uptime ∧ s.computeOn then s.collFail st Code.TIMEOUT 0 else s
    | none => s)

/-- Messages whose step has not issued within the collective timeout are discarded (R667). -/
def execEarlyArrivalExpiry (half : Nat) (s : State) : Result :=
  let past (e : CollMsg × Nat × Nat) : Bool := e.1.group % 2 = half && match s.msgVersion e.1 with
    | some v => decide (e.2.1 + v.timeout * 1000000 ≤ s.uptime)
    | none => true
  .next ({ s with early := s.early.filter fun e => !past e } : State).refreshEarly

/-- A kept roster is dropped once its step has been over for TIMEOUT_MS (R657). -/
def execRosterRetentionExpiry (group epoch step : Nat) (s : State) : Result :=
  .next { s with rosters := s.rosters.filter fun k =>
    !(k.group = group && k.epoch = epoch && k.step = step && k.doneAt.any fun t => decide (t + k.timeout * 1000000 ≤ s.uptime)) }

end Sys2Proof.Machine
end

