-- ==== Sys2Proof/Machine/StepOps.lean ====
section
/-!
DEFINITION. The end of a training step: STEP_CLOSE, UPDATE, MIRROR, COMMIT and the step ledger (R716-R746).
-/
namespace Sys2Proof.Machine

def lscPage : Nat := 0x2B2
def updPage (half : Nat) : Nat := 0x2B0 + half

/-- k as a signed number (LSC_K bits 7:0). -/
def signed8 (v : Nat) : Int := if v % 256 < 128 then (v % 256 : Nat) else (v % 256 : Nat) - 256
def State.lscK (s : State) : Int := signed8 (s.rd Reg.LSC_K.K)
def State.setK (s : State) (k : Int) : State := s.wr Reg.LSC_K.K (cfOf (k % 256).toNat)

abbrev Decision.APPLY : Nat := 1
abbrev Decision.SKIP_OVERFLOW : Nat := 2
abbrev Decision.SKIP_ROSTER : Nat := 3
abbrev Decision.EXCLUDED : Nat := 4

/-- 2^k in FP32. -/
def pow2 (k : Int) : Num := .fin false 1 k

/-! STEP_CLOSE (R722-R726). -/

/-- Check row 4 of R723 on the record at an address; an address off a 64-byte boundary is FORMAT (log entry 43). -/
def State.statRecordRead (s : State) (o : Op) (a : Nat) : Fail :=
  let u : Use := ⟨⟨a, 64, Fmt.RAW, 0, 0⟩, true, false⟩
  let c := s.operandCode o.acct u
  if a % 64 ≠ 0 then ⟨Code.FORMAT, 0, 15⟩
  else if c ≠ Code.OK then ⟨if c = Code.PERMISSION then c else Code.BOUNDS, 0, 15⟩
  else match s.extentFault (s.opHalf o) u with
    | some f => ⟨f.1, f.2, 15⟩
    | none => passed

/-- Check rows 4-6 of R723, each over every record in order. -/
def State.statRecordsCode (s : State) (o : Op) (clip : Bool) (addrs : List Nat) : Fail :=
  match (addrs.map (s.statRecordRead o)).find? fun f => f.code ≠ Code.OK with
  | some f => f
  | none =>
    let recs := addrs.map fun a => s.load a 64
    let code (r : List Byte) : Nat := fieldAt r 0 1
    if recs.any fun r => fieldAt r 4 4 = 0 || !(code r = Code.OK || code r = Code.OVERFLOW || code r = Code.ROSTER) then ⟨Code.FORMAT, 0, 15⟩
    else if clip && recs.any fun r => decide (code r ≠ Code.ROSTER) && !bit (fieldAt r 1 1) 2 then ⟨Code.FORMAT, 0, 15⟩
    else passed

/-- What a decision makes of k and run (R724). -/
structure StepDecision where
  dec : Nat
  k : Int
  run : Nat
deriving DecidableEq, Repr

def decideStep (recs : List (List Byte)) (k : Int) (run interval : Nat) : StepDecision :=
  let flag (i : Nat) : Bool := recs.any fun r => bit (fieldAt r 1 1) i
  let differ : Bool := match recs with
    | [] => false
    | r :: rs => rs.any fun x => decide (fieldAt x 4 4 ≠ fieldAt r 4 4) || decide (fieldAt x 0x14 4 ≠ fieldAt r 0x14 4)
  if flag 1 then ⟨Decision.EXCLUDED, k, run⟩
  else if flag 3 ∨ differ then ⟨Decision.SKIP_ROSTER, k, run⟩
  else if flag 0 then ⟨Decision.SKIP_OVERFLOW, max (k - 1) (-24), 0⟩
  else if run + 1 = interval then ⟨Decision.APPLY, min (k + 1) 40, 0⟩
  else ⟨Decision.APPLY, k, run + 1⟩

/-- The norm and multiplier of R725 as FP32 patterns: gn, clip, GMUL. -/
def stepNorm (recs : List (List Byte)) (k : Int) (count : Nat) (clip : Option Num) : Nat × Nat × Nat :=
  let q := rn ((pow2 (-k)).div (numOf count))
  let nsq := rn (exactSum ((recs.filter fun r => bit (fieldAt r 1 1) 2).map fun r =>
    (numOf (fieldAt r 0x20 16)).shift ((max (fieldAt r 3 1) 1 : Nat) - 157)))
  let gn := rn ((rn nsq.sqrt).mul q)
  let c := match clip with
    | some t => if Num.lt t gn then rn (t.div gn) else one
    | none => one
  (rnd gn, rnd c, rnd (q.mul c))

def State.stepClose (s : State) (o : Op) : State :=
  let d := o.desc
  let step := descAt d 0x60 8
  let flags := descAt d 0x68 1
  let clipC := f32 (descAt d 0x6C 4)
  let st := operandAt d 0x40
  let sout := operandAt d 0x50
  if s.on Reg.LSC_DEC.BEHIND then s.endCode o Code.ROSTER
  else if step ≤ s.rd Reg.LSC_DEC_STEP.STEP then s.endCode o Code.DUPLICATE
  else if bit flags 1 ∧ (clipC.nonFinite || !Num.lt Num.zero clipC || clipC.isZero) then s.endCode o Code.FORMAT
  else match s.usesFault (s.opHalf o) [⟨st, true, false⟩] with
  | some f => (s.noteUse o [⟨st, true, false⟩] f).endOp o f 0
  | none =>
    let addrs := (List.range (st.len / 8)).map fun i => fieldAt (s.operandBytes st) (8 * i) 8
    let rc := s.statRecordsCode o (bit flags 1) addrs
    let recs := addrs.map fun a => s.load a 64
    let k := s.lscK
    let v := decideStep recs k (s.rd Reg.LSC_RUN.RUN) (s.rd Reg.LSC_GROWTH.INTERVAL)
    let outs : List Use := if v.dec = Decision.EXCLUDED then [] else [⟨sout, false, true⟩]
    if rc.code ≠ Code.OK then (s.noteOp o rc false).endOp o rc 0
    else match s.usesFault (s.opHalf o) outs with
    | some f => (s.noteUse o outs f).endOp o { f with idx := 1 } 0
    | none =>
      let same (o n : Nat) : Option Nat := match recs with
        | [] => none
        | r :: rs => if rs.all fun x => fieldAt x o n = fieldAt r o n then some (fieldAt r o n) else none
      let count := if recs.isEmpty then 1 else (same 4 4).getD (Config.freeNat s.free % 131072)
      let hash := (same 0x14 4).getD (Config.freeNat (s.free + 1) % 2 ^ 32)
      let g := stepNorm recs k (if bit flags 0 then count else 1) (if bit flags 1 then some clipC else none)
      let t := s.skipFree 2
      let t := (((t.wr Reg.LSC_DEC_STEP.STEP step).wr Reg.LSC_DEC.DECISION v.dec).wr Reg.LSC_DEC.ROSTER_COUNT count).wr Reg.LSC_ROSTER_HASH.HASH hash
      let t := ((t.wr Reg.LSC_GNORM.GN g.1).wr Reg.LSC_CLIP.CLIP g.2.1).wr Reg.LSC_GMUL.GMUL g.2.2
      let t := (t.setK v.k).wr Reg.LSC_RUN.RUN v.run
      let t := if v.dec = Decision.SKIP_OVERFLOW then (t.count Reg.LSC_SKIPS.OVERFLOW 1).raise lscPage 0
        else if v.dec = Decision.SKIP_ROSTER then (t.count Reg.LSC_SKIPS.ROSTER 1).raise lscPage 0
        else if v.dec = Decision.EXCLUDED then ((t.count Reg.LSC_SKIPS.ROSTER 1).wrb Reg.LSC_DEC.BEHIND true).raise lscPage 1
        else t
      let t := if v.dec = Decision.SKIP_OVERFLOW ∧ k = -24 then t.raise lscPage 3 else t
      let t := if v.dec = Decision.APPLY ∧ v.run = 0 ∧ k = 40 then t.raise lscPage 4 else t
      if v.dec = Decision.EXCLUDED then t.endOp o ⟨Code.ROSTER, 0, 15⟩ (4096 * v.dec)
      else (t.putOperand sout (if sout.len = 8 then leBytes 4 (rnd (pow2 v.k)) ++ leBytes 4 (v.k % 2 ^ 32).toNat else [])).endOk o (4096 * v.dec)

def execStepClose (a r seq : Nat) (s : State) : Result := .next (s.issueMem a r seq 0x0601 State.stepClose)

/-! Granules (R733). -/

/-- Device address of granule `g` of the mirror map. -/
def State.granuleAddr (s : State) (g : Nat) : Nat :=
  ((List.range 8).foldl (fun (a : Nat × Option Nat) i =>
    let n := s.rd (Reg.LSC_MSRC.GRANULES i)
    match a.2 with
    | some _ => a
    | none => if g < a.1 + n then (a.1, some ((s.rd (Reg.LSC_MSRC.BASE i) + (g - a.1)) * granule)) else (a.1 + n, none)) (0, none)).2.getD 0

/-- The map entry of a granule is copied by every MIRROR. -/
def State.granuleAlways (s : State) (g : Nat) : Bool :=
  ((List.range 8).foldl (fun (a : Nat × Bool) i =>
    let n := s.rd (Reg.LSC_MSRC.GRANULES i)
    (a.1 + n, a.2 || (decide (a.1 ≤ g) && decide (g < a.1 + n) && s.on (Reg.LSC_MSRC.ALWAYS i)))) (0, false)).2

def State.gran (s : State) (g : Nat) : Granule := tblGet default s.granules g

/-- Bring LSC_DIRTY up to date. -/
def State.refreshDirty (s : State) : State :=
  s.wr Reg.LSC_DIRTY.COUNT ((List.range s.granuleCount).filter fun g => (s.gran g).dirty).length

def State.setGrans (s : State) (l : List (Nat × Granule)) : State :=
  ({ s with granules := l.foldl (fun t e => tblSet default t e.1 e.2) s.granules } : State).refreshDirty

/-- Mark the granules that extents touch as dirty (R732). -/
def State.markDirty (s : State) (xs : List Operand) : State :=
  s.setGrans (((List.range s.granuleCount).filter fun g => xs.any fun x => rangesMeet x.addr x.len (s.granuleAddr g) granule).map fun g =>
    (g, { s.gran g with dirty := true }))

/-! UPDATE (R727-R732). -/

/-- The mixing function of R731, modulo 2^64. -/
def mix64 (z : Nat) : Nat :=
  let z := (z ^^^ (z / 2 ^ 30)) * 0xBF58476D1CE4E5B9 % 2 ^ 64
  let z := (z ^^^ (z / 2 ^ 27)) * 0x94D049BB133111EB % 2 ^ 64
  z ^^^ (z / 2 ^ 31)

def u24Of (seed step ebase i p : Nat) : Nat := bits (mix64 ((mix64 ((seed ^^^ step) % 2 ^ 64) + 2 * (1024 * ebase + i) + p) % 2 ^ 64)) 40 24

/-- The choice between adjacent values of R731: whether (x - a) * 2^24 > u24 * (b - a). -/
def takesUpper (x a b : Num) (u24 : Nat) : Bool := Num.lt ((numOf u24).mul (b.sub a)) ((x.sub a).shift 24)

/-- Stochastic rounding of an element over its scale, and whether it saturated. -/
def srRound (f u24 : Nat) (x : Num) : Nat × Bool :=
  match x with
  | .fin s m e =>
    if f = Fmt.MXINT8 then
      let y := Num.scaled s m e (min e (-6))
      let den : Int := 2 ^ (-6 - min e (-6)).toNat
      let a := y.fdiv den
      let k := if y % den = 0 then a else if takesUpper x (Num.ofInt a (-6)) (Num.ofInt (a + 1) (-6)) u24 then a + 1 else a
      if 127 < k then (127, true) else if k < -128 then (128, true) else ((k % 256).toNat, false)
    else
      let g := floatFmt f
      let c := g.truncMag m e
      if c.2 then (if c.1 ≤ g.maxCode then (g.signed s c.1, false) else (g.signed s g.maxCode, true))
      else if g.maxCode ≤ c.1 then mxRound f x
      else
        let lo := g.decode (g.signed s (if s then c.1 + 1 else c.1))
        let hi := g.decode (g.signed s (if s then c.1 else c.1 + 1))
        let up := takesUpper x lo hi u24
        (g.signed s (if up = s then c.1 else c.1 + 1), false)
  | _ => (0, false)

/-- An operand of one row of MX elements, quantised with the rounding of each element. -/
def mxRow (f : Nat) (rnd_ : Nat → Num → Nat × Bool) (xs : List Num) : List Byte :=
  ((pieces 1024 xs).zipIdx.flatMap fun g =>
    let bl := (pieces 32 g.1).zipIdx.map fun b => mxQuantiseWith f (fun i => rnd_ (1024 * g.2 + 32 * b.2 + i)) b.1
    bl.map (fun b => BitVec.ofNat 8 b.scale) ++ bl.flatMap fun b => b.codes.map (BitVec.ofNat 8))

/-- The parameters of R728. -/
structure UpdParams where
  lr : Num
  beta1 : Num
  beta2 : Num
  eps : Num
  wd : Num
  bc1 : Num
  bc2s : Num
deriving DecidableEq, Repr

def updParams (r : List Byte) : UpdParams :=
  let f (o : Nat) : Num := f32 (fieldAt r o 4)
  ⟨f 0, f 4, f 8, f 12, f 16, f 20, f 24⟩

/-- Row 4 of R729. -/
def updParamsOk (r : List Byte) : Bool :=
  let p := updParams r
  let nonNeg (x : Num) : Bool := x.isZero || Num.lt Num.zero x
  let ge1 (x : Num) : Bool := !Num.lt x one
  ([p.lr, p.beta1, p.beta2, p.eps, p.wd, p.bc1, p.bc2s].all fun x => !x.nonFinite) && nonNeg p.beta1 && Num.lt p.beta1 one && nonNeg p.beta2
    && Num.lt p.beta2 one && nonNeg p.eps && nonNeg p.lr && nonNeg p.wd && ge1 p.bc1 && ge1 p.bc2s && fieldAt r 0x1C 36 = 0

/-- One element of R730: new w, m and r. -/
def updElem (p : UpdParams) (gmul y m r w : Num) : Num × Num × Num :=
  let g := rn (y.mul gmul)
  let m := rn ((rn (p.beta1.mul m)).add (rn ((rn (one.sub p.beta1)).mul g)))
  let v := rn ((rn (p.beta2.mul (rn (r.mul r)))).add (rn ((rn (one.sub p.beta2)).mul (rn (g.mul g)))))
  let r := rn v.sqrt
  let mh := rn (m.mul p.bc1)
  let d := rn ((rn (r.mul p.bc2s)).add p.eps)
  let u := if d.isZero then Num.zero else rn (mh.div d)
  let w := rn ((rn (w.sub (rn (p.lr.mul (rn (p.wd.mul w)))))).sub (rn (p.lr.mul u)))
  (w, m, r)

def State.update (s : State) (o : Op) : State :=
  let d := o.desc
  let w := operandAt d 0x40
  let m := operandAt d 0x50
  let r := operandAt d 0x60
  let g := operandAt d 0x70
  let n := gradElems g
  let half := s.opHalf o
  let pa := s.rd Reg.LSC_PTAB.BASE * 64 + 64 * w.aux
  let pu : Use := ⟨⟨pa, 64, Fmt.RAW, 0, 0⟩, true, false⟩
  let dec := s.rd Reg.LSC_DEC.DECISION
  let pc := s.operandCode o.acct pu
  if s.on Reg.LSC_DEC.BEHIND then s.endCode o Code.ROSTER
  else if dec = 0 ∨ s.rd Reg.LSC_DEC_STEP.STEP % 2 ^ 24 ≠ g.aux then s.endCode o Code.EPOCH
  else if pc ≠ Code.OK then s.endCode o (if pc = Code.PERMISSION then pc else Code.BOUNDS)
  else match s.extentFault half pu with
  | some f => (s.noteOp o ⟨f.1, f.2, 15⟩ false).endOp o ⟨f.1, f.2, 15⟩ 0
  | none =>
    let rec_ := s.load pa 64
    if !updParamsOk rec_ then s.endCode o Code.FORMAT
    else if dec ≠ Decision.APPLY then (((s.count (Reg.UPD_SKIPPED.COUNT half) 1).raise (updPage half) 0).markDirty [w, m, r]).endOk o 4096
    else match s.usesFault half (s.opUses o) with
    | some f => (((s.noteUse o (s.opUses o) f).scribbleOutputs o).markDirty [w, m, r]).endOp o f 0
    | none =>
      let wb := s.operandBytes w
      let mb := s.operandBytes m
      let rb := s.operandBytes r
      let gb := s.operandBytes g
      let gmul := f32 (s.rd Reg.LSC_GMUL.GMUL)
      let p := updParams rec_
      let e := (List.range n).map fun i =>
        updElem p gmul (elemAt g.fmt n gb i) (rn (elemAt Fmt.MXINT8 n mb i)) (rn (elemAt Fmt.MXE4M3 n rb i))
          (f32 (fieldAt wb (2 * i) 2 * 65536 + fieldAt wb (2 * n + 2 * i) 2))
      let sr := r.aux = 1
      let u24 (i p : Nat) : Nat := u24Of (s.rd Reg.LSC_SEED.SEED) (s.rd Reg.LSC_DEC_STEP.STEP) m.aux i p
      let row (f p : Nat) (xs : List Num) : List Byte := mxRow f (fun i x => if sr then srRound f (u24 i p) x else mxRound f x) xs
      let ws := e.map fun x => rnd x.1
      let bad := e.any fun x => x.1.nonFinite || x.2.1.nonFinite || x.2.2.nonFinite
      let t := s.putOperand w (ws.flatMap (fun v => leBytes 2 (v / 65536)) ++ ws.flatMap (fun v => leBytes 2 v))
      let t := (t.putOperand m (row Fmt.MXINT8 0 (e.map (·.2.1)))).putOperand r (row Fmt.MXE4M3 1 (e.map (·.2.2)))
      let t := (t.countWrap (Reg.UPD_ELEMS.COUNT half) n).markDirty [w, m, r]
      let t := if bad then (t.count (Reg.UPD_NONFINITE.COUNT half) 1).raise (updPage half) 1 else t
      t.endOk o (8192 * b2n bad)

def execUpdate (a r seq : Nat) (s : State) : Result := .next (s.issueMem a r seq 0x0600 State.update)

/-! MIRROR (R733-R736). -/

def State.mirrorOf (s : State) (owner : Nat × Nat × Nat) : Option MirrorRun := s.mirrors.find? fun m => m.owner = owner
def State.setMirror (s : State) (m : MirrorRun) : State := { s with mirrors := s.mirrors.map fun x => if x.owner = m.owner then m else x }
def State.dropMirror (s : State) (owner : Nat × Nat × Nat) : State := { s with mirrors := s.mirrors.filter fun x => x.owner ≠ owner }

/-- Window offset of slot `j` of granule `g` at the neighbour. -/
def State.slotOffset (s : State) (g j : Nat) : Nat := s.rd Reg.LSC_MDST_OFF.OFFSET * granule + (2 * g + j) * granule

/-- Send the WRITE or READ_REQ of a granule. -/
def State.mirrorSend (s : State) (o : Op) (m : MirrorRun) (g : Nat) : State × MirrorRun :=
  let acct := s.rd Reg.LSC_OWNER.ACCOUNT
  let node := s.rd Reg.LSC_MDST.NODE
  let slot := ((m.items.find? fun e => e.1 = g).elim 0 (·.2.1))
  let base (kind : Nat) (body : List Byte) : FabMsg :=
    { fabMsg node (s.dataChan acct) kind acct (s.rd Reg.LSC_MDST.RACCT) body (some m.owner) with
      dstWin := s.rd Reg.LSC_MDST.RWIN, dstOffset := s.slotOffset g slot, tag := g }
  if m.restore then (s.sendMsg { base Kind.READ_REQ [] with value := granule }, { m with busy := m.busy ++ [g] })
  else
    let a := s.granuleAddr g
    let f := s.sourceFault (s.opHalf o) a granule
    let bs := s.load a granule
    let s := match f with | some e => s.noteOp o ⟨e.1, e.2.1, 15⟩ false | none => s
    let t := s.countWrap (Reg.UPD_MIRROR_BYTES.BYTES (homeHalf a)) granule
    let m := { m with items := m.items.map (fun e => if e.1 = g then (e.1, e.2.1, crc32c bs) else e), busy := m.busy ++ [g],
                      failed := match m.failed, f with | none, some e => some (e.1, e.2.1) | x, _ => x }
    (t.sendMsg { base Kind.WRITE bs with poisonAt := f.map (·.2.2) }, m)

/-- A manifest entry (R740). -/
def manifestEntry (x : Granule) : Nat := x.crc % 2 ^ 32 + x.slot % 2 * 2 ^ 32 + x.copyStep % 2 ^ 30 * 2 ^ 33 + b2n x.valid * 2 ^ 63
def granuleOf (e : Nat) : Granule := ⟨bit e 63, bits e 32 1, e % 2 ^ 32, bits e 33 30, false⟩

/-- A MIRROR with nothing in flight and nothing left to send ends. -/
def State.mirrorEnd (s : State) (o : Op) (m : MirrorRun) : State :=
  let t := s.dropMirror m.owner
  match m.failed with
  | some f => t.endOp o ⟨f.1, f.2, 15⟩ 0
  | none =>
    if m.restore then
      (t.setGrans ((List.range (m.man.length / 8)).map fun g => (g, granuleOf (fieldAt m.man (8 * g) 8)))).endOk o 0
    else
      let t := t.setGrans (m.items.map fun e => (e.1, ⟨true, e.2.1, e.2.2, m.step, false⟩))
      ({ t with mirrored := some (m.step, m.items.map (·.1)) } : State).endOk o (4096 * m.items.length)

/-- Keep at most 8 granules in flight; a MIRROR without RESTORE sends none after a failure. -/
def State.mirrorPump (s : State) (o : Op) : Nat → MirrorRun → State
  | 0, m => s.setMirror m
  | fuel + 1, m =>
    let m := if m.failed.isSome ∧ !m.restore then { m with todo := [] } else m
    if m.todo.isEmpty ∧ m.busy.isEmpty then s.mirrorEnd o m
    else if 8 ≤ m.busy.length then s.setMirror m
    else match m.todo with
      | [] => s.setMirror m
      | g :: rest =>
        let a := s.mirrorSend o { m with todo := rest } g
        a.1.mirrorPump o fuel a.2

/-- The answer about a granule: its code, INFO, and the bytes of a READ_RSP. -/
def State.mirrorAnswer (s : State) (owner : Nat × Nat × Nat) (g code info : Nat) (bytes : List Byte) : State :=
  match s.mirrorOf owner, s.opAt owner.1 owner.2.1 owner.2.2 with
  | some m, some o =>
    let m := { m with busy := m.busy.filter (· ≠ g) }
    if code ≠ Code.OK then s.mirrorPump o 9 { m with failed := some (match m.failed with | some (c, i) => if c = Code.SIGNATURE then (code, info) else (c, i) | none => (code, info)) }
    else if !m.restore then s.mirrorPump o 9 m
    else
      let e := fieldAt m.man (8 * g) 8
      if crc32c bytes ≠ e % 2 ^ 32 then
        s.mirrorPump o 9 { m with failed := some (match m.failed with
          | some (c, i) => if c = Code.SIGNATURE then (c, min i g) else (c, i)
          | none => (Code.SIGNATURE, g)) }
      else
        let a := s.granuleAddr g
        match s.extentFault (s.opHalf o) ⟨⟨a, granule, Fmt.RAW, 0, 0⟩, false, true⟩ with
        | some f => (s.noteOp o ⟨f.1, f.2, 15⟩ true).mirrorPump o 9 { m with failed := some (m.failed.getD f) }
        | none => (s.writeExtent a bytes).mirrorPump o 9 m
  | _, _ => s

def State.mirrorPending (s : State) : Bool := s.commits.any (·.mirrored)

def State.mirror (s : State) (o : Op) : State :=
  let step := descAt o.desc 0x50 8
  let full := bit (descAt o.desc 0x58 1) 1
  if s.on Reg.LSC_DEC.BEHIND then s.endCode o Code.ROSTER
  else if !s.on Reg.LSC_MDST.VALID ∨ s.mirrorPending ∨ s.mirrored.isSome then s.endCode o Code.LIMIT
  else if step ≠ s.rd Reg.LSC_DEC_STEP.STEP then s.endCode o Code.EPOCH
  else
    let c := (List.range s.granuleCount).filter fun g => full || (s.gran g).dirty || !(s.gran g).valid || s.granuleAlways g
    let items := c.map fun g => (g, if (s.gran g).valid then 1 - (s.gran g).slot else 0, 0)
    let m : MirrorRun := ⟨o.key, false, step, items, c, [], none, []⟩
    ({ s with mirrors := s.mirrors ++ [m] } : State).mirrorPump o 9 m

def State.mirrorRestore (s : State) (o : Op) : State :=
  let man := operandAt o.desc 0x40
  if !s.commits.isEmpty ∨ !s.mirrors.isEmpty then s.endCode o Code.LIMIT
  else match s.usesFault (s.opHalf o) [⟨man, true, false⟩] with
  | some f => (s.noteOp o f false).endOp o f 0
  | none =>
    let bs := s.operandBytes man
    if crc32c bs ≠ descAt o.desc 0x5C 4 then s.endCode o Code.SIGNATURE
    else
      let gs := (List.range (bs.length / 8)).filter fun g => bit (fieldAt bs (8 * g) 8) 63
      let m : MirrorRun := ⟨o.key, true, 0, gs.map (fun g => (g, bits (fieldAt bs (8 * g) 8) 32 1, 0)), gs, [], none, bs⟩
      ({ s with mirrors := s.mirrors ++ [m] } : State).mirrorPump o 9 m

/-- A MIRROR op issues only under the row of its form. -/
def State.mirrorOp (s : State) (a r seq : Nat) (restore : Bool) (run : State → Op → State) : State :=
  match s.opAt a r seq with
  | some o => if bit (descAt o.desc 0x58 1) 0 = restore then s.issueMem a r seq 0x0602 run else s
  | none => s

def execMirror (a r seq : Nat) (s : State) : Result := .next (s.mirrorOp a r seq false State.mirror)
def execMirrorRestore (a r seq : Nat) (s : State) : Result := .next (s.mirrorOp a r seq true State.mirrorRestore)

/-! COMMIT and the step ledger (R738-R741). -/

/-- Bring LSC_LEDGER_STA up to date. -/
def State.refreshLedger (s : State) : State :=
  (s.wr Reg.LSC_LEDGER_STA.QUEUED s.commits.length).wrb Reg.LSC_LEDGER_STA.MIRROR_PENDING s.mirrorPending

def State.commitOp (s : State) (o : Op) : State :=
  let d := o.desc
  let step := descAt d 0x50 8
  let mirrored := bit (descAt d 0x58 1) 0
  let dec := s.rd Reg.LSC_DEC.DECISION
  let ro := operandAt d 0x40
  if s.on Reg.LSC_DEC.BEHIND then s.endCode o Code.ROSTER
  else if step ≠ s.rd Reg.LSC_DEC_STEP.STEP ∨ dec = 0 ∨ dec = Decision.EXCLUDED then s.endCode o Code.EPOCH
  else if s.lastCommit.any fun c => decide (step ≤ c) then s.endCode o Code.DUPLICATE
  else if mirrored ≠ s.mirrored.any (fun m => m.1 = step) then s.endCode o Code.LIMIT
  else if 4 ≤ s.commits.length then s.endCode o Code.LIMIT
  else match s.usesFault (s.opHalf o) [⟨ro, true, false⟩] with
  | some f => (s.noteOp o f false).endOp o f 0
  | none =>
    let copied := if mirrored then (s.mirrored.map (·.2)).getD [] else []
    let c : Commit := ⟨step, mirrored, descAt d 0x60 8, s.operandBytes ro, copied, s.rd Reg.LSC_K.K % 256, s.rd Reg.LSC_RUN.RUN, dec,
      s.rd Reg.LSC_DEC.ROSTER_COUNT, s.rd Reg.LSC_ROSTER_HASH.HASH, s.rd Reg.LSC_GNORM.GN, s.rd Reg.LSC_CLIP.CLIP,
      s.rd Reg.LSC_SEED.SEED, copied.map fun g => (g, manifestEntry (s.gran g))⟩
    (({ s with commits := s.commits ++ [c], mirrored := none, lastCommit := some step } : State).refreshLedger).endOk o 0

def execCommit (a r seq : Nat) (s : State) : Result := .next (s.issueMem a r seq 0x0603 State.commitOp)

/-- Vault offset of the step ledger's body. -/
def ledgerBody : Nat := ledgerRegion.base + 0x40
/-- Body offset and size of the ledger ring. -/
def ledgerRing : Nat := 0x80000
def ledgerRingSize : Nat := 0x100000

/-- A ledger entry (R741) with number `seq`. -/
def State.ledgerEntry (s : State) (c : Commit) (safe : Bool) (sel seq : Nat) : List Byte :=
  let g := s.granuleCount
  let bs := leBytes 8 c.step ++ leBytes 8 s.now ++ leBytes 8 (cfOf c.k) ++ leBytes 4 c.run ++ leBytes 1 c.decision
    ++ leBytes 1 (b2n c.mirrored + 2 * b2n (!safe) + 4 * sel + 8 * b2n (!c.bitmap.isEmpty)) ++ leBytes 1 (if c.bitmap.isEmpty then 0xFF else seq % 63)
    ++ zeros 1 ++ leBytes 4 c.rosterCount ++ leBytes 4 c.rosterHash ++ leBytes 4 c.gnorm ++ leBytes 4 c.clip ++ leBytes 8 c.seed
    ++ leBytes 4 g ++ leBytes 4 (crc32c (bytesAt s.vault.sram (ledgerBody + sel * 0x40000) (8 * g))) ++ leBytes 2 (s.rd Reg.LSC_MDST.NODE) ++ zeros 2
    ++ leBytes 4 c.copied.length ++ leBytes 8 c.user ++ zeros 168 ++ leBytes 4 seq
  bs ++ leBytes 4 (crc32c bs)

/-- SVC writes a queued commit into the step ledger (R739). -/
def State.writeCommit (s : State) (c : Commit) : State :=
  let r := ledgerRegion
  let t := s.readyHeader r
  let sel := t.rd Reg.LSC_LEDGER_STA.SEL
  let t := if !c.mirrored then t else
    let other := 1 - sel
    let t := t.vaultWrite (ledgerBody + other * 0x40000) (bytesAt t.vault.sram (ledgerBody + sel * 0x40000) 0x40000)
    let t := c.entries.foldl (fun t e => t.vaultWrite (ledgerBody + other * 0x40000 + 8 * e.1) (leBytes 8 e.2)) t
    t.wr Reg.LSC_LEDGER_STA.SEL other
  let sel := t.rd Reg.LSC_LEDGER_STA.SEL
  let head := max ledgerRing (t.ptr r 0x10)
  let tail := max ledgerRing (t.ptr r 0x18)
  let wraps := t.ptr r 0x20
  let step (o : Nat) : Nat := if o + 256 = ledgerRing + ledgerRingSize then ledgerRing else o + 256
  let seq := wraps * 4096 + (head - ledgerRing) / 256
  let t := if c.bitmap.isEmpty then t else t.vaultWrite (ledgerBody + 0x180000 + seq % 63 * 8192) c.bitmap
  let t := if head = tail ∧ 0 < wraps then t.setPtr r 0x18 (step tail) else t
  let safe := t.on Reg.VLT_STA.ARMED
  let t := t.vaultWrite (ledgerBody + head) (t.ledgerEntry c safe sel seq)
  let t := t.setPtr r 0x10 (step head)
  let t := if step head = ledgerRing then t.setPtr r 0x20 (wraps + 1) else t
  let t := ((({ t with commits := t.commits.drop 1 } : State).refreshLedger).wr Reg.LSC_DURABLE_STEP.STEP c.step).raise lscPage 2
  if safe then t else (t.requestStore 3 [.commit]).1

def execCommitWrite (s : State) : Result :=
  .next (match s.commits with
    | c :: _ => if s.svcUp then s.writeCommit c else s
    | [] => s)

end Sys2Proof.Machine
end

