-- ==== Sys2Proof/Machine/Fabric.lean ====
section
/-!
DEFINITION. The commands of the Dunist fabric: ports, mesh verification, the transport, the ends of messages and requests, and global time
(R581-R617).
-/
namespace Sys2Proof.Machine

/-! Frames that a port sends beside DATA packets (the `kind` of `Out.frame`). -/
abbrev Frame.ACK : Nat := 1
abbrev Frame.NACK : Nat := 2
abbrev Frame.HELLO : Nat := 3
abbrev Frame.TRAIN : Nat := 4
abbrev Frame.SYNC : Nat := 5
abbrev Frame.PDELAY : Nat := 6

/-- CAUSE of FPT_STA. -/
abbrev PortCause.NO_SIGNAL : Nat := 1
abbrev PortCause.TRAIN_FAIL : Nat := 2
abbrev PortCause.LANE_ERRORS : Nat := 3
abbrev PortCause.NO_HELLO : Nat := 4
abbrev PortCause.WRONG_PEER : Nat := 5
abbrev PortCause.SYSTEM_MISMATCH : Nat := 6
abbrev PortCause.LOOPBACK : Nat := 7

def fptPage (p : Nat) : Nat := 0x240 + p

def State.sendFrame (s : State) (p kind a b : Nat) : State :=
  (s.emit (.frame p kind a b)).countWrap (Reg.FPT_TX_FRAMES.COUNT p) 1

/-! A message or request fails (R590, R613). -/

/-- The op that waits for a message learns that it failed: fabric transfers complete, a run of an ATTEND or a granule of a MIRROR is answered,
a collective step ends for its roster. -/
def State.failOwner (s : State) (owner : Nat × Nat × Nat) (tag code info retx : Nat) : State :=
  match s.opAt owner.1 owner.2.1 owner.2.2 with
  | none => s
  | some o =>
    if o.opcode = 0x0300 then s.endOp o ⟨code, info, 15⟩ (fabDetail retx false)
    else if o.opcode = 0x0301 then (s.scribbleOutputs o).endOp o ⟨code, info, 15⟩ (fabDetail retx false)
    else if o.opcode = 0x0203 then s.answerRun owner tag ⟨code, info, []⟩
    else if o.opcode = 0x0602 then s.mirrorAnswer owner tag code info []
    else match s.steps.find? fun st => st.owner = owner with
      | some st => s.collFail st code tag
      | none => s

/-- Messages leave their queue unsent: LINK_NOT_READY. -/
def State.failQueued (s : State) (which : FabMsg → Bool) : State :=
  let l := s.txStreams.flatMap fun e => e.2.msgs.filter fun m => !m.granted && which m
  let t := { s with txStreams := s.txStreams.map fun (e : Nat × TxStream) => (e.1, { e.2 with msgs := e.2.msgs.filter fun m => m.granted || !which m }) }
  let t := l.foldl (fun t m =>
    let t := if m.port < 18 then (t.count (Reg.FPT_HELD.FAILED m.port) 1).raise (fptPage m.port) 4 else t
    match m.owner with
    | some o => t.failOwner o m.tag Code.LINK_NOT_READY (peerInfo m.dst m.port) m.retx
    | none => t) t
  t.refreshHeld

/-- XPT_REQ_TIMEOUT in nanoseconds. -/
def State.reqTimeout (s : State) : Nat := s.rd Reg.XPT_REQ_TIMEOUT.UNITS * 10000

/-- The collective timeout of a queued COLL message. -/
def State.collDeadline (s : State) (m : FabMsg) : Option Nat :=
  match m.owner with
  | some o => (s.steps.find? fun st => st.owner = o).map fun st => m.entered + st.ver.timeout * 1000000
  | none => none

/-- The hold limit of a queued message (R590). -/
def State.holdUntil (s : State) (m : FabMsg) : Nat :=
  let wait := m.entered + s.rd (Reg.FPT_LINK_WAIT.MS m.port) * 1000000
  if m.kind = Kind.WRITE ∨ m.kind = Kind.READ_REQ ∨ m.kind = Kind.PART_REQ then min wait (m.entered + s.reqTimeout)
  else match s.collDeadline m with
    | some d => min wait d
    | none => wait

/-! Port states (R584-R589). -/

/-- Every stream whose messages use a port goes on sending. -/
def State.pumpPort (s : State) (p : Nat) : State :=
  (s.txStreams.filter fun e => e.2.msgs.any fun m => m.port = p).foldl (fun t e => t.pumpStream (e.1 / 8) (e.1 % 8)) s

/-- A port enters a state with a cause; messages queued on it fail in DISABLED and MISWIRED. -/
def State.portGo (s : State) (p st cause : Nat) : State :=
  if s.portSt p = st then s
  else
    let t := ((s.wr (Reg.FPT_STA.STATE p) st).wr (Reg.FPT_STA.CAUSE p) cause).wrb (Reg.STA.READY (fptPage p)) (st = PortSt.UP)
    let t := t.raise (fptPage p) 0
    let t := if st = PortSt.DOWN then (t.setFport p { t.fport p with downAt := t.uptime }).raise (fptPage p) 3 else t
    let t := if st = PortSt.MISWIRED then t.raise (fptPage p) 2 else t
    let t := if st = PortSt.DOWN ∨ st = PortSt.DISABLED ∨ st = PortSt.TRAINING then t.wr (Reg.FPT_STA.WIDTH p) 3 else t
    if st = PortSt.DISABLED ∨ st = PortSt.MISWIRED then t.failQueued fun m => m.port = p
    else if st = PortSt.UP then (t.refreshHeld).pumpPort p
    else t.refreshHeld

/-- A port trains at a width (0 four lanes, 1 two, 2 one). -/
def State.trainAt (s : State) (p width : Nat) : State :=
  let t := s.setFport p { s.fport p with width := width, selfOk := false }
  (((t.wrb (Reg.FPT_PEER.VALID p) false).count (Reg.FPT_TRAIN_CNT.TRAININGS p) 1).portGo p PortSt.TRAINING 0).sendFrame p Frame.TRAIN width 0

/-- Training at MAX_WIDTH with every enabled lane tried again. -/
def State.trainMax (s : State) (p : Nat) : State :=
  (s.setFport p { s.fport p with failed := 0 }).trainAt p (s.rd (Reg.FPT_CFG.MAX_WIDTH p))

/-- The first lane set of a width within a mask. -/
def laneSetIn (width mask : Nat) : Option Nat := (laneSets width).find? fun l => l &&& mask = l

/-- Lanes that a port may use. -/
def State.lanesFree (s : State) (p : Nat) : Nat := s.rd (Reg.FPT_CFG.LANE_EN p) &&& (15 - (s.fport p).failed % 16)

def State.present (s : State) (p : Nat) : Bool := s.portPresent p && s.computeOn

/-- A write of a port's page: of an absent port, R38 and R56 say what it does. -/
def State.portWrite (s : State) (req : Req) (p : Nat) (run : State → State) : State :=
  if !s.direct req ∨ 18 ≤ p then s
  else if !s.portPresent p then s.absentWrite (fptPage p)
  else run s

def execPortEnable (req : Req) (p : Nat) (s : State) : Result :=
  .next (s.portWrite req p fun s =>
    if s.resetting (fptPage p) then s
    else
      let t := s.wrb (Reg.CTL.ENABLE (fptPage p)) true
      if t.portSt p = PortSt.DISABLED ∧ s.computeOn then t.trainMax p else t)

def execPortDisable (req : Req) (p : Nat) (s : State) : Result :=
  .next (s.portWrite req p fun s =>
    if s.resetting (fptPage p) then s else (s.wrb (Reg.CTL.ENABLE (fptPage p)) false).portGo p PortSt.DISABLED 0)

def execPortRetrain (req : Req) (p : Nat) (s : State) : Result :=
  .next (s.portWrite req p fun s => if s.computeOn ∧ s.portSt p ≠ PortSt.DISABLED then s.trainMax p else s)

/-- FAB is halted or restarting: the bring-up of links waits, and trained links go on (R305). -/
def State.bringUpWaits (s : State) : Bool :=
  s.clerkSt 3 = ClerkSt.HALTED || s.clerkSt 3 = ClerkSt.RESTARTING || s.clerkSt 3 = ClerkSt.FAILED

/-- An attempt at the port's width ends with the lanes that trained: the port goes on, falls to the next width, or goes DOWN, with NO_SIGNAL
where no lane trains (R629). -/
def State.trainingDone (s : State) (p laneOk inverted : Nat) : State :=
  let w := (s.fport p).width
  let ok := laneOk % 16 &&& s.lanesFree p
  match laneSetIn w ok with
  | some set =>
    let t := ((s.wr (Reg.FPT_STA.LANE_OK p) set).wr (Reg.FPT_STA.INVERTED p) (inverted % 16 &&& set))
    let t := if s.isMesh p then (t.setFport p { t.fport p with selfOk := false, heard := t.uptime }).portGo p PortSt.VERIFY 0
      else if s.isUplink p then t.portGo p PortSt.UP 0
      else t.portGo p PortSt.DISABLED 0
    if s.isMesh p ∨ s.isUplink p then t.wr (Reg.FPT_STA.WIDTH p) w else t
  | none =>
    let t := (s.wr (Reg.FPT_STA.LANE_OK p) ok).setFport p { s.fport p with failed := (s.fport p).failed % 16 ||| (15 - laneOk % 16) }
    if w < 2 then t.trainAt p (w + 1)
    else t.portGo p PortSt.DOWN (if laneOk % 16 &&& s.rd (Reg.FPT_CFG.LANE_EN p) = 0 then PortCause.NO_SIGNAL else PortCause.TRAIN_FAIL)

def execTrainingDone (p laneOk inverted : Nat) (s : State) : Result :=
  .next (if s.present p ∧ s.portSt p = PortSt.TRAINING ∧ !s.bringUpWaits then s.trainingDone p laneOk inverted else s)

def execTrainingTimeout (p : Nat) (noSignal : Bool) (s : State) : Result :=
  .next (if s.present p ∧ s.portSt p = PortSt.TRAINING ∧ !s.bringUpWaits then
      s.portGo p PortSt.DOWN (if noSignal then PortCause.NO_SIGNAL else PortCause.TRAIN_FAIL) else s)

/-- Lanes of an UP or ADAPTING port fail (R586): the next lower width that avoids every failed lane, or DOWN. -/
def State.laneFail (s : State) (p lanes : Nat) : State :=
  let f := s.fport p
  let t := s.setFport p { f with failed := f.failed % 16 ||| lanes % 16 }
  if lanes % 16 &&& s.rd (Reg.FPT_STA.LANE_OK p) = 0 then t
  else match [1, 2].find? fun w => f.width < w && (laneSetIn w (t.lanesFree p)).isSome with
    | some w => ((t.count (Reg.FPT_TRAIN_CNT.DEGRADES p) 1).raise (fptPage p) 1).trainAt p w
    | none => t.portGo p PortSt.DOWN PortCause.LANE_ERRORS

def execLaneFail (p lanes : Nat) (s : State) : Result :=
  .next (if s.present p ∧ (s.portSt p = PortSt.UP ∨ s.portSt p = PortSt.ADAPTING) then s.laneFail p lanes else s)

/-- The checks of R588 in order: the CAUSE of the first that fails, 0 when all pass. -/
def State.helloCause (s : State) (p : Nat) (h : Hello) : Nat :=
  if h.system ≠ s.rd Reg.XPT_SYSTEM.SYSTEM then PortCause.SYSTEM_MISMATCH
  else if h.srcNode = s.node then PortCause.LOOPBACK
  else if !s.inPod h.srcNode ∨ s.meshPort (h.srcNode % 16) ≠ p then PortCause.WRONG_PEER else 0

def State.hello (s : State) (p : Nat) (h : Hello) : State :=
  let s := (s.setFport p { s.fport p with heard := s.uptime }).countWrap (Reg.FPT_RX_FRAMES.COUNT p) 1
  let c := s.helloCause p h
  if s.portSt p = PortSt.VERIFY then
    if c ≠ 0 then s.portGo p PortSt.MISWIRED c
    else
      let t := if (s.fport p).selfOk then s else (s.setFport p { s.fport p with selfOk := true }).sendFrame p Frame.HELLO 1 0
      if h.accepted then
        (((t.wr (Reg.FPT_PEER.NODE p) h.srcNode).wr (Reg.FPT_PEER.PORT p) h.port).wrb (Reg.FPT_PEER.VALID p) true).portGo p PortSt.UP 0
      else t
  else if s.portSt p = PortSt.UP then
    if c ≠ 0 then s.portGo p PortSt.MISWIRED c
    else if h.srcNode ≠ s.rd (Reg.FPT_PEER.NODE p) ∨ h.port ≠ s.rd (Reg.FPT_PEER.PORT p) then s.portGo p PortSt.MISWIRED PortCause.WRONG_PEER
    else s
  else s

def execFabricHello (p : Nat) (h : Hello) (s : State) : Result :=
  .next (if s.present p ∧ s.isMesh p ∧ PortSt.VERIFY ≤ s.portSt p ∧ s.portSt p ≠ PortSt.DOWN ∧ !(s.portSt p = PortSt.VERIFY ∧ s.bringUpWaits)
    then s.hello p h else s)

/-- A mesh port sends its HELLO: ACCEPTED once its own check passes, 0 while MISWIRED. -/
def execHelloTimer (p : Nat) (s : State) : Result :=
  .next (
    let st := s.portSt p
    if s.present p ∧ s.isMesh p ∧ (st = PortSt.VERIFY ∨ st = PortSt.UP ∨ st = PortSt.MISWIRED) then
      s.sendFrame p Frame.HELLO (b2n ((s.fport p).selfOk && st ≠ PortSt.MISWIRED)) 0
    else s)

def execHelloTimeout (p : Nat) (s : State) : Result :=
  .next (
    if s.present p ∧ s.isMesh p ∧ ((s.portSt p = PortSt.VERIFY ∧ !s.bringUpWaits) ∨ s.portSt p = PortSt.UP) ∧ (s.fport p).heard + 1000000000 ≤ s.uptime then
      s.portGo p PortSt.MISWIRED PortCause.NO_HELLO
    else s)

def execAdaptStart (p : Nat) (s : State) : Result := .next (if s.present p ∧ s.portSt p = PortSt.UP then s.portGo p PortSt.ADAPTING 0 else s)
def execAdaptDone (p : Nat) (s : State) : Result := .next (if s.present p ∧ s.portSt p = PortSt.ADAPTING then s.portGo p PortSt.UP 0 else s)

def execDownRetry (p : Nat) (s : State) : Result :=
  .next (if s.present p ∧ s.portSt p = PortSt.DOWN ∧ (s.fport p).downAt + 1000000000 ≤ s.uptime then s.trainMax p else s)

def execSignalDetect (p : Nat) (s : State) : Result := .next (if s.present p ∧ s.portSt p = PortSt.DOWN then s.trainMax p else s)

def execPartnerRetrain (p : Nat) (s : State) : Result :=
  .next (
    let st := s.portSt p
    if s.present p ∧ (st = PortSt.VERIFY ∨ st = PortSt.UP ∨ st = PortSt.ADAPTING ∨ st = PortSt.MISWIRED) then s.trainMax p else s)

def execLossOfSignal (p : Nat) (s : State) : Result :=
  .next (
    if !s.present p then s
    else if s.portSt p = PortSt.UP then s.portGo p PortSt.DOWN PortCause.NO_SIGNAL
    else if s.portSt p = PortSt.MISWIRED then s.trainMax p
    else s)

/-- Messages held on a port that is not UP fail at their limit (R590), and those that a failed die link keeps from it (R59). -/
def execLinkWaitExpiry (p : Nat) (s : State) : Result :=
  .next (if s.present p then s.failQueued fun m => m.port = p && (s.linkCuts m.half p || (!s.portUp p && decide (s.holdUntil m ≤ s.uptime))) else s)

def execFabricGrant (p : Nat) (s : State) : Result :=
  .next (if s.present p ∧ s.portUp p then (match s.nextGrant p with | some m => s.grant m | none => s) else s)

/-! Receiving packets (R597-R602). -/

def State.rx (s : State) (node chan : Nat) : RxStream := tblGet default s.rxStreams (streamKey node chan)
def State.setRx (s : State) (node chan : Nat) (x : RxStream) : State := { s with rxStreams := tblSet default s.rxStreams (streamKey node chan) x }

def State.sendAck (s : State) (p node chan : Nat) : State :=
  (s.setRx node chan { s.rx node chan with unacked := 0 }).sendFrame p Frame.ACK (streamKey node chan) (s.rx node chan).expect

/-- A NACK, at most once per 10 µs per stream. -/
def State.sendNack (s : State) (p node chan seq : Nat) : State :=
  if (s.rx node chan).nackAt.any fun t => decide (s.uptime < t + 10000) then s
  else (s.setRx node chan { s.rx node chan with nackAt := some s.uptime }).sendFrame p Frame.NACK (streamKey node chan) seq

/-- The first check of R597 that a packet fails drops it. -/
def State.packetDropped (s : State) (p : Nat) (k : Packet) : Bool :=
  !k.fcsOk || !k.etherOk || k.system ≠ s.rd Reg.XPT_SYSTEM.SYSTEM || k.dstNode ≠ s.node
    || (if s.isMesh p then k.srcNode ≠ s.rd (Reg.FPT_PEER.NODE p) || k.plane ≠ 3 else s.uplinkPort k.plane ≠ p || decide (3 ≤ k.plane))
    || !k.e2eOk || !k.resvOk

/-- A COLL message's group and size find the early-arrival buffer full: the packet is not taken (R667). -/
def State.packetHeldOut (s : State) (k : Packet) : Bool :=
  k.kind = Kind.COLL && k.first &&
    decide (0x800000 < s.earlyBytes (fieldAt k.payload 0 2 % 2) (fieldAt k.payload 3 1 = 3) + k.msgLen)

/-- The message that a packet belongs to. -/
def packetOf (k : Packet) (m : RxMsg) : Bool := m.src = k.srcNode && m.chan = k.chan && m.first = k.msgSeq && !m.complete

/-- The message that an accepted packet belongs to, checked at its first packet. -/
def State.packetMsg (s : State) (k : Packet) : Option RxMsg :=
  let fresh : RxMsg := ⟨k.srcNode, k.chan, k.msgSeq, k.msgLen, k.kind, k.srcAcct, k.dstAcct, k.dstWin, k.status % 256, k.dstOffset, k.rtally, k.reqSeq,
    k.value, [], 0, false, false⟩
  if k.first then some { fresh with code := s.firstCode fresh } else s.inbox.find? (packetOf k)

/-- A packet of a WRITE to the half that its port does not lie in waits for a retrain of the die link (R30). -/
def State.packetWaits (s : State) (p : Nat) (k : Packet) : Bool :=
  s.dlkHeld && (s.packetMsg k).any fun m =>
    m.kind = Kind.WRITE && m.code = Code.OK && portFar (some (homeHalf (s.windowAddr m.dstAcct m.dstWin (m.dstOffset + k.offset)))) p

/-- An accepted packet enters its message; the engines' own messages leave the transport when they are whole. -/
def State.packetIn (s : State) (p : Nat) (k : Packet) : State :=
  match s.packetMsg k with
  | none => s
  | some m =>
    let a := s.takeBytes p m k.offset k.payload k.poison
    let m := { a.2 with complete := k.last }
    let rest := a.1.inbox.filter fun x => !packetOf k x
    let engine := m.kind = Kind.PART_REQ || m.kind = Kind.PART_RSP || m.kind = Kind.COLL
    { a.1 with inbox := if k.last && engine then rest else rest ++ [m] }

/-- A packet of a known session by its SEQ (R599, R600). -/
def State.packetSeq (s : State) (p : Nat) (k : Packet) : State :=
  let x := s.rx k.srcNode k.chan
  if k.seq = x.expect then
    if s.packetHeldOut k ∨ s.packetWaits p k then s
    else
      let t := (s.packetIn p k).setRx k.srcNode k.chan { x with expect := (x.expect + 1) % 2 ^ 32, unacked := x.unacked + 1 }
      if k.last ∨ 16 ≤ x.unacked + 1 then t.sendAck p k.srcNode k.chan else t
  else if seqDist k.seq x.expect ≤ 65536 then (s.count Reg.XPT_DUP.COUNT 1).sendAck p k.srcNode k.chan
  else s.sendNack p k.srcNode k.chan x.expect

/-- Partial messages and streams of a node's old session go. -/
def State.dropSession (s : State) (node : Nat) : State := { s with inbox := s.inbox.filter fun m => m.src ≠ node || m.complete }

/-- A node starts a new session (R602, R662). -/
def State.startSession (s : State) (node session : Nat) : State :=
  let old := tblGet 0 s.sessions node
  let t := { s with sessions := tblSet 0 s.sessions node session, rxStreams := s.rxStreams.filter fun e => e.1 / 8 ≠ node }
  if old = 0 then t else (t.raise 0x260 2).peerRestarted node

def State.packet (s : State) (p : Nat) (k : Packet) : State :=
  let s := s.countWrap (Reg.FPT_RX_FRAMES.COUNT p) 1
  if s.packetDropped p k then
    let t := s.count Reg.XPT_DROPPED.COUNT 1
    if k.fcsOk then t else t.count (Reg.FPT_FCS_ERR.COUNT p) 1
  else if tblGet 0 s.sessions k.srcNode = k.session then s.packetSeq p k
  else
    let t := s.dropSession k.srcNode
    if k.seq = 0 ∧ k.first then (t.startSession k.srcNode k.session).packetSeq p k
    else t.sendNack p k.srcNode k.chan 0

def execFabricData (p : Nat) (pk : Packet) (s : State) : Result :=
  .next (if s.present p ∧ (s.portSt p = PortSt.UP ∨ s.portSt p = PortSt.ADAPTING) ∧ pk.chan < 7 then s.packet p pk else s)

def execFabricAck (srcNode chan seq : Nat) (s : State) : Result :=
  .next (if s.computeOn then s.advanceTx srcNode chan seq else s)

def execFabricNack (srcNode chan seq : Nat) (s : State) : Result :=
  .next (if s.computeOn then (s.advanceTx srcNode chan seq).resend srcNode chan else s)

def execAckTimer (srcNode chan : Nat) (s : State) : Result :=
  .next (if s.computeOn ∧ 0 < (s.rx srcNode chan).unacked then s.sendAck (s.routePort srcNode chan) srcNode chan else s)

def execRtoExpiry (dstNode chan : Nat) (s : State) : Result := .next (if s.computeOn then s.resend dstNode chan else s)

/-! Priority flow control (R605). -/

def State.setPaused (s : State) (p prio : Nat) (b : Bool) : State :=
  let t := s.setFport p { s.fport p with paused := setBit (s.fport p).paused prio b }
  if b then t else t.pumpPort p

def execPfcPause (p prio quanta : Nat) (s : State) : Result :=
  .next (
    if s.present p ∧ prio < 8 ∧ bit (s.rd (Reg.FPT_PFC.PRIO_EN p)) prio then
      if quanta = 0 then s.setPaused p prio false else (s.count (Reg.FPT_PFC_CNT.RX p) 1).setPaused p prio true
    else s)

def execPfcPauseExpiry (p prio : Nat) (s : State) : Result := .next (if s.present p ∧ prio < 8 then s.setPaused p prio false else s)

/-! Whole messages at the target (R607-R611). -/

/-- A whole message of a kind from a node, taken out of the transport. -/
def State.takeMsg (s : State) (kind src first : Nat) : Option (RxMsg × State) :=
  (s.inbox.find? fun m => m.complete && m.kind = kind && m.src = src && m.first = first).map fun m =>
    (m, { s with inbox := s.inbox.filter fun x => !(x.complete && x.kind = kind && x.src = src && x.first = first) })

/-- A whole WRITE: RTALLY once every byte is written, then WRITE_DONE. -/
def State.writeWhole (s : State) (m : RxMsg) : State :=
  if m.code ≠ Code.OK then
    s.answerMsg m Kind.WRITE_DONE m.code (if m.code = Code.POISON ∨ m.code = Code.UNCORRECTABLE then m.value else 0) [] none none
  else if m.poison then s.answerMsg m Kind.WRITE_DONE Code.POISON 0 [] none none
  else
    let t := if bit m.rtally 31 then s.addTally (m.rtally % 2 ^ 18) m.value else s
    t.answerMsg m Kind.WRITE_DONE Code.OK 0 [] none none

def execWrite (srcNode msgSeq : Nat) (s : State) : Result :=
  .next (if s.computeOn then (match s.takeMsg Kind.WRITE srcNode msgSeq with | some (m, t) => t.writeWhole m | none => s) else s)

/-- A whole READ_REQ: one READ_RSP with the extent, poisoned from the first failing line onward. -/
def State.readWhole (s : State) (m : RxMsg) : State :=
  let a := s.windowAddr m.dstAcct m.dstWin m.dstOffset
  let half := some (homeHalf a)
  if m.code ≠ Code.OK then s.answerMsg m Kind.READ_RSP m.code 0 [] none none
  else if s.linkCuts half (s.streamPort m.src 6) then s.answerMsg m Kind.READ_RSP Code.LINK_NOT_READY 0 [] none none
  else
    match (if m.value = 0 then none else s.readFault a m.value) with
    | none => s.answerMsg m Kind.READ_RSP Code.OK 0 (s.load a m.value) none half
    | some f =>
      let at_ := ((grains a m.value).find? fun g => s.storageFaulted g || s.poisoned g).elim 0 fun g => g - min g a
      (s.noteFault f false Source.FABRIC m.dstAcct).answerMsg m Kind.READ_RSP f.1 (s.windowOffset m.dstAcct m.dstWin f.2) (s.load a m.value) (some at_) half

/-- A retrain of the die link holds the reading of the other half (R30). -/
def State.readHeld (s : State) (m : RxMsg) : Bool :=
  s.dlkHeld && m.code = Code.OK && portFar (some (homeHalf (s.windowAddr m.dstAcct m.dstWin m.dstOffset))) (s.streamPort m.src 6)

def execReadReq (srcNode msgSeq : Nat) (s : State) : Result :=
  .next (if s.computeOn then (match s.takeMsg Kind.READ_REQ srcNode msgSeq with
    | some (m, t) => if s.readHeld m then s else t.readWhole m
    | none => s) else s)

/-- The request that a response answers; it also acknowledges the request's packets (R601, R613). -/
def State.takeRequest (s : State) (m : RxMsg) : Option (FabReq × State) :=
  (s.requests.find? fun r => r.dst = m.src && r.seq = m.reqSeq && r.owner.1 = m.dstAcct).map fun r =>
    let n := ((s.tx r.dst r.chan).msgs.find? fun x => x.granted && x.first = r.seq).elim 0 FabMsg.packets
    let t := { s with requests := s.requests.filter fun x => !(x.dst = r.dst && x.chan = r.chan && x.seq = r.seq) }
    (r, if n = 0 then t else t.advanceTx r.dst r.chan ((r.seq + n) % 2 ^ 32))

/-- A response whose request is over. -/
def State.lateResponse (s : State) : State := (s.count Reg.XPT_LATE_RSP.COUNT 1).raise 0x260 1

/-- A READ_RSP for an op: the bytes go to DST, or the failure completes it. -/
def State.readDone (s : State) (r : FabReq) (m : RxMsg) : State :=
  match s.opAt r.owner.1 r.owner.2.1 r.owner.2.2 with
  | none => s
  | some o =>
    let code := if m.status ≠ Code.OK then m.status else if m.poison then Code.POISON else Code.OK
    if o.opcode = 0x0602 then s.mirrorAnswer r.owner r.tag code m.value m.bytes
    else if s.linkCuts (some (s.opHalf o)) r.port then (s.scribbleOutputs o).endOp o ⟨Code.LINK_NOT_READY, 0, 15⟩ (fabDetail r.retx false)
    else if code ≠ Code.OK then
      (s.scribbleOutputs o).endOp o ⟨code, m.value, 15⟩ (fabDetail r.retx true)
    else
      let x := operandAt o.desc 0x40
      match s.usesFault (s.opHalf o) [⟨x, false, true⟩] with
      | some f => ((s.noteOp o f true).scribbleOutputs o).endOp o f (fabDetail r.retx false)
      | none => ((s.putOperand x m.bytes).fabLink (some (s.opHalf o)) r.port (s.opHalf o) m.bytes.length).endOk o (fabDetail r.retx false)

def execReadRsp (srcNode msgSeq : Nat) (s : State) : Result :=
  .next (
    if !s.computeOn then s
    else match s.takeMsg Kind.READ_RSP srcNode msgSeq with
      | none => s
      | some (m, t) => match t.takeRequest m with | some (r, u) => if s.rspHeld r then s else u.readDone r m | none => t.lateResponse)

/-- A WRITE_DONE for an op: a source line that failed here decides, else the peer's STATUS. -/
def State.writeEnded (s : State) (r : FabReq) (m : RxMsg) : State :=
  match s.opAt r.owner.1 r.owner.2.1 r.owner.2.2 with
  | none => s
  | some o =>
    if o.opcode = 0x0602 then s.mirrorAnswer r.owner r.tag m.status m.value []
    else if o.code ≠ Code.OK then s.endOp o ⟨o.code, o.info, 0⟩ (fabDetail r.retx false)
    else if m.status ≠ Code.OK then s.endOp o ⟨m.status, m.value, 15⟩ (fabDetail r.retx true)
    else s.endOk o (fabDetail r.retx false)

def execWriteDone (srcNode msgSeq : Nat) (s : State) : Result :=
  .next (
    if !s.computeOn then s
    else match s.takeMsg Kind.WRITE_DONE srcNode msgSeq with
      | none => s
      | some (m, t) => match t.takeRequest m with | some (r, t) => t.writeEnded r m | none => t.lateResponse)

/-- A whole CONTROL message is handed to FAB, whose firmware defines its body. -/
def execControl (srcNode msgSeq : Nat) (s : State) : Result :=
  .next (if s.clerkUp 3 then (match s.takeMsg Kind.CONTROL srcNode msgSeq with | some (_, t) => t | none => s) else s)

/-- The fabric request timeout passes for the messages of an op (R613). -/
def execFabricReqTimeout (a r seq : Nat) (s : State) : Result :=
  let key := (a, r, seq)
  let past (t : Nat) : Bool := decide (t + s.reqTimeout ≤ s.uptime)
  let timed (m : FabMsg) : Bool := m.kind = Kind.WRITE || m.kind = Kind.READ_REQ || m.kind = Kind.PART_REQ
  let t := if (s.queuedOf key).any fun m => timed m && past m.entered then s.failQueued fun m => m.owner = some key && timed m && past m.entered else s
  let late := t.requests.filter fun q => q.owner = key && past q.entered
  .next (late.foldl (fun t q =>
    let t := { t with requests := t.requests.filter fun x => !(x.owner = key && x.dst = q.dst && x.chan = q.chan && x.seq = q.seq) }
    ((t.count Reg.XPT_TIMEOUT.COUNT 1).raise 0x260 0).failOwner key q.tag Code.PEER_LOST (peerInfo q.dst q.port) q.retx) t)

/-! Global time (R614-R617). -/

abbrev Role.ROOT : Nat := 0
abbrev Role.POD_ROOT : Nat := 1
abbrev Role.MEMBER : Nat := 2

def State.role (s : State) : Nat := s.rd Reg.TSY_CFG.ROLE

/-- SYNCED, with its mirror in GLB_TIME_FRAC; an event on each change. -/
def State.setSynced (s : State) (b : Bool) : State :=
  if s.on Reg.TSY_STA.SYNCED = b then s
  else
    let t := (s.wrb Reg.TSY_STA.SYNCED b).wrb Reg.GLB_TIME_FRAC.SYNCED b
    ({ t with everSynced := t.everSynced || b, goodOffsets := if b then t.goodOffsets else 0 } : State).raise 0x261 (if b then 0 else 1)

/-- Ports on which this node is master. -/
def State.masterPort (s : State) (p : Nat) : Bool :=
  (s.role ≤ Role.POD_ROOT && s.isMesh p) || (s.role = Role.ROOT && s.uplinkPort 0 = p)

def execSyncTimer (p : Nat) (pdelay : Bool) (s : State) : Result :=
  .next (
    if !s.present p ∨ !s.portUp p then s
    else if pdelay then (if s.masterPort p ∨ s.rd Reg.TSY_SLAVE_PORT.PORT = p then s.sendFrame p Frame.PDELAY 0 0 else s)
    else if s.masterPort p then s.sendFrame p Frame.SYNC s.now 0 else s)

/-- A node that has a master. -/
def State.slaved (s : State) : Bool := s.role ≠ Role.ROOT && s.portUp (s.rd Reg.TSY_SLAVE_PORT.PORT) && s.computeOn

/-- A Sync gives an offset in units of 2^-16 ns, positive while this node is ahead of its master. -/
def State.syncOffset (s : State) (offset : Int) : State :=
  let bound := (if s.role = Role.MEMBER then 10 else 90) * 65536
  let mag := offset.natAbs
  let t := ((s.count Reg.TSY_CNT.SYNC_RX 1).wr Reg.TSY_OFFSET.OFFSET (offset % 2 ^ 48).toNat).wrb Reg.TSY_STA.HOLDOVER false
  let t := { t with goodOffsets := if mag ≤ bound then t.goodOffsets + 1 else 0 }
  let t := if 8 ≤ t.goodOffsets ∧ t.on Reg.TSY_STA.MASTER_SYNCED then t.setSynced true else t
  let t := if 2 * bound < mag then t.setSynced false else t
  let t := if 1000000 * 65536 < mag then
      ((if t.on Reg.TSY_STA.STEP_NEEDED then t else (t.wrb Reg.TSY_STA.STEP_NEEDED true).raise 0x261 2).setSynced false).wrb Reg.TSY_STA.SLEWING
        (t.on Reg.TSY_STA.SLEWING || (t.everSynced && decide (0 < offset)))
    else t
  if mag ≤ 1000 * 65536 then (t.wrb Reg.TSY_STA.STEP_NEEDED false).wrb Reg.TSY_STA.SLEWING false else t

def execSync (offset : Int) (s : State) : Result := .next (if s.slaved then s.syncOffset offset else s)

def execPdelay (delay : Nat) (s : State) : Result := .next (if s.slaved then s.wr Reg.TSY_DELAY.DELAY delay else s)

def execAnnounce (synced : Bool) (s : State) : Result :=
  .next (
    if !s.slaved then s
    else
      let t := s.wrb Reg.TSY_STA.MASTER_SYNCED synced
      if synced then t else t.setSynced false)

/-- 8 intervals without a valid Sync. -/
def execSyncMiss (s : State) : Result :=
  .next (
    if s.role = Role.ROOT then s
    else
      let t := s.count Reg.TSY_CNT.SYNC_MISS 8
      let t := if t.on Reg.TSY_STA.HOLDOVER then t else (t.wrb Reg.TSY_STA.HOLDOVER true).raise 0x261 3
      ({ t with goodOffsets := 0 } : State).setSynced false)

/-- A signed step of global time in nanoseconds. -/
def State.stepTime (s : State) (ns : Int) : State := { s with timeFine := (((s.timeFine : Int) + ns * 2 ^ 56) % 2 ^ 120).toNat }

/-- A post of some slot is ARMED. -/
def State.postArmed (s : State) : Bool := (List.range 4).any fun n => s.postSt n = PostSt.ARMED

/-- TSY_STEP: FAB only; after the node has been SYNCED only forward, and while no post is ARMED. -/
def execTsyStep (req : Req) (ns : Int) (s : State) : Result :=
  .next (
    if req ≠ .fab ∨ !s.reqLive req ∨ (s.everSynced ∧ (ns < 0 ∨ s.postArmed)) then s
    else (s.stepTime ns).wrb Reg.TSY_STA.TIME_SET true)

/-- TSY_RATE: FAB only; beyond ±500 ppm ignored. -/
def execTsyRate (req : Req) (rate : Int) (s : State) : Result :=
  .next (if req = .fab ∧ s.reqLive req ∧ rate.natAbs ≤ 549755813 then s.wr Reg.TSY_RATE.RATE (rate % 2 ^ 32).toNat else s)

end Sys2Proof.Machine
end

