-- ==== Sys2Proof/Machine/Flash.lean ====
section
/-!
DEFINITION. The SFDP space of a flash (JESD216 through JESD216F, whose tables stand outside the manual: log entry 67) and the wiring check that
rests on it (R240, R254).
-/
namespace Sys2Proof.Machine

/-! The SFDP header and its tables. -/

/-- Step 3 of R240: the signature, major revision 1, and a parameter header 0 that names the Basic Flash Parameter Table. -/
def sfdpHeaderOk (l : List Byte) : Bool :=
  fieldAt l 0 4 = 0x50444653 && fieldAt l 5 1 = 1 && fieldAt l 8 1 = 0 && fieldAt l 15 1 = 0xFF

/-- The parameter header of a table: its offset in the SFDP space, by the table's ID. -/
def sfdpTable (l : List Byte) (id : Nat) : Option Nat :=
  ((List.range (fieldAt l 6 1 + 1)).map fun i => 8 + 8 * i).find? fun h => fieldAt l h 1 + 256 * fieldAt l (h + 7) 1 = id

/-- DWORD `i`, counted from 1, of the table of a parameter header; 0 beyond its length. -/
def sfdpDword (l : List Byte) (header i : Nat) : Nat :=
  if fieldAt l (header + 3) 1 < i then 0 else fieldAt l (fieldAt l (header + 4) 3 + 4 * (i - 1)) 4

/-- DWORD `i` of the Basic Flash Parameter Table. -/
def bfpt (l : List Byte) (i : Nat) : Nat := sfdpDword l 8 i

/-- log2 of the flash size in bytes. -/
def sfdpDensity (l : List Byte) : Nat :=
  let d := bfpt l 2
  (if bit d 31 then bits d 0 31 else (d + 1).log2) - 3

/-- The table's revision as SPX_SFDP shows it: major in the high nibble. -/
def sfdpRev (l : List Byte) : Nat := fieldAt l 10 1 % 16 * 16 + fieldAt l 9 1 % 16

/-- A fast read: its code in SPX_SFDP.READ, whether the table lists it, its command, wait states and mode clocks. -/
structure FastRead where
  code : Nat
  listed : Bool
  cmd : Nat
  wait : Nat
  mode : Nat
deriving DecidableEq, Repr, Inhabited

/-- The reads of the table, the widest first (step 4 of R240). -/
def sfdpReads (l : List Byte) : List FastRead :=
  let low (w : Nat) (k : Nat) (on : Bool) : FastRead := ⟨k, on, bits w 8 8, bits w 0 5, bits w 5 3⟩
  let high (w : Nat) (k : Nat) (on : Bool) : FastRead := ⟨k, on, bits w 24 8, bits w 16 5, bits w 21 3⟩
  let d1 := bfpt l 1
  [low (bfpt l 17) 6 (bits (bfpt l 17) 8 8 ≠ 0), high (bfpt l 17) 5 (bits (bfpt l 17) 24 8 ≠ 0), low (bfpt l 3) 4 (bit d1 21),
    high (bfpt l 3) 3 (bit d1 22), high (bfpt l 4) 2 (bit d1 20), low (bfpt l 4) 1 (bit d1 16), ⟨0, true, 0x0B, 8, 0⟩]

/-- The read that the check chooses. -/
def sfdpChoice (l : List Byte) : FastRead := ((sfdpReads l).find? fun r => r.listed).getD default

/-- Step 4 of R240: the table has its first nine DWORDs within what was read, a defined revision, and a command for every read it lists. -/
def sfdpTablesOk (l : List Byte) : Bool :=
  decide (9 ≤ fieldAt l 11 1) && decide (fieldAt l 12 3 + 4 * fieldAt l 11 1 ≤ l.length) && fieldAt l 10 1 = 1
    && [0, 5, 6, 7, 8, 9, 10].contains (fieldAt l 9 1)
    && ((sfdpReads l).all fun r => !r.listed || r.cmd ≠ 0)
    && (match sfdpTable l 0xFF84 with
      | some h => decide (2 ≤ fieldAt l (h + 3) 1) && decide (fieldAt l (h + 4) 3 + 4 * fieldAt l (h + 3) 1 ≤ l.length)
      | none => true)

/-- The widths of the address and data phases of a read code, as two-bit fields. -/
def readWidths (code : Nat) : Nat × Nat :=
  match code with
  | 1 => (0, 1) | 2 => (1, 1) | 3 => (0, 2) | 4 => (2, 2) | 5 => (0, 3) | 6 => (3, 3) | _ => (0, 0)

/-- The read sends mode bits: its mode clocks carry 8 bits at the address width. -/
def FastRead.modeEn (r : FastRead) : Bool := r.mode * 2 ^ (readWidths r.code).1 = 8

/-- Its dummy cycles: the wait states, and mode clocks that carry no mode byte. -/
def FastRead.dummy (r : FastRead) : Nat := if r.modeEn then r.wait else r.wait + r.mode

/-- The value of XIP_CFG that step 7 posts: ENABLE, 24-bit addressing, OMIT 0, the chosen read. -/
def FastRead.xipCfg (r : FastRead) : Nat :=
  let w := readWidths r.code
  1 + b2n r.modeEn * 8 + (4 * w.1 + 16 * w.1 + 64 * w.2) * 16 + r.dummy % 32 * 2 ^ 16 + r.cmd % 256 * 2 ^ 24

/-- The 4-byte address instruction table lists an instruction of its first DWORD. -/
def sfdpHas4 (l : List Byte) (i : Nat) : Bool :=
  match sfdpTable l 0xFF84 with | some h => bit (sfdpDword l h 1) i | none => false

/-- The erase type of 64 KiB: its number 0-3. -/
def eraseType (l : List Byte) : Option Nat :=
  (List.range 4).find? fun k => bits (bfpt l (8 + k / 2)) (16 * (k % 2)) 8 = 16

/-- The 64 KiB erase instruction of the Basic Flash Parameter Table, or of the 4-byte address instruction table. -/
def eraseInstr (l : List Byte) (four : Bool) : Option Nat :=
  match eraseType l with
  | none => none
  | some k =>
    if four then (if sfdpHas4 l (9 + k) then (sfdpTable l 0xFF84).map fun h => bits (sfdpDword l h 2) (8 * k) 8 else none)
    else some (bits (bfpt l (8 + k / 2)) (16 * (k % 2) + 8) 8)

/-! The wiring check (R240, R254). -/

/-- Steps 3 and 4 read the tables through SCK, the select, DQ0 and DQ1: the step that fails, 0 for none. -/
def flashReadStep (f : FlashCheck) : Nat :=
  if f.openLines &&& 0x303 ≠ 0 ∨ !sfdpHeaderOk f.sfdp then 3 else if !sfdpTablesOk f.sfdp then 4 else 0

/-- The DQ lines that the chosen read uses. -/
def flashLines (f : FlashCheck) : Nat :=
  let w := (readWidths (sfdpChoice f.sfdp).code).2
  if w = 0 then 3 else 2 ^ (2 ^ w) - 1

/-- The step of R240 that fails, 0 for none. -/
def wireStep (f : FlashCheck) : Nat :=
  if f.shorted % 256 ≠ 0 then 2
  else if flashReadStep f ≠ 0 then flashReadStep f
  else if (f.openLines ||| f.swapped) &&& flashLines f ≠ 0 ∨ !f.wideOk then 6 else 0

/-- The length of the run of passing delays that starts at `d`. -/
def runFrom (m : Nat) : Nat → Nat → Nat
  | 0, _ => 0
  | n + 1, d => if d < 16 ∧ bit m d then runFrom m n (d + 1) + 1 else 0

/-- The middle of the longest passing run, the lower of two middles and the first of two runs; none when no delay passes (step 5; log entry
67). -/
def midDelay (m : Nat) : Option Nat :=
  let best := ((List.range 16).map (runFrom m 16)).foldl max 0
  if best = 0 then none else ((List.range 16).find? fun d => runFrom m 16 d = best).map fun d => d + (best - 1) / 2

end Sys2Proof.Machine
end

