-- ==== Sys2Proof/Machine/Crypto.lean ====
section
/-!
DEFINITION. The two standards that R193 names and does not repeat: SHA-384 (FIPS 180-4) and the verification of ECDSA on P-384 (FIPS 186-5).
Their text stands outside the manual (log entry 66).
-/
namespace Sys2Proof.Machine

/-- A byte list as a number, byte 0 highest. -/
def beNat (l : List Byte) : Nat := l.foldl (fun n b => 256 * n + b.toNat) 0

/-- The low `n` bytes of a number, the highest first. -/
def beBytes (n v : Nat) : List Byte := (leBytes n v).reverse

/-! SHA-384. -/

/-- The 80 round constants. -/
def shaK : List DWord :=
  [0x428a2f98d728ae22, 0x7137449123ef65cd, 0xb5c0fbcfec4d3b2f, 0xe9b5dba58189dbbc, 0x3956c25bf348b538,
   0x59f111f1b605d019, 0x923f82a4af194f9b, 0xab1c5ed5da6d8118, 0xd807aa98a3030242, 0x12835b0145706fbe,
   0x243185be4ee4b28c, 0x550c7dc3d5ffb4e2, 0x72be5d74f27b896f, 0x80deb1fe3b1696b1, 0x9bdc06a725c71235,
   0xc19bf174cf692694, 0xe49b69c19ef14ad2, 0xefbe4786384f25e3, 0x0fc19dc68b8cd5b5, 0x240ca1cc77ac9c65] ++
  [0x2de92c6f592b0275, 0x4a7484aa6ea6e483, 0x5cb0a9dcbd41fbd4, 0x76f988da831153b5, 0x983e5152ee66dfab,
   0xa831c66d2db43210, 0xb00327c898fb213f, 0xbf597fc7beef0ee4, 0xc6e00bf33da88fc2, 0xd5a79147930aa725,
   0x06ca6351e003826f, 0x142929670a0e6e70, 0x27b70a8546d22ffc, 0x2e1b21385c26c926, 0x4d2c6dfc5ac42aed,
   0x53380d139d95b3df, 0x650a73548baf63de, 0x766a0abb3c77b2a8, 0x81c2c92e47edaee6, 0x92722c851482353b] ++
  [0xa2bfe8a14cf10364, 0xa81a664bbc423001, 0xc24b8b70d0f89791, 0xc76c51a30654be30, 0xd192e819d6ef5218,
   0xd69906245565a910, 0xf40e35855771202a, 0x106aa07032bbd1b8, 0x19a4c116b8d2d0c8, 0x1e376c085141ab53,
   0x2748774cdf8eeb99, 0x34b0bcb5e19b48a8, 0x391c0cb3c5c95a63, 0x4ed8aa4ae3418acb, 0x5b9cca4f7763e373,
   0x682e6ff3d6b2b8a3, 0x748f82ee5defb2fc, 0x78a5636f43172f60, 0x84c87814a1f0ab72, 0x8cc702081a6439ec] ++
  [0x90befffa23631e28, 0xa4506cebde82bde9, 0xbef9a3f7b2c67915, 0xc67178f2e372532b, 0xca273eceea26619c,
   0xd186b8c721c0c207, 0xeada7dd6cde0eb1e, 0xf57d4f7fee6ed178, 0x06f067aa72176fba, 0x0a637dc5a2c898a6,
   0x113f9804bef90dae, 0x1b710b35131c471b, 0x28db77f523047d84, 0x32caab7b40c72493, 0x3c9ebe0a15c9bebc,
   0x431d67c49c100d4c, 0x4cc5d4becb3e42b6, 0x597f299cfc657e2a, 0x5fcb6fab3ad6faec, 0x6c44198c4a475817]

/-- The eight words that the hash starts from. -/
def shaStart : List DWord :=
  [0xcbbb9d5dc1059ed8, 0x629a292a367cd507, 0x9159015a3070dd17, 0x152fecd8f70e5939, 0x67332667ffc00b31,
   0x8eb44a8768581511, 0xdb0c2e0d64f98fa7, 0x47b5481dbefa4fa4]

/-- A message with its end mark, its zero fill and its length in bits, as 128-byte blocks. -/
def shaPad (l : List Byte) : List Byte :=
  let m := l ++ [0x80]
  m ++ zeros ((240 - m.length % 128) % 128) ++ beBytes 16 (8 * l.length)

/-- One more word of the message schedule; the words are held newest first. -/
def shaSchedule (w : List DWord) : List DWord :=
  let at_ (i : Nat) : DWord := w.getD (i - 1) 0
  let x := at_ 15
  let y := at_ 2
  let s0 := x.rotateRight 1 ^^^ x.rotateRight 8 ^^^ (x >>> 7)
  let s1 := y.rotateRight 19 ^^^ y.rotateRight 61 ^^^ (y >>> 6)
  (at_ 16 + s0 + at_ 7 + s1) :: w

/-- One round on the working words a to h. -/
def shaRound (v : List DWord) (kw : DWord) : List DWord :=
  match v with
  | [a, b, c, d, e, f, g, h] =>
    let t1 := h + (e.rotateRight 14 ^^^ e.rotateRight 18 ^^^ e.rotateRight 41) + ((e &&& f) ^^^ (~~~ e &&& g)) + kw
    let t2 := (a.rotateRight 28 ^^^ a.rotateRight 34 ^^^ a.rotateRight 39) + ((a &&& b) ^^^ (a &&& c) ^^^ (b &&& c))
    [t1 + t2, a, b, c, d + t1, e, f, g]
  | _ => v

/-- One 128-byte block. -/
def shaBlock (h : List DWord) (block : List Byte) : List DWord :=
  let first := ((List.range 16).map fun i => BitVec.ofNat 64 (beNat ((block.drop (8 * i)).take 8))).reverse
  let w := (Nat.repeat shaSchedule 64 first).reverse
  List.zipWith (· + ·) h ((List.zipWith (· + ·) shaK w).foldl shaRound h)

/-- The 48 bytes of SHA-384 of a message. -/
@[irreducible] def sha384 (l : List Byte) : List Byte :=
  let m := shaPad l
  let h := (List.range (m.length / 128)).foldl (fun h i => shaBlock h ((m.drop (128 * i)).take 128)) shaStart
  (h.take 6).flatMap fun x => beBytes 8 x.toNat

/-! ECDSA on P-384. -/

/-- The prime of the field and the order of the group. -/
def p384 : Nat := 2 ^ 384 - 2 ^ 128 - 2 ^ 96 + 2 ^ 32 - 1
def n384 : Nat := 0xffffffffffffffffffffffffffffffffffffffffffffffffc7634d81f4372ddf581a0db248b0a77aecec196accc52973
/-- The coefficient b of the curve y² = x³ - 3x + b, and its base point. -/
def b384 : Nat := 0xb3312fa7e23ee7e4988e056be3f82d19181d9c6efe8141120314088f5013875ac656398d8a2ed19d2a85c8edd3ec2aef
def g384 : Nat × Nat :=
  (0xaa87ca22be8b05378eb1c71ef320ad746e1d3b628ba79b9859f741e082542a385502f25dbf55296c3a545e3872760ab7,
   0x3617de4a96262c6f5d9e98bf9292dc29f8f41dbd289a147ce9da3113b5f0b8c00a60b1ce1d7e819d7a431d7c90ea0e5f)

/-- A power modulo m, with exponents below 2^384. -/
def powMod (m b e : Nat) : Nat :=
  (List.range 384).foldl (fun a i => if bit e (383 - i) then a * a % m * b % m else a * a % m) 1

/-- The inverse modulo a prime. -/
def invMod (m x : Nat) : Nat := powMod m (x % m) (m - 2)

/-- A difference in the field. -/
def subP (a b : Nat) : Nat := (a + (p384 - b % p384)) % p384

/-! A point (X, Y, Z) of the curve has the coordinates X/Z² and Y/Z³; Z is 0 for the point at infinity alone. -/

/-- Twice a point. -/
def dblPoint (p : Nat × Nat × Nat) : Nat × Nat × Nat :=
  let (x, y, z) := p
  let yy := y * y % p384
  let b := 4 * x * yy % p384
  let m := 3 * subP x (z * z) * (x + z * z) % p384
  let x3 := subP (m * m) (2 * b)
  (x3, subP (m * subP b x3) (8 * yy * yy), 2 * y * z % p384)

/-- The sum of two points. -/
def addPoint (p q : Nat × Nat × Nat) : Nat × Nat × Nat :=
  let (x, y, z) := p
  let (x', y', z') := q
  if z = 0 then q else if z' = 0 then p
  else
    let zz := z * z % p384
    let ww := z' * z' % p384
    let u := x * ww % p384
    let s := y * ww * z' % p384
    let h := subP (x' * zz) u
    let r := subP (y' * zz * z) s
    if h = 0 then (if r = 0 then dblPoint p else (1, 1, 0))
    else
      let hh := h * h % p384
      let x3 := subP (r * r) (hh * h + 2 * u * hh)
      (x3, subP (r * subP (u * hh) x3) (s * hh * h), h * z * z' % p384)

/-- A multiple of a point. -/
def mulPoint (k : Nat) (p : Nat × Nat) : Nat × Nat × Nat :=
  (List.range 384).foldl (fun q i => let d := dblPoint q; if bit k (383 - i) then addPoint d (p.1, p.2, 1) else d) (1, 1, 0)

/-- A pair of coordinates names a point of the curve. -/
def onCurve (x y : Nat) : Bool :=
  decide (x < p384) && decide (y < p384) && (y * y + 3 * x) % p384 = (x * x * x + b384) % p384

/-- The signature (r, s) of a 48-byte digest verifies under a public key. -/
@[irreducible] def ecdsaOk (x y : Nat) (digest : List Byte) (r s : Nat) : Bool :=
  let w := invMod n384 s
  let q := addPoint (mulPoint (beNat digest * w % n384) g384) (mulPoint (r * w % n384) (x, y))
  onCurve x y && decide (1 ≤ r) && decide (r < n384) && decide (1 ≤ s) && decide (s < n384) && q.2.2 ≠ 0
    && q.1 * invMod p384 (q.2.2 * q.2.2) % p384 % n384 = r

end Sys2Proof.Machine
end

