-- ==== Sys2Proof/Machine/Image.lean ====
section
/-!
DEFINITION. The container of board and firmware images as bytes: its header and sections, the signature over it, and the contents that SEC reads
from it (R191-R196, R201, R362, R453).
-/
namespace Sys2Proof.Machine

/-- A section table entry (R192). -/
structure ImgSection where
  typ : Nat
  target : Nat
  resv : Nat
  offset : Nat
  length : Nat
  entry : Nat
deriving DecidableEq, Repr, Inhabited

/-! Header fields at their offsets (R191). -/
abbrev Img.magic (l : List Byte) : Nat := fieldAt l 0 4
abbrev Img.typ (l : List Byte) : Nat := fieldAt l 4 2
abbrev Img.hdrVer (l : List Byte) : Nat := fieldAt l 6 2
abbrev Img.totalLen (l : List Byte) : Nat := fieldAt l 8 4
abbrev Img.keySlot (l : List Byte) : Nat := fieldAt l 0xC 1
abbrev Img.count (l : List Byte) : Nat := fieldAt l 0xD 1
abbrev Img.partMask (l : List Byte) : Nat := fieldAt l 0x10 2
abbrev Img.steppingMask (l : List Byte) : Nat := fieldAt l 0x12 2
abbrev Img.version (l : List Byte) : Nat := fieldAt l 0x14 4
abbrev Img.protoMajor (l : List Byte) : Nat := fieldAt l 0x18 2
abbrev Img.protoMinor (l : List Byte) : Nat := fieldAt l 0x1A 2

/-- `n` bytes from an offset. -/
def sliceOf (l : List Byte) (o n : Nat) : List Byte := (l.drop o).take n

/-- Entry `i` of the section table. -/
def Img.entry (l : List Byte) (i : Nat) : ImgSection :=
  let o := 0x20 + 16 * i
  ⟨fieldAt l o 1, fieldAt l (o + 1) 1, fieldAt l (o + 2) 2, fieldAt l (o + 4) 4, fieldAt l (o + 8) 4, fieldAt l (o + 12) 4⟩

/-- The used entries of the section table. -/
def Img.table (l : List Byte) : List ImgSection := (List.range (Img.count l)).map (Img.entry l)

/-- The bytes of a section. -/
def Img.body (l : List Byte) (x : ImgSection) : List Byte := sliceOf l x.offset x.length

/-- Sections of a type. -/
def Img.sections (l : List Byte) (t : Nat) : List ImgSection := (Img.table l).filter fun x => x.typ = t

/-- The bytes of the first section of a type; none where the image has none. -/
def Img.content (l : List Byte) (t : Nat) : List Byte := match Img.sections l t with | x :: _ => Img.body l x | [] => []

/-- No two sections of a table overlap. -/
def sectionsApart : List ImgSection → Bool
  | [] => true
  | x :: xs => (xs.all fun y => decide (x.offset + x.length ≤ y.offset) || decide (y.offset + y.length ≤ x.offset)) && sectionsApart xs

/-- An entry that R192 accepts; ENTRY lies within a CLERK or HOOKS section and is 0 in any other. -/
def sectionOk (total : Nat) (x : ImgSection) : Bool :=
  x.resv = 0 && x.offset % 64 = 0 && decide (0x200 ≤ x.offset) && decide (1 ≤ x.length) && decide (x.offset + x.length ≤ total)
    && (if x.typ = 1 then decide (x.target ≤ 5) else x.target = 0)
    && (if x.typ = 1 ∨ x.typ = 0x13 then decide (x.entry < x.length) else x.entry = 0)

/-- Reserved fields and unused entries hold 0, and PUBKEY is an uncompressed point. -/
def Img.fixedOk (l : List Byte) : Bool :=
  fieldAt l 0xE 2 = 0 && fieldAt l 0x1C 4 = 0 && fieldAt l 0x181 31 = 0 && fieldAt l 0x120 1 = 4
    && fieldAt l (0x20 + 16 * Img.count l) (256 - 16 * Img.count l) = 0

/-- A header that R191 and R192 accept for an image type; TOTAL_LEN is the end of the last section. -/
def imgHeaderOk (l : List Byte) (typ maxLen : Nat) : Bool :=
  decide (0x200 ≤ l.length) && Img.magic l = 0x56444C48 && Img.typ l = typ && Img.hdrVer l = 1 && Img.fixedOk l
    && (decide (Img.keySlot l ≤ 2) || Img.keySlot l = 0xFF) && decide (1 ≤ Img.count l) && decide (Img.count l ≤ 16)
    && decide (Img.totalLen l ≤ maxLen) && Img.totalLen l = ((Img.table l).map fun x => x.offset + x.length).foldl max 0
    && decide (Img.partMask l < 16) && (!bit (Img.partMask l) 0 || Img.keySlot l = 0xFF)
    && (typ ≠ 1 || (Img.protoMajor l = 0 && Img.protoMinor l = 0))
    && ((Img.table l).all (sectionOk (Img.totalLen l))) && sectionsApart (Img.table l)

/-- The signed digest (R193). -/
def Img.digest (l : List Byte) : List Byte := sha384 (sliceOf l 0 0x1A0 ++ sliceOf l 0x200 (Img.totalLen l - 0x200))

/-- SHA-384 of the 97 PUBKEY bytes, as a key hash slot holds it. -/
def Img.keyHash (l : List Byte) : Nat := leNat (sha384 (sliceOf l 0x120 97))

/-- SIGNATURE verifies over the signed digest under PUBKEY (R193). -/
def Img.verifies (l : List Byte) : Bool :=
  ecdsaOk (beNat (sliceOf l 0x121 48)) (beNat (sliceOf l 0x151 48)) (Img.digest l) (beNat (sliceOf l 0x1A0 48)) (beNat (sliceOf l 0x1D0 48))

/-- SEC accepts the signature (R184, R193). -/
def State.signatureOk (s : State) (l : List Byte) : Bool :=
  (if Img.keySlot l = 0xFF then
      s.rd Reg.BOOT_STA.MODE = Mode.MANUFACTURE_TEST && s.lc = Lc.MANUFACTURE && Img.keyHash l = Config.manufacturingKey
    else s.keyUsable (Img.keySlot l) && Img.keyHash l = s.keyHash (Img.keySlot l))
    && Img.verifies l

/-- The image is built for this part and stepping. -/
def State.partOk (s : State) (l : List Byte) : Bool :=
  bit (Img.partMask l) (s.rd Reg.GLB_PART.PART_CODE) && bit (Img.steppingMask l) (s.rd Reg.GLB_PART.STEPPING / 16)

/-! Board images (R195, R196, R362). -/

/-- A rail record (R196). -/
structure RailRecord where
  channel : Nat
  resv : Nat
  cfg : Nat
  start : Nat
  stop : Nat
  scale : Nat
  uv : Nat
  ov : Nat
  vout : Nat
  pmb : Nat
deriving DecidableEq, Repr, Inhabited

/-- A rail record from its 32 bytes. -/
def railRecord (l : List Byte) : RailRecord :=
  ⟨fieldAt l 0 1, fieldAt l 1 3 + fieldAt l 0x12 2, fieldAt l 4 4, fieldAt l 8 4, fieldAt l 0xC 4, fieldAt l 0x10 2, fieldAt l 0x14 2,
    fieldAt l 0x16 2, fieldAt l 0x18 4, fieldAt l 0x1C 4⟩

/-- The rail records of a board image. -/
def Img.rails (l : List Byte) : List RailRecord :=
  let b := Img.content l 0x10
  (List.range (b.length / 32)).map fun i => railRecord (sliceOf b (32 * i) 32)

/-- The THERMAL section of a board image, if it has one. -/
def Img.thermal (l : List Byte) : Option (List Byte) := if (Img.sections l 0x11).isEmpty then none else some (Img.content l 0x11)

/-- The hooks that the hook table names: bit h for hook h (R199). -/
def Img.hooks (l : List Byte) : Nat :=
  match Img.sections l 0x13 with
  | x :: _ => maskOf (fun h => fieldAt (Img.body l x) (x.entry + 4 * h) 4 ≠ 0xFFFFFFFF) 4
  | [] => 0

/-- A THERMAL section that R362 accepts. -/
def thermalOk (l : List Byte) : Bool :=
  l.length = 128 && fieldAt l 0 2 = 1 && fieldAt l 2 2 = 0 && fieldAt l 0x12 2 = 0 && fieldAt l 0x64 28 = 0

/-- The section contents of a board image (R195, R196, R362). The hook table lies within its section (log entry 66). -/
def boardContentsOk (l : List Byte) : Bool :=
  let rails := Img.rails l
  ((Img.table l).all fun x => decide (0x10 ≤ x.typ) && decide (x.typ ≤ 0x13))
    && ([0x10, 0x11, 0x12, 0x13].all fun t => decide ((Img.sections l t).length ≤ 1))
    && ((Img.sections l 0x10).all fun x => x.length % 32 = 0 && decide (x.length ≤ 640))
    && (rails.all fun r => decide (r.channel < 20) && r.resv = 0) && distinct (rails.map (·.channel))
    && (match Img.thermal l with | some b => thermalOk b | none => true)
    && ((Img.sections l 0x12).all fun x => decide (x.length ≤ 4096))
    && ((Img.sections l 0x13).all fun x => decide (x.length ≤ 65536) && decide (x.entry + 16 ≤ x.length))

/-- The checks of a board image copy in the order of R198. -/
def State.boardCode (s : State) (l : List Byte) : Nat :=
  if !imgHeaderOk l 1 0x100000 then Code.FORMAT
  else if !s.signatureOk l then Code.SIGNATURE
  else if !s.partOk l then Code.FORMAT
  else if !boardContentsOk l then Code.FORMAT else Code.OK

/-! Firmware images (R201, R203, R453). -/

/-- LIB_VERSION of the OP_LIBRARY section (R453). -/
def Img.libVersion (l : List Byte) : Nat := fieldAt (Img.content l 2) 4 2

/-- The CLERK section of a clerk. -/
def Img.clerk (l : List Byte) (n : Nat) : Option ImgSection := (Img.sections l 1).find? fun x => x.target = n

/-- The sections of R201: one CLERK section a clerk, one OP_LIBRARY, at most one MANIFEST. -/
def fwSectionsOk (l : List Byte) : Bool :=
  ((Img.table l).all fun x => decide (1 ≤ x.typ) && decide (x.typ ≤ 3))
    && ((List.range 6).all fun n => ((Img.sections l 1).filter fun x => x.target = n).length = 1)
    && (Img.sections l 2).length = 1 && decide ((Img.sections l 3).length ≤ 1)
    && ((Img.sections l 2).all fun x => decide (x.length ≤ 0x1800000))
    && ((Img.sections l 3).all fun x => decide (x.length ≤ 0x10000)) && Img.libVersion l ≠ 0

/-- Firmware SRAM share of a clerk (R293). -/
def sramShare (n : Nat) : Nat :=
  if n = 1 ∨ n = 3 then 0x200000 else if n = 2 then 0x80000 else 0x100000

/-- Local memory of a clerk (R293). -/
abbrev localBytes : Nat := 0x40000

/-- Every CLERK section fits its local memory and firmware SRAM share. -/
def fwFits (l : List Byte) : Bool := (Img.sections l 1).all fun x => decide (x.length ≤ localBytes + sramShare x.target)

end Sys2Proof.Machine
end

