-- ==== Sys2Proof/Machine/Boot.lean ====
section
/-!
DEFINITION. Reset and the boot chain: what PERST_N and a device reset clear, the OTP checks, the board image, the rail table, the
hooks, and the boot steps to AWAIT_FIRMWARE (R36-R38, R139, R170-R175, R182-R200, R240-R242, R270, R362, R363, R776).
-/
namespace Sys2Proof.Machine

/-! Reset (R395, R776). -/

/-- Registers that a reset leaves: the store counter and time, VMAIN_SNS, VHOLD's register, the last SESSION, the rail table until its channels are off,
and with the PCIe link kept what shows the link and the configuration space. -/
def keptKey (keepPcie : Bool) (key : Nat) : Bool :=
  [Reg.VLT_STORE_CNT.COUNT.key, Reg.VLT_LAST_STORE.NS.key, Reg.VLT_VMAIN.NOW.key, Reg.SUP_HOLD_STA.VHOLD.key,
    Reg.XPT_STA.SESSION.key].contains key
    || (decide (0x2100 ≤ key) && decide (key < 0x2600))
    || (keepPcie && [Reg.PCX_LINK_STA.UP.key, Reg.PCX_VF_STA.NUM_VFS.key, Reg.PCX_BAR2.PF_LOG2.key].contains key)

/-- SUPPLY as VMAIN_SNS stands against the default thresholds (R281, log entry 26). -/
def State.supplyReset (s : State) : State :=
  let v := s.rd Reg.VLT_VMAIN.NOW
  if v < 800 then (s.wr Reg.VLT_STA.SUPPLY 4).wrb Reg.CLK_STA.CLAMP_VWARN true
  else if v < 850 then ((s.wr Reg.VLT_STA.SUPPLY 3).wrb Reg.VLT_STA.COMPUTE_CUT true).wrb Reg.CLK_STA.CLAMP_VWARN true
  else if v < 920 then (s.wr Reg.VLT_STA.SUPPLY 1).wrb Reg.CLK_STA.CLAMP_VWARN true
  else s

/-- Every unit outside the hold domain enters reset, a running store goes on, and SUP powers its channels down (R395, R776). -/
def State.enterReset (s : State) (keepPcie : Bool) : State :=
  let r := State.reset
  let v := { r.vault with sram := s.vault.sram, shadow := s.vault.shadow, sealOpen := s.vault.sealOpen, clean := s.vault.clean }
  let v := { v with run := s.vault.run.map (fun x => { x with waiters := [] }), autoStore := s.vault.autoStore }
  let t := { r with
    regs := s.regs.filter (fun e => keptKey keepPcie e.1)
    fuses := s.fuses
    weak := s.weak
    unretired := s.unretired
    rails := s.rails
    vault := v
    msixOn := if keepPcie then s.msixOn else r.msixOn
    msixMask := if keepPcie then s.msixMask else r.msixMask
    out := s.out
    free := s.free
    pending := s.pending
    uptime := s.uptime }
  let t := (t.wrb Reg.SUP_HOLD_STA.REVERSED false).wrb Reg.VLT_STA.STORING s.vault.run.isSome
  let t := t.wr Reg.BOOT_STA.STRAP (s.rd Reg.BOOT_STA.STRAP)
  (t.supplyReset).powerDown t.usedMask

/-- SUP without a rail table: every channel UNUSED (R77, R137). Samples stay, and what SUP latched since PERST_N, such as a thermal trip
(R133). -/
def State.clearRails (s : State) : State :=
  let kept (e : Nat × DWord) : Bool := !(decide (0x2100 ≤ e.1) && decide (e.1 < 0x2600))
  let t := { s with regs := s.regs.filter kept, staged := s.staged.filter kept, rails := [] }
  channels.foldl (fun u n => u.wr (Reg.RAIL_STA.SENSE n) (s.rd (Reg.RAIL_STA.SENSE n))) t

/-! OTP (R150-R173). -/

/-- Logical rows that may hold a bit: listed rows and rows that a spare serves. -/
def State.rowsUsed (s : State) : List Nat :=
  (((s.fuses.map (·.1)).filter fun r => decide (r < 2048)) ++ (List.range 64).filterMap s.remapOf).eraseDups

/-- A region whose CRC row holds a valid counterfoil (log entry 27). -/
def State.crcRowValid (s : State) (g : Nat) : Bool := s.sealOf g = .sealed || s.sealOf g = .crcFail

/-- Reason 0x1 of R171, at the first entry that shows it. -/
def State.haltRemap (s : State) : Option Nat :=
  (List.range 64).find? fun k =>
    s.fuseRow (1984 + k) ≠ BitVec.ofNat 72 voidRow &&
      ((decodeRow (s.fuseRow (1984 + k))).uncorr ||
        match s.remapOf k with
        | some lr => decide (1984 ≤ lr) || (List.range k).any fun j => s.remapOf j = some lr
        | none => false)

/-- An uncorrectable error in this row halts (reason 0x4). -/
def State.rowHalts (s : State) (r : Nat) : Bool :=
  (decide (88 ≤ r) && decide (r ≤ 90)) || match regionOf r with | some g => s.crcRowValid g | none => false

/-- The rows that an uncorrectable error halts on (reason 0x4). -/
def State.haltRow (s : State) : Option Nat := (s.rowsUsed.filter fun r => (s.readRow r).uncorr && s.rowHalts r).min?

/-- A region required by the state in the array is not SEALED (reason 0x6): the row named (log entry 28). R160 gives RETURN no requirement of its
own, and the boot check reads that as none, as the transition does. -/
def State.haltUnsealed (s : State) (strap : Nat) : Option Nat :=
  let lc := s.lcFromRows
  if lc = Lc.RETURN then none else
  let open_ (g : Nat) : Bool := s.sealOf g = .unsealed || s.sealOf g = .torn
  if lc = Lc.MANUFACTURE then
    if open_ 1 ∧ !(strap = Mode.MANUFACTURE_TEST ∧ s.sealOf 1 = .unsealed) then some 17 else none
  else
    match [0, 1, 6, 7, 8].find? open_ with
    | some g => some (regionRows g).2.2
    | none =>
      if lc = Lc.PROVISIONED then none
      else if [2, 3, 4].all open_ then some 71
      else if open_ 5 ∧ !s.defaultsBlank then some 128 else none

/-- The rows of R34. -/
def shippedRows : List Nat := [0x0000144C00000000, 0x000023E80C000000, 0x000032580F81C088]

/-- The first failure of R171: HALT_REASON and row. -/
def State.haltOf (s : State) (strap : Nat) : Option (Nat × Nat) :=
  match s.haltRemap with
  | some k => some (1, 1984 + k)
  | none =>
    match [1, 2, 3, 4, 5].find? fun c => s.lcRow c = .foreign || (s.lcRow c = .torn && decide (c < s.lcFromRows)) with
    | some c => some (2, 31 + c)
    | none =>
      if s.lcFromRows = Lc.SCRAPPED then some (3, 0xFFFF)
      else if s.lcFromRows = Lc.BLANK then none
      else match s.haltRow with
        | some r => some (4, r)
        | none =>
          match (List.range 9).find? fun g => s.sealOf g = .crcFail with
          | some g => some (5, (regionRows g).2.2)
          | none =>
            match s.haltUnsealed strap with
            | some r => some (6, r)
            | none => if s.sealed 1 ∧ !shippedRows.contains (s.rowData 16) then some (7, 16) else none

/-- SEC reads the array: counts, log entries, and the OTP page (R170, R172, R176). UNCORR leaves out a row that causes the halt. In BLANK no
lifecycle row is VALID to be read, and OTP_LC shows the counterfoil of code 0 (log entry 12). -/
def State.readOtp (s : State) : State :=
  let halts (r : Nat) : Bool := (s.rowHalts r && s.lcFromRows ≠ Lc.BLANK) || decide (1984 ≤ r) || (decide (32 ≤ r) && decide (r ≤ 36))
  let t := s.rowsUsed.foldl (fun t r =>
    let x := s.readRow r
    if x.corr then ((t.count Reg.OTP_ECC_CNT.CORRECTED 1).raise 3 0).logSec Level.INFO SecLog.ROW_CORRECTED r 0 0
    else if x.uncorr then (if halts r then t else t.count Reg.OTP_ECC_CNT.UNCORR 1).logSec Level.ERROR SecLog.ROW_UNCORRECTABLE r 0 0
    else t) s
  let t := (t.wr Reg.OTP_STA.STATE s.lcFromRows).wrb Reg.OTP_STA.TORN s.lcTorn.isSome
  (t.wr Reg.OTP_LC.LC (cfOf s.lcFromRows)).refreshOtp

/-- The unit-disable row fixes the part (R33-R37, R49). A device that treats every unit as present reads part 0 and 1,100 W. -/
def State.loadPart (s : State) : State :=
  let all := s.sealOf 1 ≠ .sealed
  let row := if all then 0 else s.rowData 16
  let there := 255 - bits row 0 8
  let gib (h : Nat) := 48 * popCount (bits there (4 * h) 4) 4
  let upd := b2n (!bit row 26)
  let mnt := b2n (!bit row 27)
  let t := (s.wr Reg.GLB_PART.PART_CODE (bits row 44 4)).wr Reg.GLB_PART.POWER_LIMIT (if all then 1100 else bits row 32 12)
  let t := ((t.wr Reg.GLB_STACK_MAP.PRESENT there).wr Reg.GLB_STACK_MAP.FAULT 0).wr Reg.GLB_PORT_MAP.PRESENT (2 ^ 18 - 1 - bits row 8 18)
  let t := (((t.wr Reg.GLB_UNIT_MAP.UPD_A upd).wr Reg.GLB_UNIT_MAP.UPD_B upd).wr Reg.GLB_UNIT_MAP.LSC upd).wr Reg.GLB_UNIT_MAP.MNT_A mnt
  let t := ((t.wr Reg.GLB_UNIT_MAP.MNT_B mnt).wr Reg.GLB_MEM_SIZE.HALF_A_GIB (gib 0)).wr Reg.GLB_MEM_SIZE.HALF_B_GIB (gib 1)
  t.wr Reg.GLB_CHIP_ID.CHIP_ID (s.rowData 0)

/-- The persistent defaults of every account, mirrored in ACT_STA (R381). -/
def State.loadDefaults (s : State) : State :=
  (List.range 32).foldl (fun t a =>
    let row := s.rowData (96 + a)
    let t := ((t.wr (Reg.ACT_STA.CLASS_FLOOR a) (bits row 0 2)).wrb (Reg.ACT_STA.NO_SECURE a) (bit row 2 || s.lcFromRows = Lc.RETURN)).wr (Reg.ACT_STA.LOCKED a) (bits row 3 1)
    (t.wr (Reg.ACT_STA.NO_VAULT a) (bits row 4 1)).wr (Reg.ACT_STA.NO_APERTURE a) (bits row 5 1)) s

/-- A hard repair entry names a macro with its row and spare: 512 rows and 4 spares in a tile macro, 4,096 and 8 in a bank, 2 spares in an
engine macro (R520, R523). -/
def repairNamed (e : Nat) : Bool :=
  let m := bits e 20 11
  if m < 0x240 then decide (bits e 8 12 < 512) && decide (bits e 0 3 < 4)
  else (decide (0x300 ≤ m) && decide (m < 0x360)) || (decide (0x400 ≤ m) && decide (m < 0x500) && decide (bits e 0 3 < 2))

/-- The entries of the hard repair rows (R523). -/
def State.hardRepairRows (s : State) : List Nat :=
  (s.rowsUsed.filter fun r => decide (256 ≤ r) && decide (r ≤ 1022)).flatMap fun r =>
    [bits (s.rowData r) 0 32, bits (s.rowData r) 32 32].filter (bit · 31)

/-- SEC applies the hard repairs; an entry that names no macro, row or spare is ignored and logged (R523). -/
def State.applyRepairs (s : State) : State :=
  let t := { s with hardRepairs := s.hardRepairRows.filter repairNamed }
  (s.hardRepairRows.filter fun e => !repairNamed e).foldl (fun t e => t.logSec Level.WARN SecLog.REPAIR_IGNORED e 0 0) t

/-- The effective boot mode (R182). -/
def State.modeOf (s : State) (strap : Nat) : Nat :=
  let lc := s.lcFromRows
  if lc = Lc.BLANK then Mode.RECOVERY
  else if strap = 0 then Mode.NORMAL
  else if strap = 2 ∧ lc = Lc.MANUFACTURE then Mode.MANUFACTURE_TEST
  else Mode.RECOVERY

/-! The rail table (R139, R196, R197, R362, R363). -/

/-- The OTP default record of a channel. -/
def State.otpRail (s : State) (n : Nat) : RailRecord :=
  railRecord ((List.range 4).flatMap fun i => leBytes 8 (s.rowData (1024 + 4 * n + i)))

/-- Stage one channel from a record; a value wider than its field takes the field's largest (log entry 32). -/
def State.stageRail (s : State) (n : Nat) (r : RailRecord) : State :=
  let t := ((s.stageRaw (Reg.RAIL_CFG.USED n).key r.cfg).stageRaw (Reg.RAIL_START.START_DELAY n).key r.start).stageRaw
    (Reg.RAIL_STOP.STOP_DELAY n).key r.stop
  let t := ((t.stageRaw (Reg.RAIL_SCALE.SCALE n).key (min 0x1FFF r.scale)).stageCf (Reg.RAIL_UV.UV n) r.uv).stageCf (Reg.RAIL_OV.OV n) r.ov
  (t.stageRaw (Reg.RAIL_VOUT.VMIN n).key r.vout).stageRaw (Reg.RAIL_PMB.ADDR n).key r.pmb

/-- ICC_MAX of a half without an accepted board image; the part code 0 of R37 takes the first (log entry 29). -/
def State.defaultIcc (s : State) : Nat :=
  let p := s.rd Reg.GLB_PART.PART_CODE
  if p = 2 then 720 else if p = 3 then 440 else 800

/-- Stage THM and the VLT thresholds from a THERMAL section, or their defaults; a value wider than its field takes the field's largest
(log entry 32). -/
def State.stageThermal (s : State) (l : Option (List Byte)) : State :=
  let n (o w d : Nat) : Nat := match l with | some b => fieldAt b o w | none => d
  let t := (s.stageFld Reg.THM_TJ_TARGET.TENTHS (n 4 2 950)).stageFld Reg.THM_HBM_TARGET.TENTHS (n 6 2 900)
  let t := (t.stageFld Reg.THM_PCAP.W (min 0xFFF (n 8 2 (s.rd Reg.GLB_PART.POWER_LIMIT)))).stageFld Reg.THM_PUNMEAS.W (min 0xFFF (n 0xA 2 0))
  let t := ((t.stageCf Reg.VLT_THR_WARN.WARN (n 0xC 2 920)).stageCf Reg.VLT_THR_STORE.STORE (n 0xE 2 850)).stageCf Reg.VLT_THR_RESET.RESET (n 0x10 2 800)
  let t := t.stageFld Reg.THM_CORE_CH.CH (n 0x14 4 0xFFFFFFFF)
  let t := (List.range 4).foldl (fun t k => t.stageFld (Reg.THM_OP.MV k) (n (0x18 + 8 * k) 8 0)) t
  let t := (List.range 20).foldl (fun t k => t.stageFld (Reg.THM_ILIM.I k) (n (0x38 + 2 * k) 2 0)) t
  (t.stageFld Reg.THM_ICC_MAX.A (n 0x60 2 s.defaultIcc)).stageFld Reg.THM_ICC_MAX.B (n 0x62 2 s.defaultIcc)

/-- Stage the whole of posting group 1 from the OTP defaults, overlaid by an accepted board image (R197). -/
def State.stageTable (s : State) (b : Option (List Byte)) : State :=
  let recs := match b with | some x => Img.rails x | none => []
  (channels.foldl (fun t n =>
    match (recs.filter fun r => r.channel = n).getLast? with
    | some r => t.stageRail n r
    | none => t.stageRail n (s.otpRail n)) s).stageThermal (b.bind Img.thermal)

/-- The boot goes on without compute: RAILS_FAULT, the rail states logged, PCIe next (R188). -/
def State.railsFault (s : State) : State :=
  ((s.wrb Reg.BOOT_STA.RAILS_FAULT true).logSec Level.ERROR SecLog.RAIL_STATES (s.rd Reg.SUP_RAIL_ON.ON) (s.rd Reg.SUP_RAIL_FAULT.FAULT) 0).setStage Stage.PCIE

/-- POWER_UP of the posted table; with no used channel the boot does not wait (R188). -/
def State.bootPower (s : State) : State :=
  let cut := s.groupMask (s.rd Reg.SUP_COMPUTE_GRP.GROUPS)
  let t := if s.on Reg.VLT_STA.COMPUTE_CUT ∧ !s.upBlocked then s.powerUp (s.usedMask - (s.usedMask &&& cut)) else s.supPowerUp
  if t.usedMask = 0 then t.railsFault else t

/-- The channels whose regulator reports a format SUP does not accept. -/
def State.badFormats (s : State) : Nat := match s.boot.env with | some e => e.badFormat | none => 0

/-- RAILS: SEC posts the rail table with THM and VLT, with the OTP defaults behind it, and writes POWER_UP (R139). -/
def State.railsStage (s : State) : State :=
  let t := ((s.setStage Stage.RAILS).wr (Reg.POST_GRP.GROUP 2) 1 |>.wr (Reg.POST_GRP.GROUP 7) 1).wr (Reg.POST_GRP.GROUP 8) 1
  match (t.stageTable s.boot.board).secPost 2 s.badFormats with
  | (t, none) => t.bootPower
  | (t, some (pg, v)) =>
    let t := [2, 7, 8].foldl State.discardPage ((t.wrb Reg.BOOT_STA.RAIL_FALLBACK true).logSec Level.WARN SecLog.RAIL_TABLE v.reason v.code pg)
    match (t.stageTable none).secPost 2 s.badFormats with
    | (t, none) => t.bootPower
    | (t, some (pg, v)) => ((t.logSec Level.ERROR SecLog.RAIL_TABLE v.reason v.code pg).fatal Fatal.RAIL_TABLE 0).railsFault

/-! Hooks (R199, R200). -/

/-- What follows when hook `h` has returned or is absent: PRE_RAILS leads to RAILS; the others lead to work that a later command ends. -/
def State.afterHook (s : State) (h : Nat) : State := if h = 0 then s.railsStage else s

/-- The execute-in-place window of a select of SPX0 in SEC's address map (R233). -/
def xipBase (sel : Nat) : Nat := 0x60000000 + sel * 0x04000000

/-- Where hook `h` starts: in the window of select 0, at its offset in the HOOKS section of the accepted flash copy (R199). -/
def State.hookEntry (s : State) (h : Nat) : Nat :=
  match s.boot.board with
  | some l => match Img.sections l 0x13 with
    | x :: _ => xipBase 0 + s.boot.boardBase + x.offset + fieldAt (Img.body l x) (x.entry + 4 * h) 4
    | [] => 0
  | none => 0

/-- Call hook `h` if the accepted image has it and it has not failed since PERST_N. It runs as component 0x0080 of SEC (R296). -/
def State.callHook (s : State) (h : Nat) : State :=
  if bit s.boot.hooks h ∧ !bit s.boot.hooksFailed h then
    let t := { s with boot := { s.boot with hook := some h } }
    (t.setClerk 0 { t.clerk 0 with comp := 0x0080 }).emit (.hookCall h (s.hookEntry h))
  else s.afterHook h

/-- Why a hook failed (R200): it returned a code other than 0, ran out of time, or broke its protection. -/
inductive HookCause where
  | returned (code : Nat)
  | timeout
  | violation
deriving DecidableEq, Repr

/-- The cause as SEC logs it: its kind, and the code that the hook returned (log entry 15). -/
def hookCauseArgs : HookCause → Nat × Nat
  | .returned c => (0, c)
  | .timeout => (1, 0)
  | .violation => (2, 0)

/-- A hook failed: logged with its cause, HOOK_FAULT set, and not called again until PERST_N. -/
def State.hookFailed (s : State) (h : Nat) (cause : HookCause) : State :=
  let t := { s with boot := { s.boot with hooksFailed := setBit s.boot.hooksFailed h true } }
  let c := hookCauseArgs cause
  ((t.logSec Level.WARN SecLog.HOOK_FAILED h c.1 c.2).wrb Reg.BOOT_STA.HOOK_FAULT true).raise 4 4

/-- The running hook ends. -/
def State.endHook (s : State) (failure : Option HookCause) : State :=
  match s.boot.hook with
  | none => s
  | some h =>
    let t := ({ s with boot := { s.boot with hook := none } } : State).setClerk 0 { s.clerk 0 with comp := 0 }
    (match failure with | some c => t.hookFailed h c | none => t).afterHook h

/-! The start of the sequence (R170-R198, R240, R270). -/

/-- The restore (R270): a store that runs completes first; uncorrectable words restore as 0. -/
def State.restoreVault (s : State) (env : BootEnv) : State :=
  let t := if s.vault.run.isSome then (s.finishStore (Config.freeNat s.free)).skipFree 1 else s
  let sram := env.restoreBad.foldl (fun m w => zeroBytes m (8 * (w % 0x200000)) 8) t.vault.shadow
  let u := { t with vault := { t.vault with sram := sram, clean := env.restoreBad.isEmpty && !t.vault.sealOpen } }
  let u := (u.wr Reg.VLT_RESTORE.UNCORR (min env.restoreBad.length 65535)).wr Reg.VLT_RESTORE.CORR (min env.restoreCorr 65535)
  let u := (u.wrb Reg.VLT_STA.WORN (decide (1000000 < u.rd Reg.VLT_STORE_CNT.COUNT))).wrb Reg.VLT_STA.CHARGING true
  if u.vault.sealOpen then (u.wrb Reg.VLT_STA.RESTORE_TORN true).raise 7 7 else u

/-- A read of the boot flash outside any window: command, 24-bit address and dummy cycles at one lane (R240). -/
def State.probeOp (s : State) (sel div cmd addr dummy n : Nat) : SpiOp :=
  { s.selOp 0 sel (spiPhases 0 0 0 0 [BitVec.ofNat 8 cmd] (highFirst 3 addr) [] dummy [] n) with period := 2 * (div + 1), rxDly := 0 }

/-- A read of the boot flash in the chosen read. -/
def State.chosenOp (s : State) (div dly : Nat) (r : FastRead) (addr n : Nat) : SpiOp :=
  let w := readWidths r.code
  let o := s.selOp 0 0 (spiPhases 0 w.1 w.1 w.2 (highFirst 1 r.cmd) (highFirst 3 addr) (if r.modeEn then [0] else []) r.dummy [] n)
  { o with period := 2 * (div + 1), rxDly := dly }

/-- Steps 3 and 4 of R240 on a select: the SFDP header, and the tables if the header is good. -/
def State.readSfdp (s : State) (sel : Nat) (f : FlashCheck) : State :=
  let t := s.emit (.spi (s.probeOp sel 5 0x5A 0 8 16))
  if flashReadStep f = 3 then t
  else
    ([8] ++ (sfdpTable f.sfdp 0xFF84).toList).foldl (fun t h =>
      t.emit (.spi (t.probeOp sel 5 0x5A (fieldAt f.sfdp (h + 4) 3) 8 (4 * fieldAt f.sfdp (h + 3) 1)))) t

/-- What steps 1 to 6 of R240 put on the balls, up to the step that fails: exit sequences, line patterns, SFDP reads (the step-3 read again at
75 MHz with every delay) and the two reads of the first 64 bytes. -/
def State.probeFlash (s : State) (f : FlashCheck) (dly div : Nat) : State :=
  let n := wireStep f
  let t := (List.range 4).foldl (fun t k => t.emit (.spi (t.exitOp 0 k 16))) s
  let t := t.emit (.dqPatterns ([0, 0xFF, 0x55, 0xAA] ++ (List.range 8).map (2 ^ ·)))
  if n = 2 then t
  else
    let t := t.readSfdp 0 f
    if n = 3 ∨ n = 4 then t
    else
      let t := (List.range 16).foldl (fun t d => t.emit (.spi { t.probeOp 0 1 0x5A 0 8 16 with rxDly := d })) t
      (t.emit (.spi (t.probeOp 0 div 0x03 0 0 64))).emit (.spi (t.chosenOp div dly (sfdpChoice f.sfdp) 0 64))

/-- SEC's wiring check of select 0 (R240, R241): what it drives, its registers, and at its end the post of the chosen read through slot 2. -/
def State.wiringCheck (s : State) (f : FlashCheck) : State :=
  let n := wireStep f
  let r := sfdpChoice f.sfdp
  let slow := (midDelay f.rxPass).isNone
  let dly := (midDelay f.rxPass).getD 0
  let div := if slow then 5 else 1
  let t := ((s.probeFlash f dly div).wrb (Reg.SPX_WIRE_STA.DONE 0) true).wr (Reg.SPX_WIRE_STA.STEP 0) n
  let t := t.wr (Reg.SPX_WIRE_STA.STUCK 0) (if n = 2 then f.shorted % 256 else 0)
  let t := if n ≠ 0 ∧ n < 5 then t
    else
      let t := ((t.wr (Reg.SPX_WIRE_STA.WIDTH 0) (readWidths r.code).2).wr (Reg.SPX_WIRE_STA.RX_DLY 0) dly).wrb (Reg.SPX_WIRE_STA.SLOW 0) slow
      ((t.wr (Reg.SPX_SFDP.DENSITY_LOG2 0) (sfdpDensity f.sfdp)).wr (Reg.SPX_SFDP.REV 0) (sfdpRev f.sfdp)).wr (Reg.SPX_SFDP.READ 0) r.code
  if n ≠ 0 then (t.wrb (Reg.SPX_WIRE_STA.FAIL 0) true).raise 5 9
  else
    let t := (t.wr (Reg.POST_GRP.GROUP 5) 6).wr (Reg.POST_GRP.GROUP 6) 6
    let t := ((t.stageFld (Reg.SPX_SEL_CFG.DIV 0 0) div).stageFld (Reg.SPX_SEL_CFG.RX_DLY 0 0) dly).stageFld
      (Reg.SPX_SEL_TIM.SETUP 0 0) (s.rd (Reg.SPX_SEL_TIM.SETUP 0 0))
    ((t.stageRaw (Reg.SPX_XIP_CFG.ENABLE 0 0).key r.xipCfg).secPost 64 0).1

/-- SEC reads a board image copy: its header, and if that gives a length its TOTAL_LEN bytes and no more, in 256-byte transfers in the chosen mode
(R242). -/
def State.readCopy (s : State) (base : Nat) (flash : List Byte) : State × List Byte :=
  let n := max 0x200 (min (Img.totalLen flash) 0x100000)
  let t := (List.range ((n + 255) / 256)).foldl (fun t i => t.emit (.spi (t.readOp 0 (base + 256 * i) (min 256 (n - 256 * i)) false))) s
  (t, flash.take n)

/-- SEC takes a board image copy into firmware SRAM, and the hooks it names are called from its flash offset (R198, R199). -/
def State.takeBoard (s : State) (copy base : Nat) (l : List Byte) : State :=
  let t := s.wr Reg.BOOT_STA.BOARD copy
  ({ t with boot := { t.boot with board := some l, boardBase := base, hooks := Img.hooks l } } : State).callHook 0

/-- BOARD: the wiring check and the choice of a board image (R198), then PRE_RAILS. -/
def State.boardStage (s : State) (env : BootEnv) : State :=
  let t := (s.setStage Stage.BOARD).wiringCheck env.flash
  if wireStep env.flash ≠ 0 then (t.wr Reg.BOOT_STA.BOARD 3).railsStage
  else
    let a := t.readCopy 0 env.primary
    let code := a.1.boardCode a.2
    let t := a.1.wr Reg.BOOT_STA.BOARD_CODE code
    if code = Code.OK then t.takeBoard 1 0 a.2
    else if sfdpDensity env.flash.sfdp < 24 then (t.wr Reg.BOOT_STA.BOARD 4).railsStage
    else
      let b := t.readCopy 0x800000 env.backup
      if b.1.boardCode b.2 = Code.OK then b.1.takeBoard 2 0x800000 b.2 else (b.1.wr Reg.BOOT_STA.BOARD 4).railsStage

/-- PCIe is down: while halted and in RECOVERY (R171, R183). -/
def State.linkDown (s : State) : State := s.wrb Reg.PCX_LINK_STA.UP false

/-- XPT takes a new SESSION: not 0, and not the one before (R602). -/
def State.newSession (s : State) : State :=
  let n := 1 + Config.freeNat s.free % 65535
  (s.skipFree 1).wr Reg.XPT_STA.SESSION (if n = s.rd Reg.XPT_STA.SESSION then n % 65535 + 1 else n)

/-- SEC starts: OTP checks, mode, and the first step that follows (R170-R183). The SEC and PWR ROMs run. A halted SEC serves two words on
SPX1 (R173). -/
def State.secStart (s : State) (env : BootEnv) : State :=
  let t := ((s.newSession.clearRails.startClerk 0 ClerkSt.ROM 0).startClerk 2 ClerkSt.ROM 0x200).setStage Stage.OTP_CHECK
  let t := { t with boot := { t.boot with env := some env, waitOff := false, started := s.uptime } }
  let t := ({ t with computeRan := false } : State).wr Reg.BOOT_STA.STRAP env.strap |>.readOtp
  match t.haltOf env.strap with
  | some (reason, row) =>
    let w := 0xA5000000 + reason * 0x10000 + row
    (((t.linkDown).wr Reg.OTP_STA.HALT_REASON reason).setStage Stage.HALTED).setPort 1
      { t.port 1 with tx := [BitVec.ofNat 32 w, BitVec.ofNat 32 (2 ^ 32 - 1 - w)] }
  | none =>
    let mode := t.modeOf env.strap
    let t := ((t.wr Reg.BOOT_STA.MODE mode).loadPart.loadDefaults)
    let t := t.applyRepairs
    let t := if t.lcTorn.isSome then (t.zeroAreas.requestStore 2 []).1 else t
    if mode = Mode.RECOVERY then t.linkDown.setStage Stage.RECOVERY else t.boardStage env

/-- The sequence starts once SUP has every channel off (R776); `restore` runs the Vault restore first. -/
def State.bootStart (s : State) (env : BootEnv) (restore : Bool) : State :=
  let s := { s with boot := { s.boot with env := some env, restart := b2n (!restore), waitOff := true } }
  if s.rd Reg.SUP_STA.SEQ ≠ Seq.IDLE_OFF ∨ s.rd Reg.VLT_STA.SUPPLY = 4 then s
  else (if restore then s.restoreVault env else s).secStart env

/-- A start that waits for the rails goes on when SEQ is IDLE_OFF. -/
def State.bootWaits (s : State) : State :=
  match s.boot.env with
  | some env => if s.boot.waitOff ∧ s.rd Reg.SUP_STA.SEQ = Seq.IDLE_OFF then s.bootStart env (s.boot.restart = 0) else s
  | none => s

/-! The commands. -/

def execPerstNAssert (s : State) : Result := .next (s.enterReset false)

def execPerstNDeassert (env : BootEnv) (s : State) : Result :=
  .next (
    if s.stage = Stage.RESET ∧ !s.boot.waitOff then ({ s with timeFine := 0 } : State).bootStart { env with strap := env.strap % 4 } true else s)

/-- The frame of FAULT_N (R174). -/
def haltFrame (reason : Nat) : List (Bool × Nat) :=
  [(false, 400), (true, 100)] ++ (List.range 8).map (fun i => (!bit reason (7 - i), 100)) ++ [(true, 700)]

/-- FAULT_N is high outside the frame of a halt: released, unless a device reset is asked for (R790). -/
def State.faultN (s : State) : Bool := !s.on (Reg.FWP_FATAL.RESET_REQ 0)

def execHaltFaultFrame (s : State) : Result :=
  .next (if s.stage = Stage.HALTED then s.emit (.faultFrame (haltFrame (s.rd Reg.OTP_STA.HALT_REASON))) else s)

def execHookReturn (code : Nat) (s : State) : Result := .next (s.endHook (if code % 2 ^ 32 = 0 then none else some (.returned (code % 2 ^ 32))))

def execHookTimeout (s : State) : Result := .next (s.endHook (some .timeout))

/-- The boot's steps on the compute dies go on: compute is not cut, or is resuming (R278, R292). -/
def State.bootGoes (s : State) : Bool := !s.on Reg.VLT_STA.COMPUTE_CUT || s.vault.resuming

/-- The rails are on: POST_RAILS and the march follow (R185, R210). -/
def State.railsOn (s : State) : State := (s.setStage Stage.MARCH).callHook 1

def execBootRailsOn (s : State) : Result :=
  .next (
    if s.stage = Stage.RAILS ∧ s.boot.hook.isNone ∧ s.bootGoes ∧ (s.rd Reg.SUP_STA.SEQ = Seq.ON ∨ (s.boot.restart = 2 ∧ s.computePowered)) then s.railsOn else s)

def execBootRailsTimeout (s : State) : Result :=
  .next (if s.stage = Stage.RAILS ∧ s.boot.hook.isNone ∧ s.rd Reg.SUP_STA.SEQ ≠ Seq.ON then s.railsFault else s)

/-- The half of the macro that a repair entry names (R523). -/
def repairHalf (e : Nat) : Nat :=
  let m := bits e 20 11
  if m < 0x300 then m / 12 / 24 else if m < 0x400 then (m - 0x300) / 48 else (m - 0x400) / 0x80

/-- The boot march ends (R187, R520): the fault of every tile, bank and present engine follows its outcome (engine SRAM set `i` of half `h` is bit
5h + i), soft repairs are recorded, every bank reads zero. -/
def State.marchDone (s : State) (badTiles badA badB badEngines : Nat) (log : List Nat) : State :=
  let t := (List.range 48).foldl (fun t i => t.setTargetFault (i / 24) 0 i (bit badTiles i)) s
  let t := (t.setBankFault 0 (badA % 2 ^ 48)).setBankFault 1 (badB % 2 ^ 48)
  let engines := (List.range 10).filter fun i => !s.pageAbsent (enginePage (i / 5) (i % 5))
  let t := engines.foldl (fun t i => t.setTargetFault (i / 5) 2 (i % 5) (bit badEngines i)) t
  let t := [0, 1].foldl (fun t h => t.zeroRange (bankBase h) 0x6000000) t
  let t := { t with softRepairs := t.softRepairs ++ log
                    mteLog := [0, 1].foldl (fun m h => tblSet [] m h (log.filter fun e => repairHalf e = h)) t.mteLog }
  ((t.wrb Reg.BOOT_STA.MARCH_REPAIRED (!log.isEmpty || t.on Reg.BOOT_STA.MARCH_REPAIRED)).setStage Stage.HBM_TRAIN).callHook 2

def execMarchDone (badTiles badBanksA badBanksB badEngines : Nat) (log : List Nat) (s : State) : Result :=
  .next (if s.stage = Stage.MARCH ∧ s.boot.hook.isNone ∧ s.bootGoes then s.marchDone badTiles badBanksA badBanksB badEngines log else s)

/-- HBM training ends (R189, R190): failed stacks are faulted, every line of the others is zero and clean. -/
def State.hbmTrained (s : State) (failed : Nat) : State :=
  let t := (List.range 8).foldl (fun t k =>
    if !t.stackPresent k ∨ t.stackFaulted k then t
    else if bit failed k then t.faultStack k 1 else t.wrb (Reg.HMC_STA.TRAINED k) true) s
  let t := [0, 1].foldl (fun t h => t.zeroRange (hbmBase h) (t.halfBytes h)) t
  (t.setStage Stage.PCIE).callHook 3

def execHbmTrainDone (failed : Nat) (s : State) : Result :=
  .next (if s.stage = Stage.HBM_TRAIN ∧ s.boot.hook.isNone ∧ s.bootGoes then s.hbmTrained failed else s)

/-- SEC admits every present tile that is not faulted to the pool (R478). -/
def State.enableTiles (s : State) : State :=
  (List.range 48).foldl (fun t i =>
    if t.on (Reg.STA.FAULT (0x100 + i)) then t
    else (t.wrb (Reg.CTL.ENABLE (0x100 + i)) true).wrb (Reg.TIL_STA.IN_POOL i) (decide (t.rd (Reg.TIL_STA.STATE i) = 0))) s

/-- A resume after a compute cut ends (R278, R281). -/
def State.resumed (s : State) : State :=
  let st := if s.on Reg.CLK_STA.CLAMP_VWARN then 1 else 0
  let s := { s with vault := { s.vault with resuming := false } }
  let t := ((s.wrb Reg.VLT_STA.COMPUTE_CUT false).wr Reg.VLT_STA.SUPPLY (if s.rd Reg.VLT_STA.SUPPLY = 4 then 4 else st)).raise 7 9
  t.history 11 0xFF 0 0 0 0 (s.rd Reg.VLT_VMAIN.MIN) (s.rd Reg.SUP_HOLD_STA.VHOLD)

/-- Step 12 of R185. A cut that is not resuming stays, and its resume begins later (R278). -/
def execPcieReady (s : State) : Result :=
  .next (
    if s.stage = Stage.PCIE ∧ s.boot.hook.isNone then
      let t := if s.bootGoes then s.enableTiles else s
      let t := if s.vault.resuming then t.resumed else t
      let t := if s.boot.restart = 2 then t else t.wr Reg.BOOT_TIME.US ((s.uptime - s.boot.started) / 1000)
      t.setStage Stage.AWAIT_FIRMWARE
    else s)

end Sys2Proof.Machine
end

