-- ==== Sys2Proof/Machine/Rings.lean ====
section
/-!
DEFINITION. The commands of rings, descriptors, completion and tallies (R407-R441), and the aborts of R429-R431 with the rules that
replace their running row (R604, R663).
-/
namespace Sys2Proof.Machine

/-! Register accesses of a ring page (R409, R441). -/

/-- A ring page is reached by its own function and by the PF. -/
def State.ringReq (s : State) (fn a : Nat) : Bool := (fn = 0 || fn = a) && decide (a < 32) && s.fnLive fn
/-- Where a function sees the page of a ring in its BAR 0 (R68, R69). -/
def ringOffset (fn a r : Nat) : Nat := if fn = 0 then 0x3000000 + ringIx a r * 0x1000 else 0x10000 + r * 0x1000

/-- A write of a ring page: a ring at or above ACT_RINGS.COUNT ignores it and reads LAST_CODE PERMISSION. -/
def State.ringWrite (s : State) (fn a r : Nat) (run : State → Nat → State) : State :=
  if !s.fnLive fn then s.unsupported fn (ringOffset fn a r)
  else if !s.ringReq fn a ∨ 32 ≤ r then s
  else if s.rd (Reg.ACT_RINGS.COUNT a) ≤ r then s.lastCode (ringIx a r) Code.PERMISSION
  else run s (ringIx a r)

def State.acctOn (s : State) (a : Nat) : Bool := s.on (Reg.CTL.ENABLE (0x40 + a))

/-- A doorbell value `t` against the tail (R411). -/
def State.doorbell (s : State) (u t : Nat) : State :=
  let d := (t + 2 ^ 32 - s.rd (Reg.RING_TAIL.COUNT u)) % 2 ^ 32
  if !s.acctOn (u / 32) ∨ s.ringsBarred ∨ d = 0 ∨ 2 ^ 31 ≤ d then s
  else if s.ringSize u < (t + 2 ^ 32 - s.rd (Reg.RING_HEAD.COUNT u)) % 2 ^ 32 then s.lastCode u Code.BOUNDS
  else s.wr (Reg.RING_TAIL.COUNT u) t

def execRingDoorbell (fn a r tail : Nat) (s : State) : Result :=
  .next (s.ringWrite fn a r fun t u => t.doorbell u (tail % 2 ^ 32))

/-- Check 3 of R410 on a ring in device memory. -/
def State.ringExtent (s : State) (a addr n : Nat) (rd wr : Bool) : Nat :=
  if 2 ^ 52 < addr + n then Code.BOUNDS
  else match placeOf addr with
    | .hbm .. => if View.inWindow s.rd a addr n rd wr then Code.OK
        else if View.inWindow s.rd a addr n false false then Code.PERMISSION else Code.BOUNDS
    | _ => Code.BOUNDS

/-- The checks of R410. -/
def State.enableCode (s : State) (u : Nat) : Nat :=
  let k := s.rd (Reg.RING_CFG.SIZE_LOG2 u)
  if !s.acctOn (u / 32) then Code.PERMISSION
  else if k < 5 ∨ 16 < k then Code.FORMAT
  else
    let c := if s.on (Reg.RING_BASE.LOC u) then s.ringExtent (u / 32) (s.rd (Reg.RING_BASE.ADDR u) * 4096) (128 * 2 ^ k) true false else Code.OK
    if c ≠ Code.OK then c
    else if s.on (Reg.RING_CPL_BASE.LOC u) then s.ringExtent (u / 32) (s.rd (Reg.RING_CPL_BASE.ADDR u) * 4096) (32 * 2 ^ k) false true
    else Code.OK

/-- A passed enable: held records are written in their order before any new one (R434). -/
def State.startRing (s : State) (u : Nat) : State :=
  (((s.wrb (Reg.RING_CTL.ENABLE u) true).wr (Reg.RING_STA.STATE u) RingSt.RUNNING).wr (Reg.RING_STA.CAUSE u) 0).flushRecords u |>.refreshRing u

def execRingEnable (fn a r : Nat) (s : State) : Result :=
  .next (s.ringWrite fn a r fun t u => if t.enableCode u = Code.OK then t.startRing u else t.lastCode u (t.enableCode u))

/-- ENABLE = 0 (R432). -/
def State.stopRing (s : State) (u : Nat) : State :=
  let t := s.wrb (Reg.RING_CTL.ENABLE u) false
  (if t.ringSt u = RingSt.RUNNING then t.wr (Reg.RING_STA.STATE u) RingSt.DRAINING else t).refreshRing u

def execRingDisable (fn a r : Nat) (s : State) : Result := .next (s.ringWrite fn a r State.stopRing)

/-- RESET (R432). -/
def State.resetRing (s : State) (u : Nat) : State :=
  if (s.ringSt u ≠ RingSt.DISABLED ∧ s.ringSt u ≠ RingSt.FAULT) ∨ !(s.ringOps u).isEmpty ∨ !(s.ringX u).held.isEmpty then
    s.lastCode u Code.LIMIT
  else
    let t := ((s.wr (Reg.RING_HEAD.COUNT u) 0).wr (Reg.RING_TAIL.COUNT u) 0).wr (Reg.RING_CPL_CNT.COUNT u) 0
    let t := ((t.wr (Reg.RING_CPL_ACK.COUNT u) 0).wr (Reg.RING_SEQ_ADM.SEQ u) 0).wr (Reg.RING_SEQ_DONE.SEQ u) 0
    ((t.wr (Reg.RING_STA.CAUSE u) 0).wr (Reg.RING_STA.STATE u) RingSt.DISABLED).wrb (Reg.RING_CTL.ENABLE u) false |>.refreshDsp

def execRingReset (fn a r : Nat) (s : State) : Result := .next (s.ringWrite fn a r State.resetRing)

/-! Aborts (R429-R432, R604, R663). -/

def isFabOp (o : Op) : Bool := decide (0x0300 ≤ o.opcode) && decide (o.opcode ≤ 0x03FF)
def isCollOp (o : Op) : Bool := (decide (0x0400 ≤ o.opcode) && decide (o.opcode ≤ 0x04FF)) || o.opcode = 0x0500

/-- What an op keeps outside the op list: its runs, its mirror, its queued messages and outstanding requests. -/
def State.forgetWork (s : State) (o : Op) : State :=
  let t := ((s.cancelQueued o.key).forgetRequests o.key).dropMirror o.key
  { t with attends := t.attends.filter fun x => x.owner ≠ o.key }

/-- An abort linearised before the outcome record of an op, and its code. An op that has not issued completes at once when a record slot is
free; a running one is marked and stops at its next slice boundary. -/
def State.abortOp (s : State) (o : Op) : State × Nat :=
  let mark := s.setOp { o with abort := true }
  if o.phase = .waiting then (if s.computeOn ∧ s.slotFree o.u then s.completeOp { o with abort := true } .ok else mark, Code.OK)
  else if isFabOp o then
    if (s.queuedOf o.key).isEmpty then (s, Code.TOO_LATE)
    else ((mark.forgetWork o).endCode o Code.ABORTED, Code.OK)
  else if o.phase = .done then (mark, Code.OK)
  else if isCollOp o then (mark.collAbort o, Code.OK)
  else (mark.forgetWork o, Code.OK)

/-- RING_ABORT of a sequence (R430). -/
def State.abortSeq (s : State) (u seq : Nat) : State × Nat :=
  match s.opAt (u / 32) (u % 32) seq with
  | some o => s.abortOp o
  | none => (s, if s.rd (Reg.RING_SEQ_ADM.SEQ u) < seq then Code.BOUNDS else Code.ALREADY_DONE)

/-- Every admitted op of a ring without a record is aborted; the number aborted. -/
def State.abortOps (s : State) (u : Nat) : State × Nat :=
  (s.ringOps u).foldl (fun p o => match p.1.opAt o.acct o.ring o.seq with
    | some x => let q := p.1.abortOp x; (q.1, p.2 + b2n (q.2 = Code.OK))
    | none => p) (s, 0)

/-- ABORT_ALL of a ring (R431). -/
def State.abortRing (s : State) (u : Nat) : State :=
  let t := (s.wr (Reg.RING_HEAD.COUNT u) (s.rd (Reg.RING_TAIL.COUNT u))).wrb (Reg.RING_ABORT_STA.BUSY u) true
  let t := t.setRingX u { t.ringX u with abortAll := true }
  let p := t.abortOps u
  ((p.1.wr (Reg.RING_ABORT_STA.COUNT u) p.2).wr (Reg.RING_ABORT_STA.CODE u) Code.OK).refreshRing u

def execAbortAll (fn a r : Nat) (s : State) : Result :=
  .next (s.ringWrite fn a r fun t u => if t.on (Reg.RING_ABORT_STA.BUSY u) then t.lastCode u Code.LIMIT else t.abortRing u)

def execRingAbort (fn a r seq : Nat) (s : State) : Result :=
  .next (s.ringWrite fn a r fun t u =>
    if t.on (Reg.RING_ABORT_STA.BUSY u) then t.lastCode u Code.LIMIT
    else
      let p := (t.wrb (Reg.RING_ABORT_STA.BUSY u) true).abortSeq u (seq % 2 ^ 48)
      (p.1.wr (Reg.RING_ABORT_STA.CODE u) p.2).refreshRing u)

/-- The aborted ops of a ring stop at their slice boundaries and their records are written, as long as record slots last. -/
def State.finishAborts (s : State) (u : Nat) : State :=
  (s.ringOps u).foldl (fun t o =>
    if !o.abort then t
    else if o.phase = .waiting then (if t.slotFree u then t.completeOp o .ok else t)
    else
      let x := if o.phase = .running ∨ o.phase = .paused then (t.scribbleOutputs o).releaseTiles o else t
      x.completeOp o .ok) s

/-- BUSY clears once no aborted op of the ring is left; an ABORT_ALL then leaves the ring DISABLED. -/
def State.abortDone (s : State) (u : Nat) : State :=
  let t := s.finishAborts u
  if (t.ringOps u).any (·.abort) then t
  else
    let all := (t.ringX u).abortAll
    let t := (t.wrb (Reg.RING_ABORT_STA.BUSY u) false).setRingX u { t.ringX u with abortAll := false }
    (if all then (t.wr (Reg.RING_STA.STATE u) RingSt.DISABLED).wrb (Reg.RING_CTL.ENABLE u) false else t).refreshRing u

def execAbortDone (a r : Nat) (s : State) : Result :=
  .next (if a < 32 ∧ r < 32 ∧ s.computeOn ∧ s.on (Reg.RING_ABORT_STA.BUSY (ringIx a r)) then s.abortDone (ringIx a r) else s)

/-! Counters and watches. -/

def execRingCplAck (fn a r count : Nat) (s : State) : Result :=
  .next (s.ringWrite fn a r fun t u => t.wr (Reg.RING_CPL_ACK.COUNT u) count)

/-- RING_WATCH (R439, R441): VALID = 0 disarms whatever the tally, and a tally outside the account's range is refused; VECTOR keeps its value
where the write names 0 or 1 (R18). -/
def execRingWatch (fn a r tally vector : Nat) (valid : Bool) (s : State) : Result :=
  .next (s.ringWrite fn a r fun t u =>
    if valid ∧ !t.ownsTally a (tally % 2 ^ 18) then t.lastCode u Code.PERMISSION
    else
      let t := (t.wr (Reg.RING_WATCH.TALLY u) tally).wrb (Reg.RING_WATCH.VALID u) valid
      let t := if 2 ≤ vector % 64 then t.wr (Reg.RING_WATCH.VECTOR u) vector else t
      t.fireWatch u)

/-! Fetch and admission (R412, R416, R433). -/

/-- The device-memory address of the next slot of a ring. -/
def State.headAddr (s : State) (u : Nat) : Nat := s.rd (Reg.RING_BASE.ADDR u) * 4096 + 128 * (s.rd (Reg.RING_HEAD.COUNT u) % s.ringSize u)

/-- The next slot of a ring is fetched, and admitted; a fetch that fails faults the ring and takes no slot. -/
def State.descriptorAdmit (s : State) (u : Nat) (f : Fetch) (wr : DmaEnd) : State :=
  if !s.canFetch u ∨ !s.acctOn (u / 32) then s
  else if s.on (Reg.RING_BASE.LOC u) then
    if s.linkHolds (s.ringHalf u) (s.headAddr u) then s
    else match s.ringAccess u (s.headAddr u) 128 false with
    | some (code, rules) => (s.noteFault (code, s.headAddr u) false Source.ENGINE (u / 32)).faultRing u (if rules then 3 else 1) code
    | none => (s.linkAccess (s.ringHalf u) (s.headAddr u) 128 true false).admitDescriptor u (s.load (s.headAddr u) 128) wr
  else match f with
    | .ok bytes => s.admitDescriptor u bytes wr
    | _ => s.faultRing u 1 (fetchCode f)

def execDescriptorAdmit (a r : Nat) (f : Fetch) (wr : DmaEnd) (s : State) : Result :=
  .next (if a < 32 ∧ r < 32 then s.descriptorAdmit (ringIx a r) f wr else s)

/-! The end of an op (R421, R422, R428, R434). -/

/-- WAIT_LIMIT has passed at the head of the issue order with a wait unsatisfied. -/
def State.waitOver (s : State) (o : Op) : Bool :=
  let w := s.rd (Reg.RING_CFG.WAIT_LIMIT o.u)
  w ≠ 0 && s.atHead o && !o.abort && !s.waitsMet o && o.since.any (fun t => decide (t + w * 1000000 ≤ s.uptime)) && s.slotFree o.u

def execWaitTimeout (a r seq : Nat) (s : State) : Result :=
  .next (match s.opAt a r seq with
    | some o => if s.computeOn ∧ s.waitOver o then s.completeOp { o with code := Code.TIMEOUT } .ok else s
    | none => s)

/-- A tile of the op's half runs it or takes its slices: with none in the pool it waits (R379, R474, R481). -/
def State.tileServes (s : State) (o : Op) : Bool :=
  (List.range 24).any fun j =>
    let i := 24 * s.opHalf o + j
    (s.tileRuns i).any (fun x => x.is o.acct o.ring o.seq)
      || (s.on (Reg.TIL_STA.IN_POOL i) && decide (0 < s.tileCap o.acct (s.opHalf o)) && (!s.on (Reg.TIL_STA.URGENT_ONLY i) || s.classOf o.acct = 0))

/-- The last slice of a running tile op ends: the checks of a slice boundary come first. -/
def State.lastSlice (s : State) (o : Op) : State :=
  if isTileOp o ∧ o.phase = .running ∧ s.computeOn ∧ s.tileServes o ∧ !(s.dlkHeld ∧ s.crossesLink o) then
    let t := s.boundaryOp o false
    match t.opAt o.acct o.ring o.seq with
    | some x => if x.phase = .running then (t.releaseTiles x).setOp { x with phase := .done } else t
    | none => t
  else s

/-- A finished op's outcome record is taken and written, `wr` being how its write to host memory ends. No record is produced while compute
stands still (R58), and an op whose signal the die link holds waits (R30). -/
def State.opComplete (s : State) (a r seq : Nat) (wr : DmaEnd) : State :=
  match s.opAt a r seq with
  | none => s
  | some o =>
    let t := s.lastSlice o
    match t.opAt a r seq with
    | some x => if x.phase = .done ∧ s.computeOn ∧ !t.signalsHeld x then t.completeOp x wr else t
    | none => t

def execOpComplete (a r seq : Nat) (s : State) : Result := .next (s.opComplete a r seq .ok)

/-- The write of an op's record fails: to host memory as `how` tells, to device memory as the access fails. -/
def execCplWriteFail (a r seq : Nat) (how : DmaEnd) (s : State) : Result :=
  .next (if how = .ok ∧ !s.on (Reg.RING_CPL_BASE.LOC (ringIx a r)) then s else s.opComplete a r seq how)

/-- The clerk of the op's half resumes a paused op or completes it. -/
def execExceptionResolve (a r seq : Nat) (resume : Bool) (code : Nat) (s : State) : Result :=
  .next (match s.opAt a r seq with
    | some o =>
      if o.phase ≠ .paused ∨ !s.computeOn ∨ !s.clerkUp (4 + s.opHalf o) ∨ !codeListed (code % 256) then s
      else if resume ∧ !o.abort then (s.setOp { o with phase := .running }).refreshRing o.u
      else if resume then s
      else if code % 256 = Code.OK then s.endOk o 0
      else s.cutOp o ⟨code % 256, 0, 15⟩
    | none => s)

/-! Tallies (R436). -/

/-- A 64-bit write of the tally window adds; a 32-bit write is refused. A VF reaches only its account's range (R70). -/
def State.tallyWrite (s : State) (fn idx size value : Nat) : State :=
  if fn ≠ 0 ∧ !s.ownsTally fn idx then (s.raise 0 1).lastStatus (0x40 + fn) Code.PERMISSION
  else if 262144 ≤ idx then s.raise 0 1
  else if size ≠ 8 then s.raise 0 2
  else s.addTally idx (value % 2 ^ 64)

/-- Where a function sees a tally in its BAR 0 (R68, R69). -/
def State.tallyOffset (s : State) (fn idx : Nat) : Nat := if fn = 0 then 0x1000000 + 8 * idx else 0x80000 + 8 * (idx - s.rd (Reg.ACT_TALLY.FIRST fn))

def execTallyWrite (fn idx size value : Nat) (s : State) : Result :=
  .next (if s.fnLive fn then s.tallyWrite fn idx size value else s.unsupported fn (s.tallyOffset fn idx))

end Sys2Proof.Machine
end

