-- ==== Sys2Proof/Machine/Firmware.lean ====
section
/-!
DEFINITION. Loading, starting and unloading the firmware image (R201-R210, R263, R294, R317).
-/
namespace Sys2Proof.Machine

/-! Sessions (R207, R210, R315). -/

/-- The running session ends: every account gets SESSION_ENDED. -/
def State.endSession (s : State) (next : Nat) : State :=
  let old := s.rd Reg.BOOT_SESSION.SESSION
  (List.range 32).foldl (fun t a => t.notice a 0x0104 (leBytes 4 old ++ leBytes 4 next)) s

/-! The result of a BOOT_CMD. -/

/-- BOOT_LOAD_STA takes a code and the failing check. -/
def State.bootCmdEnd (s : State) (code check : Nat) : State :=
  ((s.wr Reg.BOOT_LOAD_STA.CODE code).wr Reg.BOOT_LOAD_STA.CHECK check).lastStatus 4 code

/-- A load fails at a check: the stage returns to where the LOAD started. -/
def State.loadFailed (s : State) (code check : Nat) : State :=
  let t := (s.bootCmdEnd code check).raise 4 2
  if s.stage = Stage.LOADING then t.setStage s.boot.loadFrom else t

/-- SEC serves requests: its ROM or its loaded section runs. -/
def State.secUp (s : State) : Bool := s.clerkUp 0

/-- LOAD: LOADING, then checks 1 and 2 of R203, whose failure returns the stage (R210). -/
def State.bootLoad (s : State) : State :=
  let g := s.stage
  if g ≠ Stage.AWAIT_FIRMWARE ∧ g ≠ Stage.LOADED_REFUSED then (s.bootCmdEnd Code.LIMIT 1).raise 4 2
  else
    let t := ({ s with boot := { s.boot with loadFrom := g } } : State).setStage Stage.LOADING
    if s.on Reg.BOOT_STA.RAILS_FAULT then t.loadFailed Code.POWER 1
    else if s.rd Reg.BOOT_FW_ADDR.ADDR % 4096 ≠ 0 then t.loadFailed Code.ALIGN 2
    else if s.rd Reg.BOOT_FW_LEN.LEN < 0x200 ∨ 0x2000000 < s.rd Reg.BOOT_FW_LEN.LEN then t.loadFailed Code.LIMIT 2
    else t

def execBootLoad (req : Req) (s : State) : Result := .next (if s.pf req ∧ s.secUp ∧ !s.resetting 4 then s.bootLoad else s)

/-! The staged image (R201-R204, R294, R453). -/

/-- The staging area: at the start of half A's firmware region (log entry 66). -/
def State.stageAddr (s : State) : Nat := s.fwRegion 0

/-- The op library copy of a half: 32 MiB above the start of its firmware region (log entry 66). -/
def State.opLibAddr (s : State) (half : Nat) : Nat := s.fwRegion half + 0x2000000

/-- Checks 4 to 7 of R203 on the staged copy: code and check, OK when all pass. -/
def State.imageCode (s : State) (img : List Byte) : Nat × Nat :=
  if !imgHeaderOk img 2 0x2000000 ∨ s.rd Reg.BOOT_FW_LEN.LEN < Img.totalLen img then (Code.FORMAT, 4)
  else if !s.signatureOk img then (Code.SIGNATURE, 5)
  else if !s.partOk img then (Code.FORMAT, 6)
  else if !fwSectionsOk img then (Code.FORMAT, 7)
  else if !fwFits img then (Code.LIMIT, 7)
  else (Code.OK, 0)

/-- The image that a DMA returned stands in the staging area. -/
def State.stageImage (s : State) (bytes : List Byte) : State := s.writeExtent s.stageAddr (padTo (s.rd Reg.BOOT_FW_LEN.LEN) bytes)

/-- What a copy that fails has brought before its end. -/
def State.stagePart (s : State) (bytes : List Byte) : State := s.writeExtent s.stageAddr (bytes.take (s.rd Reg.BOOT_FW_LEN.LEN))

/-- The bytes of the staging area that a load checks. -/
def State.stagedCopy (s : State) : List Byte := s.load s.stageAddr (s.rd Reg.BOOT_FW_LEN.LEN)

/-- SVC's check of every header (R263). -/
def State.checkHeaders (s : State) : State := vaultRegions.foldl State.readyHeader s

/-- Requests that ran when SVC halted are answered INTERNAL with RESTARTED, and nothing waits for them (R317). -/
def State.answerHalted (s : State) : State :=
  let pairs : List (Nat × Nat) := (0, 1) :: (List.range 32).map fun a => (a, 0)
  let t := pairs.foldl (fun t q =>
    if t.rd (Reg.MBX_STA.STATE q.1 q.2) = 2 then t.replyFlags q.1 q.2 (t.pair q.1 q.2).typ Flag.RESTARTED Code.INTERNAL [] .ok else t) s
  let mine (w : StoreWaiter) : Bool := match w with | .vaultWrite _ _ => true | _ => false
  { t with
    postWait := []
    zeroRun := t.zeroRun.map fun z => (32, 0, z.2.2)
    vault := { t.vault with
      run := t.vault.run.map fun r => { r with waiters := r.waiters.filter fun w => !mine w }
      nextWaiters := t.vault.nextWaiters.filter fun w => !mine w } }

/-- SVC starts: the headers are checked, and halted requests answered. -/
def State.startSvc (s : State) : State := ((s.startClerk 1 ClerkSt.RUNNING 0x101).checkHeaders).answerHalted

/-- A clerk's section in local memory, and what exceeds it in the firmware SRAM share (R294). -/
def State.placeSection (s : State) (n : Nat) (body : List Byte) : State :=
  s.setClerk n { s.clerk n with mem := padTo localBytes (body.take localBytes), share := padTo (sramShare n) (body.drop localBytes) }

/-- A clerk's loaded image starts at its entry; SEC places its section and writes its region table, whose content the manual leaves to the image.
A FAILED clerk stays so until a reset (R303, R335). -/
def State.startLoaded (s : State) (img : List Byte) (n : Nat) : State :=
  if s.clerkSt n = ClerkSt.FAILED then s
  else
  let t := s.placeSection n (match Img.clerk img n with | some x => Img.body img x | none => [])
  let t := if n = 1 then t.startSvc else t.startClerk n ClerkSt.RUNNING (256 * n + 1)
  (t.setClerk n { t.clerk n with regions := t.freeBytes 512 }).skipFree 512

/-- Every check passes (R204): the op library goes into both firmware regions, and the clerks start. -/
def State.fwLoaded (s : State) (img : List Byte) : State :=
  let t := ((s.wr Reg.BOOT_IMAGE.VERSION (Img.version img)).wr Reg.BOOT_IMAGE.PROTO_MAJOR (Img.protoMajor img)).wr
    Reg.BOOT_IMAGE.PROTO_MINOR (Img.protoMinor img)
  let t := [0, 1].foldl (fun t h => t.writeExtent (t.opLibAddr h) (Img.content img 2)) t
  let t := { t with boot := { t.boot with libVersion := Img.libVersion img, manifest := Img.content img 3, firstPwr := true
                                          imageLen := Img.totalLen img, digest := Img.digest img } }
  let t := (List.range 48).foldl (fun t k => t.wr (Reg.TIL_LIBVER.VERSION k) (Img.libVersion img)) t
  let t := (List.range 6).foldl (fun t n => t.startLoaded img n) t
  ((t.bootCmdEnd Code.OK 0).raise 4 1).setStage Stage.LOADED

/-- The copy ends: a failed host read ends the load at check 3, with what was copied before it in the staging area, else the staged copy alone is
checked (R203, R217). -/
def State.loadComplete (s : State) (dma : DmaEnd) (img : List Byte) : State :=
  match dma with
  | .ok =>
    let t := s.stageImage img
    let img := t.stagedCopy
    let c := t.imageCode img
    let t := t.wr Reg.BOOT_LOAD_STA.KEY_SLOT (Img.keySlot img)
    if c.1 = Code.OK then t.fwLoaded img else t.loadFailed c.1 c.2
  | e => (s.stagePart img).loadFailed (dmaCode e) 3

def execLoadComplete (dma : DmaEnd) (img : List Byte) (s : State) : Result :=
  .next (if s.stage = Stage.LOADING ∧ s.secUp then s.loadComplete dma img else s)

/-! Unloading (R208, R209). -/

/-- Every ring with an admitted op, or not DISABLED, or under an abort. -/
def State.ringsInUse (s : State) : List Nat :=
  (s.liveRings ++ s.ops.map Op.u ++ (List.range 1024).filter fun u => s.on (Reg.RING_ABORT_STA.BUSY u)).eraseDups

/-- Steps 1 and 2 of R208. -/
def State.startUnload (s : State) : State :=
  let t := if s.stage = Stage.RUNNING then s.endSession 0 else s
  let t := (List.range 32).foldl (fun t a => if a = 0 then t else t.wrb (Reg.CTL.ENABLE (0x40 + a)) false) t
  (t.ringsInUse.foldl State.abortRing t).setStage Stage.UNLOADING

def execBootUnload (req : Req) (s : State) : Result :=
  .next (
    if !(s.pf req) ∨ !s.secUp ∨ s.resetting 4 then s
    else if s.stage = Stage.LOADED ∨ s.stage = Stage.RUNNING ∨ s.stage = Stage.LOADED_REFUSED then s.startUnload
    else if s.stage = Stage.AWAIT_FIRMWARE then s.bootCmdEnd Code.ALREADY_DONE 0
    else s.bootCmdEnd Code.LIMIT 0)

/-- The ROM safe loop gates no tile and leaves the HBM caps at 16 (R360). -/
def State.romLoop (s : State) : State :=
  let t := (s.wr Reg.PWR_LOOP_STA.LEVEL 3).wrb Reg.PWR_LOOP_STA.SAFE true
  let t := (List.range 8).foldl (fun t k => t.wr (Reg.THM_HBM_CAP.SIXTEENTHS k) 16) t
  let t := { t with gated := 0 }
  ((List.range 48).filter (bit s.gated)).foldl State.tileSettle t

/-- Step 4: the loaded components halt; SEC and PWR return to their ROMs. A FAILED clerk stays so (R335), and so does a halted SEC (R304). -/
def State.unloadClerks (s : State) : State :=
  let off (t : State) (n : Nat) : State := if t.clerkSt n = ClerkSt.FAILED then t else t.wr (Reg.FWP_STA.STATE n) ClerkSt.OFF
  let t := [1, 3, 4, 5].foldl off s.romLoop
  let t := if t.secUp then t.startClerk 0 ClerkSt.ROM 0 else t
  let t := if t.clerkSt 2 = ClerkSt.FAILED then t else t.startClerk 2 ClerkSt.ROM 0x200
  ({ t with boot := { t.boot with firstPwr := false } } : State).holdSafeClock

/-- Every aborted op of a ring has its record. -/
def State.settleAborts (s : State) : State :=
  s.ringsInUse.foldl (fun t u => if t.on (Reg.RING_ABORT_STA.BUSY u) then t.abortDone u else t) s

def execUnloadComplete (s : State) : Result :=
  .next (
    if s.stage ≠ Stage.UNLOADING ∨ !s.secUp then s
    else
      let t := s.settleAborts
      if !t.ops.isEmpty then t
      else (t.unloadClerks.bootCmdEnd Code.OK 0).setStage Stage.AWAIT_FIRMWARE)

end Sys2Proof.Machine
end

