-- ==== Sys2Proof/Machine/Accounts.lean ====
section
/-!
DEFINITION. The PCIe endpoint, accounts and their life: BAR 2, enabling, drain and scrub, function-level and device resets, SR-IOV, MSI-X and
the link (R373-R395, R399, R94, R186, R210).
-/
namespace Sys2Proof.Machine

/-! Identity (R373). -/

/-- What PCX presents of a function in configuration space. -/
structure Identity where
  vendor : Nat
  device : Nat
  classCode : Nat
  serial : Nat
  maxPayload : Nat
  maxReadRequest : Nat
  totalVfs : Nat
  firstVfOffset : Nat
  vfStride : Nat
  noSoftReset : Bool
  vectors : Nat
deriving DecidableEq, Repr, Inhabited

/-- The identity and capabilities of R373; the serial number is GLB_CHIP_ID. -/
def State.identity (s : State) (fn : Nat) : Identity :=
  ⟨0x1C5A, if fn = 0 then 0x2800 + s.rd Reg.GLB_PART.PART_CODE else 0x2810, 0x120000, s.rd Reg.GLB_CHIP_ID.CHIP_ID, 512, 4096, 31, 1, 1, true,
    if fn = 0 then 2048 else 64⟩

/-! BAR 2 (R376). -/

def State.aperture (s : State) (a off : Nat) : Nat := s.rd (Reg.ACT_APER.BASE a) * granule + off

/-- The check of an inbound request, granule by granule. -/
def State.bar2Code (s : State) (a off n : Nat) (wr : Bool) : Nat :=
  if !s.on (Reg.ACT_APER.ENABLE a) then Code.PERMISSION
  else
    let lo := s.aperture a off
    let gs := (List.range ((lo + n - 1) / granule - lo / granule + 1)).map fun i => lo / granule + i
    ((gs.map fun g =>
      let x := max lo (g * granule)
      let k := min (lo + n) ((g + 1) * granule) - x
      if View.inWindow s.rd a x k (!wr) wr then Code.OK
      else if View.inWindow s.rd a x k false false then Code.PERMISSION else Code.BOUNDS).find? (· ≠ Code.OK)).getD Code.OK

/-- A refused request: counted, its event, and PCX_UR_LOG. -/
def State.bar2Refused (s : State) (a off code : Nat) : State :=
  let t := (s.count (Reg.ACT_PERM_CNT.COUNT a) 1).raise (0x40 + a) 2
  let t := ((t.wr Reg.PCX_UR_LOG.OFFSET off).wr Reg.PCX_UR_LOG.FUNCTION a).wr Reg.PCX_UR_LOG.BAR 2
  (t.wr Reg.PCX_UR_LOG.CODE code).raise 9 3

/-- A request reaches a BAR 2 that exists and is large enough. -/
def State.bar2Hit (s : State) (a off n : Nat) : Bool :=
  decide (a < 32) && s.fnLive a && decide (1 ≤ n) && decide (n ≤ 4096) && decide (off + n ≤ s.bar2Size a)

/-- A read that passes: data, a poisoned completion, a Completer Abort from a faulted stack (R489), or line reads that wait for a retrain. -/
def State.bar2Read (s : State) (a addr n : Nat) : State :=
  let ls := grains addr n
  if ls.any s.stackBusy then
    ls.foldl (fun t l => if t.stackBusy l then t.holdHbm (.hbmRead l 2 a 0) else t.hbmRead l 2 a 0) s
  else
    let t := ls.foldl (fun t l =>
      match t.stackAt l with
      | some k => if t.stackFaulted k then t
          else
            let r := t.decodeLine k l 2 a 0 Err.UNCORRECTABLE_READ Err.POISON_READ
            if r.2 then r.1 else r.1.pciePoison 2 a
      | none => t) s
    match s.readFault addr n with
    | some (code, _) => t.emit (.memFail addr code)
    | none => t.emit (.memData addr (s.load addr n))

def execBar2Read (a off n : Nat) (s : State) : Result :=
  .next (
    if a < 32 ∧ !s.fnLive a then s.unsupportedRead a off
    else if !s.bar2Hit a off n then s
    else if s.bar2Code a off n false ≠ Code.OK then (s.bar2Refused a off (s.bar2Code a off n false)).emit (.unsupportedRequest a off)
    else if !s.computeOn then s.lostRead (s.aperture a off) n
    else s.bar2Read a (s.aperture a off) n)

/-- A write that passes: line by line under the partial-write rules. -/
def State.bar2Write (s : State) (a addr : Nat) (bytes : List Byte) (be : List Bool) : State :=
  (grains addr bytes.length).foldl (fun t l =>
    let inside (i : Nat) : Bool := decide (addr ≤ l + i) && decide (l + i < addr + bytes.length) && be.getD (l + i - addr) true
    let bs := (List.range 64).map fun i => if inside i then bytes.getD (l + i - addr) 0 else 0
    let es := (List.range 64).map inside
    if t.stackBusy l then t.holdHbm (if es.all id then .hbmFullWrite l bs else .hbmPartialWrite l 2 a 0 bs es)
    else if es.all id then t.hbmFullWrite l bs
    else t.hbmPartialWrite l 2 a 0 bs es) s

def execBar2Write (a off : Nat) (bytes : List Byte) (be : List Bool) (s : State) : Result :=
  .next (
    if a < 32 ∧ !s.fnLive a then s.unsupported a off
    else if !s.bar2Hit a off bytes.length then s
    else if s.bar2Code a off bytes.length true ≠ Code.OK then s.bar2Refused a off (s.bar2Code a off bytes.length true)
    else if !s.computeOn then s
    else s.bar2Write a (s.aperture a off) bytes be)

/-! Enabling an account (R392). -/

/-- Why CTL.ENABLE = 1 of an account is refused. -/
def State.enableRefusal (s : State) (a : Nat) : Nat :=
  if 0 < a ∧ s.stage ≠ Stage.RUNNING then Code.VERSION
  else if !s.fnExists a then Code.ABSENT
  else if s.on (Reg.ACT_STA.LOCKED a) then Code.PERMISSION
  else if s.on (Reg.ACT_STA.FLR a) then Code.LIMIT
  else Code.OK

/-- CTL.ENABLE takes writes of the PF; a VF's ACT page is read-only to it (R70). -/
def execAccountEnable (req : Req) (a : Nat) (on : Bool) (s : State) : Result :=
  .next (
    if 0 < a ∧ req = .fn a ∧ s.reqLive req then s.raise (0x40 + a) 24
    else if !(s.pf req) ∨ 32 ≤ a ∨ s.on (Reg.CTL.SOFT_RESET (0x40 + a)) then s
    else if !on then s.wrb (Reg.CTL.ENABLE (0x40 + a)) false
    else if s.enableRefusal a = Code.OK then s.wrb (Reg.CTL.ENABLE (0x40 + a)) true
    else (s.raise (0x40 + a) 5).lastStatus (0x40 + a) (s.enableRefusal a))

/-! Drain and scrub (R389-R391). -/

/-- ACCT_RULES is answered: EPOCH, REASON, PAGE and APPLIED_AT (R396). -/
def State.acctRulesReply (s : State) (w : PostWait) : State :=
  let code := s.rd (Reg.GLB_POST_STA.CODE 1)
  let bs := leBytes 4 (s.epochOf w.account) ++ leBytes 4 (s.rd (Reg.GLB_POST_STA.REASON 1)) ++ leBytes 4 (s.rd (Reg.GLB_POST_STA.PAGE 1))
    ++ zeros 4 ++ leBytes 8 (s.rd (Reg.GLB_POST_AT.NS 1))
  ({ s with postWait := tblSet default s.postWait 1 default } : State).answer w.a w.p code bs

/-- An ACCT_RULES that waits for the drain of an account is answered once it is drained. -/
def State.drainReply (s : State) (a : Nat) : State :=
  let w := tblGet default s.postWait 1
  if w.active ∧ w.drained ∧ w.account = a ∧ s.postSt 1 = PostSt.APPLIED ∧ s.on (Reg.ACT_STA.DRAINED a) then s.acctRulesReply w else s

/-- The zero-fill of the banks an account lost; those of the secure region are also verified. -/
def State.startScrub (s : State) (a : Nat) : State :=
  [0, 1].foldl (fun t h =>
    let m := tblGet 0 t.scrub (2 * a + h)
    (t.startWipe h (m &&& t.secureMask h)).startFill h (m &&& (2 ^ 48 - 1 - t.secureMask h))) s

/-- No access of the old epoch remains. -/
def State.drainedNow (s : State) (a : Nat) : State :=
  let t := ((s.wrb (Reg.ACT_STA.DRAINED a) true).wr (Reg.ACT_DRAIN_AT.NS a) s.now).wr (Reg.ACT_OLD.LOCAL a) 0
  let t := (t.wr (Reg.ACT_OLD.REMOTE a) 0).raise (0x40 + a) 0
  (t.startScrub a).drainReply a

def execDrained (a : Nat) (s : State) : Result :=
  .next (if a < 32 ∧ !s.on (Reg.ACT_STA.DRAINED a) ∧ (s.oldOps a).isEmpty ∧ s.oldHeld a = 0 ∧ (s.oldReqs a).isEmpty then (s.checkEpoch a).drainedNow a else s)

def State.scrubOver (s : State) (a : Nat) : Bool := [0, 1].all fun h => tblGet 0 s.scrub (2 * a + h) &&& s.wiping h = 0

def execScrubDone (a : Nat) (s : State) : Result :=
  .next (
    if a < 32 ∧ s.on (Reg.ACT_STA.SCRUBBING a) ∧ s.on (Reg.ACT_STA.DRAINED a) ∧ s.scrubOver a then
      let t := { s with scrub := tblSet 0 (tblSet 0 s.scrub (2 * a) 0) (2 * a + 1) 0 }
      (t.wrb (Reg.ACT_STA.SCRUBBING a) false).raise (0x40 + a) 3
    else s)

/-! Function-level reset (R393, R394). -/

/-- No access of an account remains (step 3). -/
def State.acctQuiet (s : State) (a : Nat) : Bool :=
  (s.ops.all fun o => o.acct ≠ a) && (s.requests.all fun r => r.owner.1 ≠ a) && s.heldAccesses a s.uptime = 0

/-- Step 4 begins: the account's banks are zero-filled, its secure share wiped and verified. -/
def State.startFlrFill (s : State) (a : Nat) : State :=
  let t := [0, 1].foldl (fun t h =>
    let m := t.ownedBanks a h
    (t.startWipe h (m &&& t.secureMask h)).startFill h (m &&& (2 ^ 48 - 1 - t.secureMask h))) s
  { t with flrFill := setBit t.flrFill a true }

/-- Steps 1 and 2 for one account; an FLR in progress is joined. -/
def State.flrAccount (s : State) (a : Nat) : State :=
  if s.on (Reg.ACT_STA.FLR a) then s
  else
    let f := Reg.PCX_FLR_STA.FLR
    let t := ((s.wr f (setBit (s.rd f) a true)).wrb (Reg.ACT_STA.FLR a) true).wrb (Reg.CTL.ENABLE (0x40 + a)) false
    let t := ((t.raise 9 2).ringsInUse.filter fun u => u / 32 = a).foldl State.abortRing (t.raise 9 2)
    if t.acctQuiet a then t.startFlrFill a else t

/-- The pair states, the notice ring counts and attachment of an account's MBX page return to reset (R311, R333). -/
def State.resetMbx (s : State) (a : Nat) : State :=
  let t := [0, 1].foldl (fun t p => t.setCell (Reg.MBX_STA.STATE a p).key 0) s
  let t := if s.rd (Reg.MBX_STA.SESSION a 0) = 0 then t else
    (if a = 0 then [0, 1] else [0]).foldl (fun t p => t.wr (Reg.MBX_STA.SESSION a p) (s.rd Reg.BOOT_SESSION.SESSION)) t
  (t.wr (Reg.NTC_HEAD.COUNT a) 0).wr (Reg.NTC_TAIL.COUNT a) 0

/-- Every ring page of an account takes its reset values. -/
def State.resetRings (s : State) (a : Nat) : State :=
  let lo := 0x3000000 + 0x20000 * a
  let t := { s with regs := s.regs.filter (fun e => !(decide (lo ≤ e.1) && decide (e.1 < lo + 0x20000)))
                    rings := s.rings.filter (fun e => e.1 / 32 ≠ a) }
  t.refreshDsp

/-- MSI-X of a function as at reset. -/
def State.resetMsix (s : State) (a : Nat) : State :=
  { s with msixOn := tblSet false s.msixOn a false
           msixMask := s.msixMask.filter (fun e => e.1 / 2048 ≠ a)
           msixPend := s.msixPend.filter (fun e => e.1 / 2048 ≠ a) }

/-- Steps 5 to 7. -/
def State.finishFlr (s : State) (a : Nat) : State :=
  let first := s.rd (Reg.ACT_TALLY.FIRST a)
  let n := 64 * s.rd (Reg.ACT_TALLY.UNITS a)
  let t := (s.resetRings a)
  let t := { t with tallies := t.tallies.filter fun e => !(decide (first ≤ e.1) && decide (e.1 < first + n)) }
  let fs := (List.range (s.rd (Reg.ACT_FOLIO.COUNT a))).map fun i => s.rd (Reg.ACT_FOLIO.FIRST a) + i
  let t := fs.foldl (fun t f => if (t.folio f).st = 0 then t else t.closeFolio f) t
  let f := Reg.PCX_FLR_STA.FLR
  let t := ((t.resetMbx a).resetMsix a)
  let t := { (t.wr f (setBit (t.rd f) a false)) with flrFill := setBit t.flrFill a false }
  (t.wrb (Reg.ACT_STA.FLR a) false).raise (0x40 + a) 4

/-- A function-level reset goes on as far as it can: step 4 begins once the account is quiet, and steps 5 to 7 follow its wipes. -/
def State.flrDone (s : State) (a : Nat) : State :=
  let t := (s.ringsInUse.filter fun u => u / 32 = a).foldl (fun t u => if t.on (Reg.RING_ABORT_STA.BUSY u) then t.abortDone u else t) s
  if !t.acctQuiet a then t
  else
    let t := if bit t.flrFill a then t else t.startFlrFill a
    if [0, 1].all fun h => t.ownedBanks a h &&& t.wiping h = 0 then t.finishFlr a else t

def execFlrDone (fn : Nat) (s : State) : Result := .next (if fn < 32 ∧ s.on (Reg.ACT_STA.FLR fn) then s.flrDone fn else s)

/-- What an FLR of the PF does to slot 0 (R94). -/
def State.disturb (s : State) : State :=
  if s.slotBusy 0 ∧ !(s.slot 0).strobed then
    s.endSlot 0 PostSt.REJECTED Code.ABORTED Reason.DISTURBED 0
  else s

/-- What an FLR of the PF does to the boot stage (R210). -/
def State.stageFlr (s : State) : State :=
  if s.stage = Stage.LOADING then s.loadFailed Code.ABORTED 0
  else if s.stage = Stage.RUNNING then (s.endSession 0).setStage Stage.LOADED
  else s

/-- The configuration space of the PF returns to reset: VF Enable and the BAR 2 sizes. -/
def State.resetConfig (s : State) : State := (s.setCell Reg.PCX_VF_STA.NUM_VFS.key 0).setCell Reg.PCX_BAR2.PF_LOG2.key 0

/-- An FLR of the PF resets account 0 and every VF account (R394). -/
def State.flrPf (s : State) : State := ((List.range 32).foldl State.flrAccount s.disturb.stageFlr).resetConfig

def execFlr (fn : Nat) (s : State) : Result :=
  .next (if !s.hostReady then s.retryConfig fn else if !s.fnExists fn then s else if fn = 0 then s.flrPf else s.flrAccount fn)

/-! SR-IOV (R374, R394). -/

/-- A configuration write that sets VF Enable or raises NumVFs, with the BAR 2 sizes as the configuration space then holds them (R375). -/
def execVfEnable (numVfs pfLog2 vfLog2 : Nat) (s : State) : Result :=
  .next (
    let size (l : Nat) : Bool := l = 0 || (decide (30 ≤ l) && decide (l ≤ 38))
    if !s.hostReady then s.retryConfig 0
    else if 31 < numVfs ∨ !(size pfLog2) ∨ !(size vfLog2) ∨ (s.on Reg.PCX_VF_STA.VF_ENABLE ∧ numVfs < s.rd Reg.PCX_VF_STA.NUM_VFS) then s
    else ((s.wrb Reg.PCX_VF_STA.VF_ENABLE true).wr Reg.PCX_VF_STA.NUM_VFS numVfs).wr Reg.PCX_BAR2.PF_LOG2 pfLog2 |>.wr Reg.PCX_BAR2.VF_LOG2 vfLog2)

/-- Clearing VF Enable, or lowering NumVFs: every account whose VF ceases to exist is reset. -/
def execVfDisable (numVfs : Nat) (enable : Bool) (s : State) : Result :=
  .next (
    if !s.hostReady then s.retryConfig 0
    else if !s.on Reg.PCX_VF_STA.VF_ENABLE ∨ 31 < numVfs ∨ (enable ∧ s.rd Reg.PCX_VF_STA.NUM_VFS ≤ numVfs) then s
    else
      let gone := (List.range 32).filter fun a => decide (0 < a) && s.fnExists a && !(enable && decide (a ≤ numVfs))
      let t := gone.foldl State.flrAccount s
      (t.wrb Reg.PCX_VF_STA.VF_ENABLE enable).wr Reg.PCX_VF_STA.NUM_VFS numVfs)

/-! Device resets (R395). -/

/-- PCX_DEV_RESET takes a matched write of 1 from the PF. -/
def execDeviceReset (req : Req) (value : Nat) (env : BootEnv) (s : State) : Result :=
  .next (
    if !(s.pf req) then s
    else match cfVal (value % 2 ^ 64) with
      | none => s.raise 9 25
      | some v => if v = 1 then (s.enterReset true).bootStart { env with strap := s.rd Reg.BOOT_STA.STRAP } false else s.lastStatus 9 Code.FORMAT)

/-- A hot reset, a secondary bus reset or link-down: configuration space resets, and a device reset follows. PCIe is down while halted and in
RECOVERY, which only PERST_N leaves (R175, R183). -/
def execLinkReset (env : BootEnv) (s : State) : Result :=
  .next (
    if s.on Reg.PCX_LINK_STA.UP ∧ s.stage ≠ Stage.HALTED ∧ s.stage ≠ Stage.RECOVERY then (s.enterReset false).bootStart { env with strap := s.rd Reg.BOOT_STA.STRAP } false
    else s)

/-! HBM_ZERO's end (R396). -/

def execHbmZeroDone (wr : DmaEnd) (s : State) : Result :=
  .next (
    match s.zeroRun with
    | some (a, p, base, n) =>
      let t := ({ s with zeroRun := none } : State).zeroRange base n
      if 32 ≤ a then t else (t.setPair a p { t.pair a p with wr := wr }).answer a p Code.OK []
    | none => s)

/-! MSI-X and the link (R186, R378, R399). -/

/-- The page whose EVT_PEND a vector follows. -/
def vectorPage (fn v : Nat) : Option Nat :=
  if v = 0 then some (0x20 + fn) else if v = 1 then some (0x40 + fn) else if fn = 0 ∧ 64 ≤ v then some (v - 64) else none

/-- A configuration or table write leaves a vector masked or not, with the function's MSI-X Enable. -/
def State.msixUnmask (s : State) (fn v : Nat) (masked enable : Bool) : State :=
  let k := vecKey fn v
  let t := { s with msixOn := tblSet false s.msixOn fn enable, msixMask := tblSet true s.msixMask k masked }
  if masked ∨ !(tblGet false t.msixPend k) then t
  else
    let due : Bool := match vectorPage fn v with | some pg => decide (t.evtPend pg ≠ 0) | none => true
    let t := { t with msixPend := tblSet false t.msixPend k false }
    if due && enable then t.emit (.msix fn v) else t

/-- A configuration write, or a write of the MSI-X table of BAR 4 (its offset, size and byte enables): a table write that R66 refuses sets
BAD_ACCESS on the GLB page and changes nothing. -/
def execMsixUnmask (fn vector : Nat) (enable : Bool) (mask : MaskWrite) (s : State) : Result :=
  .next (
    if !s.hostReady then (if mask.access.isNone then s.retryConfig fn else s)
    else if !s.fnExists fn then s
    else if mask.access.any fun x => badAccess x.1 x.2.1 x.2.2 then s.raise 0 2
    else if vector < (if fn = 0 then 2048 else 64) then s.msixUnmask fn vector mask.masked enable else s)

/-- The link trains or changes: PCX_LINK_STA, LINK_CHANGE and DEGRADED. It trains from reset's end at any boot step, but not while halted or in
RECOVERY (R171, R183, R186). -/
def execPcieLinkUp (speed width : Nat) (s : State) : Result :=
  .next (
    if s.stage = Stage.RESET ∨ s.stage = Stage.HALTED ∨ s.stage = Stage.RECOVERY ∨ speed = 0 ∨ 6 < speed ∨ !([1, 2, 4, 8, 16].contains width) then s
    else
      let degraded := decide (speed < 6) || decide (width < 16)
      let t := ((s.wr Reg.PCX_LINK_STA.SPEED speed).wr Reg.PCX_LINK_STA.WIDTH width).wrb Reg.PCX_LINK_STA.FLIT (speed = 6)
      let t := (t.wrb Reg.PCX_LINK_STA.DEGRADED degraded).wrb Reg.PCX_LINK_STA.UP true
      if t.cell Reg.PCX_LINK_STA.SPEED.key = s.cell Reg.PCX_LINK_STA.SPEED.key then t
      else if degraded then (t.raise 9 0).raise 9 1 else t.raise 9 0)

end Sys2Proof.Machine
end

