-- ==== Sys2Proof/Machine/OtpReq.lean ====
section
/-!
DEFINITION. The programming requests of the fuse array, as SEC executes them for a Jezama message or a board management frame
(R159-R169, R177, R316).
-/
namespace Sys2Proof.Machine

/-- How a request ended: the state, its status code and its reply payload. -/
structure Served where
  st : State
  code : Nat
  payload : List Byte

/-- A request refused before anything is burnt; one that names no row leaves OTP_LAST_PROG as it is (log entry 12). -/
def State.refuse (s : State) (code : Nat) : Served := ⟨s, code, []⟩

/-- A request for a row, refused before anything is burnt. -/
def State.refuseRow (s : State) (row code : Nat) : Served := ⟨s.lastProg row code, code, []⟩

/-- The reply of a row's programming: spare index or 0xFFFF_FFFF, and extra pulses. -/
def Programmed.served (r : Programmed) (row : Nat) : Served :=
  ⟨(r.done row).st, r.code, leBytes 4 (match r.spare with | some k => k | none => 0xFFFFFFFF) ++ leBytes 4 r.extra⟩

/-- Revoking slot `k` would leave no SEALED slot that is not revoked (R164). -/
def State.lastKey (s : State) (k : Nat) : Bool := s.keyUsable k && ([0, 1, 2].all fun j => j = k || !s.keyUsable j)

/-- OTP_PROGRAM (R161, R167): payload ROW, reserved, DATA. -/
def State.otpProgramReq (s : State) (p : List Byte) (burns : List Burn) : Served :=
  let row := fieldAt p 0 4
  if p.length ≠ 16 ∨ 2048 ≤ row ∨ fieldAt p 4 4 ≠ 0 then s.refuse Code.FORMAT
  else if !s.rowPermitted row then s.refuseRow row Code.LIFECYCLE
  else if appendContent row = some (fieldAt p 8 8) ∧ s.lastKey (row - 88) then s.refuseRow row Code.LIMIT
  else (s.programRow row (fieldAt p 8 8) burns).served row

/-- The state in force permits sealing region `g` (R152, R161). -/
def State.sealPermitted (s : State) (g : Nat) : Bool :=
  s.sealOf g ≠ .crcFail && (s.lc = Lc.MANUFACTURE || (s.lc = Lc.PROVISIONED && decide (2 ≤ g) && decide (g ≤ 5)))

/-- A data row of a region could not be retired: the region cannot be sealed (R178). -/
def State.regionUnretired (s : State) (g : Nat) : Bool := s.unretired.any fun r => regionOf r = some g

/-- OTP_SEAL (R166): payload REGION; the reply carries the CRC. A region with a row that could not be retired is refused with LIMIT (log
entry 12). -/
def State.otpSealReq (s : State) (p : List Byte) (burns : List Burn) : Served :=
  let g := fieldAt p 0 4
  if p.length ≠ 4 then s.refuse Code.FORMAT
  else if 9 ≤ g then s.refuse Code.BOUNDS
  else if s.sealed g then ⟨s.lastProg (regionRows g).2.2 Code.ALREADY_DONE, Code.ALREADY_DONE, leBytes 4 (s.regionCrc g)⟩
  else if !s.sealPermitted g then s.refuseRow (regionRows g).2.2 Code.LIFECYCLE
  else if s.regionUnretired g then s.refuseRow (regionRows g).2.2 Code.LIMIT
  else
    let row := (regionRows g).2.2
    { (s.programRow row (cfOf (s.regionCrc g)) burns).served row with payload := leBytes 4 (s.regionCrc g) }

/-- OTP_REVOKE (R164): payload SLOT. -/
def State.otpRevokeReq (s : State) (p : List Byte) (burns : List Burn) : Served :=
  let k := fieldAt p 0 4
  if p.length ≠ 4 then s.refuse Code.FORMAT
  else if 3 ≤ k then s.refuse Code.BOUNDS
  else if !s.rowPermitted (88 + k) then s.refuseRow (88 + k) Code.LIFECYCLE
  else if s.lastKey k then s.refuseRow (88 + k) Code.LIMIT
  else { (s.programRow (88 + k) (cfOf (0x5A00 + k)) burns).served (88 + k) with payload := [] }

/-- A ring of some account runs, or an account other than 0 is enabled (R163). RING_STA.STATE 1 is RUNNING, 2 DRAINING. -/
def State.accountsLive (s : State) : Bool :=
  (s.regs.any fun e => decide (0x3000000 ≤ e.1) && e.1 % 0x1000 = 0x20 && (e.2.toNat % 4 = 1 || e.2.toNat % 4 = 2))
    || (List.range 31).any fun a => s.on (Reg.CTL.ENABLE (0x41 + a))

/-- The lifecycle row that the state the device booted in permits to be programmed (R161, R162). -/
def State.lcPermits (s : State) (target : Nat) : Bool :=
  if s.lc = Lc.BLANK then target = Lc.MANUFACTURE
  else if s.lc = Lc.FIELD then target = Lc.RETURN
  else if s.lc = Lc.RETURN then target = Lc.SCRAPPED
  else s.lc ≠ Lc.SCRAPPED

/-- A transition to a state may start: the state in force permits its row, the table of R159 has it from the state in the array, its
seals hold (R160), and while a transition is torn it is that one (R177). -/
def State.lcAllowed (s : State) (target : Nat) : Bool :=
  s.lcPermits target && lcEdge s.lcFromRows target && s.sealsAllow target &&
    match s.lcTorn with
    | some t => t = target
    | none => true

/-- The refusal of LC_TRANSITION (R159-R163); OK where the transition starts. Payload TARGET as a counterfoil. -/
def State.lcRefusal (s : State) (p : List Byte) : Nat :=
  match cfVal (fieldAt p 0 8) with
  | none => Code.FORMAT
  | some target =>
    if p.length ≠ 8 then Code.FORMAT
    else if target = s.lcFromRows ∧ s.lcTorn = none then Code.ALREADY_DONE
    else if !s.lcAllowed target then Code.LIFECYCLE
    else if s.accountsLive then Code.LIMIT else Code.OK

/-- The refusal of a transition request as OTP_LAST_PROG records it: the row of its target, where it names one. -/
def State.lcRefused (s : State) (p : List Byte) : State :=
  match cfVal (fieldAt p 0 8) with
  | some t => if p.length = 8 ∧ 1 ≤ t ∧ t ≤ 5 then s.lastProg (31 + t) (s.lcRefusal p) else s
  | none => s

/-- A transition starts (R162): the secure banks are wiped; where compute was unpowered since the last PERST_N or device reset, the wipe is
recorded as done and the account areas follow at once. -/
def State.lcStart (s : State) (target : Nat) (bmc : Bool) (burns : List Burn) : State :=
  let t := ({ s with lcRun := ⟨.wipe, target, bmc, burns⟩ } : State).wrb Reg.OTP_STA.BUSY true
  if t.computeRan then (t.wipeSecure).lcWiped else t.lcWiped

/-- The store of a transition has sealed: its lifecycle row is programmed, and the transition ends with the code (R162). OTP_STA.STATE and
OTP_LC keep the state the device booted in until the next reset, since it governs until then (log entry 12). -/
def State.lcBurn (s : State) : State × Nat :=
  let target := s.lcRun.target
  let r := (s.programRow (31 + target) (cfOf target) s.lcRun.burns).done (31 + target)
  let t := ({ r.st with lcRun := default } : State).wrb Reg.OTP_STA.BUSY false
  let t := t.wrb Reg.OTP_STA.TORN t.lcTorn.isSome
  (if r.code = Code.OK then t.raise 3 3 else t, r.code)

end Sys2Proof.Machine
end

