-- ==== Sys2Proof/Machine/Posting.lean ====
section
/-!
DEFINITION. Posting: starting and cancelling actions, checking, the apply strobe and edge, the second check, and the end of a discard
(R79-R94).
-/
namespace Sys2Proof.Machine

/-! Who owns a slot (R78). -/

/-- Slot 2 belongs to PWR while a loaded PWR image runs, otherwise to SEC. -/
def State.ownsSlot (s : State) (q : Req) (n : Nat) : Bool :=
  s.reqLive q &&
    (if n = 0 then q.isPf
     else if n = 1 then q = .svc
     else if n = 2 then q = (if s.boot.firstPwr then .pwr else .sec)
     else q = .fab)

/-! The answers that wait for a slot's end (R396, R671). -/

/-- GROUP_PROMOTE is answered: REASON, PAGE and APPLIED_AT. -/
def State.promoteReply (s : State) (w : PostWait) : State :=
  let bs := leBytes 4 (s.rd (Reg.GLB_POST_STA.REASON 3)) ++ leBytes 4 (s.rd (Reg.GLB_POST_STA.PAGE 3)) ++ leBytes 8 (s.rd (Reg.GLB_POST_AT.NS 3))
  ({ s with postWait := tblSet default s.postWait 3 default } : State).answer w.a w.p (s.rd (Reg.GLB_POST_STA.CODE 3)) bs

/-- A clerk discards the staged values of a page, unless another slot's action holds it frozen (R83). -/
def State.discardFree (s : State) (pg : Nat) : State :=
  if bit (s.rd Reg.GLB_POST_BUSY.GROUPS) (s.postGroup pg) then s else s.discardPage pg

/-- The request behind a post of SVC's or FAB's is answered; a rejected post's staged values are discarded. -/
def State.postReply (s : State) (n : Nat) : State :=
  let w := tblGet default s.postWait n
  if !w.active then s
  else if w.promote then (if s.postSt n = PostSt.REJECTED then s.discardFree 0x280 else s).promoteReply w
  else if s.postSt n = PostSt.REJECTED then (s.discardFree (0x40 + w.account)).acctRulesReply w
  else if w.drained then s.drainReply w.account
  else s.acctRulesReply w

/-- A slot's action ends, and the request that waits for it is answered. -/
def State.postEnd (s : State) (n st code reason page : Nat) : State :=
  let t := s.setSlot n { s.slot n with strobed := false, recheck := false }
  (t.endSlot n st code reason page).postReply n

/-! Starting an action (R79-R82). -/

/-- The ACK of a start of POST, CHECK_ONLY or DISCARD. -/
def State.startAck (s : State) (n token : Nat) : Nat :=
  if token = 0 then Code.FORMAT
  else if s.slotBusy n then Code.LIMIT
  else if token = s.rd (Reg.GLB_POST_STA.TOKEN n) then Code.DUPLICATE
  else Code.OK

/-- An accepted start. CODE, REASON and PAGE of an earlier rejected action clear, as R92 uses REASON 0 only when no post has been
rejected and names no other instant at which they would (log entry 63). -/
def State.startAction (s : State) (n action mask token : Nat) : State :=
  let t := s.setCell (Reg.GLB_POST_CTL.MASK n).key (BitVec.ofNat 64 (cfOf (mask + token * 65536)))
  let t := (t.wr (Reg.GLB_POST_STA.TOKEN n) token).setSlot n ⟨action, mask, action = 0 && t.on (Reg.GLB_POST_MODE.TIMED n), t.rd (Reg.GLB_POST_TIME.NS n), false, false⟩
  if mask &&& t.rd Reg.GLB_POST_BUSY.GROUPS ≠ 0 then t.postEnd n PostSt.REJECTED Code.LIMIT Reason.GROUP_BUSY 0
  else
    let t := ((t.wr (Reg.GLB_POST_STA.STATE n) PostSt.CHECKING).wr (Reg.GLB_POST_STA.CODE n) 0).wr (Reg.GLB_POST_STA.REASON n) 0
    (t.wr (Reg.GLB_POST_STA.PAGE n) 0).refreshBusy

/-- A matched write of GLB_POST_CTL by the slot's owner with GLB_POST_MODE at the given action. -/
def State.post (s : State) (q : Req) (n action mask token : Nat) : State :=
  let tok := token % 65536
  if 4 ≤ n ∨ !s.ownsSlot q n ∨ s.rd (Reg.GLB_POST_MODE.ACTION n) ≠ action then s
  else
    let ack := s.startAck n tok
    let t := s.wr (Reg.GLB_POST_STA.ACK n) ack
    if ack = Code.OK then t.startAction n action (mask % 65536) tok else t

def execPost (req : Req) (slot mask token : Nat) (s : State) : Result := .next (s.post req slot 0 mask token)
def execCheckOnly (req : Req) (slot mask token : Nat) (s : State) : Result := .next (s.post req slot 1 mask token)
def execDiscard (req : Req) (slot mask token : Nat) (s : State) : Result := .next (s.post req slot 2 mask token)

/-- The ACK of a CANCEL; one that comes after the apply strobe is too late (R93). -/
def State.cancelAck (s : State) (n token : Nat) : Nat :=
  let st := s.postSt n
  if token = 0 then Code.FORMAT
  else if token ≠ s.rd (Reg.GLB_POST_STA.TOKEN n) then Code.PERMISSION
  else if st = PostSt.APPLIED then Code.TOO_LATE
  else if !s.slotBusy n then Code.ALREADY_DONE
  else if (s.slot n).action = 2 ∨ (s.slot n).strobed then Code.TOO_LATE
  else Code.OK

def State.cancel (s : State) (n mask token : Nat) : State :=
  let ack := s.cancelAck n token
  let t := s.wr (Reg.GLB_POST_STA.ACK n) ack
  if ack = Code.OK then
    (t.setCell (Reg.GLB_POST_CTL.MASK n).key (BitVec.ofNat 64 (cfOf (mask + token * 65536)))).postEnd n PostSt.REJECTED Code.ABORTED Reason.CANCELLED 0
  else t

def execCancel (req : Req) (slot mask token : Nat) (s : State) : Result :=
  .next (
    if 4 ≤ slot ∨ !s.ownsSlot req slot ∨ s.rd (Reg.GLB_POST_MODE.ACTION slot) ≠ 3 then s
    else s.cancel slot (mask % 65536) (token % 65536))

/-! Checking (R84-R90). -/

/-- The first time condition that rejects a timed post (R89). -/
def State.timeRefusal (s : State) (t : Nat) : Option (Nat × Nat) :=
  if !s.on Reg.GLB_TIME_FRAC.SYNCED then some (Code.LINK_NOT_READY, Reason.TIME_UNSYNCED)
  else if t < s.now + 100 then some (Code.TOO_LATE, Reason.TIME_PAST)
  else if s.now + 2 ^ 34 < t then some (Code.BOUNDS, Reason.TIME_RANGE)
  else none

/-- Checking of a POST or CHECK_ONLY completes. -/
def State.checked (s : State) (n : Nat) : State :=
  let x := s.slot n
  match s.runChecker x.mask with
  | some (pg, v) => s.postEnd n PostSt.REJECTED v.code v.reason pg
  | none =>
    if x.action = 1 then s.postEnd n PostSt.CHECKED Code.OK 0 0
    else if !x.timed then s.setSlot n { x with strobed := true }
    else match s.timeRefusal x.time with
      | some (code, reason) => s.postEnd n PostSt.REJECTED code reason 0
      | none => s.wr (Reg.GLB_POST_STA.STATE n) PostSt.ARMED

def execPostCheckDone (slot : Nat) (s : State) : Result :=
  .next (if slot < 4 ∧ s.postSt slot = PostSt.CHECKING ∧ (s.slot slot).action ≠ 2 ∧ !(s.slot slot).strobed then s.checked slot else s)

def execPostStrobe (slot : Nat) (s : State) : Result :=
  .next (
    let x := s.slot slot
    if slot < 4 ∧ s.postSt slot = PostSt.ARMED ∧ !x.strobed ∧ !x.recheck ∧ x.time ≤ s.now + 80 then s.setSlot slot { x with strobed := true } else s)

/-! The apply edge (R87, R88, R90, R91). -/

/-- Armed posts of the other slots, their strobes not issued, are checked again. -/
def State.startRechecks (s : State) (n : Nat) : State :=
  (List.range 4).foldl (fun t k =>
    if k ≠ n ∧ t.postSt k = PostSt.ARMED ∧ !(t.slot k).strobed then t.setSlot k { t.slot k with recheck := true } else t) s

/-- The apply edge of slot `n`. -/
def State.applyEdge (s : State) (n badFormat : Nat) : State :=
  let m := (s.slot n).mask
  let compute := (s.pagesIn m).any computePage
  if compute ∧ (!s.computePowered || s.on Reg.VLT_STA.COMPUTE_CUT) then s.postEnd n PostSt.REJECTED Code.POWER Reason.COMPUTE_OFF 0
  else if compute ∧ !s.dlkUp then s.postEnd n PostSt.REJECTED Code.LINK_NOT_READY Reason.DIE_LINK 0
  else
    let t := (s.applyMask n m badFormat).wr (Reg.GLB_POST_AT.NS n) s.now
    (t.startRechecks n).postEnd n PostSt.APPLIED Code.OK 0 0

def execPostApply (slot badFormat : Nat) (s : State) : Result :=
  .next (
    let x := s.slot slot
    if slot < 4 ∧ s.slotBusy slot ∧ x.strobed ∧ (!x.timed || decide (x.time ≤ s.now)) then s.applyEdge slot badFormat else s)

/-- The second check of an armed post ends, in time or not. -/
def State.rechecked (s : State) (n : Nat) (inTime : Bool) : State :=
  let x := s.slot n
  if !inTime ∨ x.time < s.now + 100 then s.postEnd n PostSt.REJECTED Code.TOO_LATE Reason.TIME_PAST 0
  else match s.runChecker x.mask with
    | some (pg, v) => s.postEnd n PostSt.REJECTED v.code v.reason pg
    | none => s.setSlot n { x with recheck := false }

def execPostRecheckDone (slot : Nat) (inTime : Bool) (s : State) : Result :=
  .next (if slot < 4 ∧ s.postSt slot = PostSt.ARMED ∧ (s.slot slot).recheck then s.rechecked slot inTime else s)

/-- A DISCARD has copied the live values (R82). -/
def execDiscardDone (slot : Nat) (s : State) : Result :=
  .next (
    if slot < 4 ∧ s.postSt slot = PostSt.CHECKING ∧ (s.slot slot).action = 2 then
      ((s.pagesIn (s.slot slot).mask).foldl State.discardPage s).postEnd slot PostSt.IDLE Code.OK 0 0
    else s)

end Sys2Proof.Machine
end

