-- ==== Sys2Proof/Machine/Mailbox.lean ====
section
/-!
DEFINITION. Jezama mailboxes: the doorbell, the checks of a request, sessions, and the requests that SVC serves from the board image, the
firmware image, the Vault and the fuse array (R307-R317, R328, R331).
-/
namespace Sys2Proof.Machine

/-! Doorbells (R308, R310). -/

/-- Account 0 has two pairs, the others one. -/
def pairExists (a p : Nat) : Bool := decide (a < 32) && (p = 0 || (p = 1 && a = 0))

def execMbxDoorbell (a fn p seq : Nat) (s : State) : Result :=
  .next (
    if fn ≠ a ∨ !pairExists a p then s
    else if !s.fnLive a then s.unsupported a (if a = 0 then (Reg.MBX_DOORBELL.SEQ a p).key else (Reg.MBX_DOORBELL.SEQ a p).key % 0x1000)
    else if s.resetting (0x20 + a) then s
    else if s.rd (Reg.MBX_STA.STATE a p) = 0 ∨ s.rd (Reg.MBX_STA.STATE a p) = 3 then
      (s.setPair a p { s.pair a p with seq := seq % 2 ^ 32 }).wr (Reg.MBX_STA.STATE a p) 1
    else ((s.count (Reg.MBX_CNT.REFUSED a p) 1).raise (0x20 + a) 2).lastStatus (0x20 + a) Code.LIMIT)

/-! A message (R309). -/

/-- A request message. -/
structure Jz where
  major : Nat
  minor : Nat
  session : Nat
  typ : Nat
  flags : Nat
  seq : Nat
  payload : List Byte
deriving DecidableEq, Repr, Inhabited

/-- Words 0-2 with their complements, the payload length and the reserved flags (check 3 of R310). -/
def jzHeaderOk (b : List Byte) : Bool :=
  fieldAt b 0 4 = 0x414D5A4A && ([0, 4, 8].all fun o => fieldAt b o 4 + fieldAt b (o + 12) 4 = 2 ^ 32 - 1)
    && decide (fieldAt b 0x1C 4 ≤ 4064) && decide (fieldAt b 0xA 1 < 16)

def jzOf (b : List Byte) : Jz :=
  ⟨fieldAt b 4 1, fieldAt b 5 1, fieldAt b 6 2, fieldAt b 8 2, fieldAt b 0xA 1, fieldAt b 0x18 4, padTo (fieldAt b 0x1C 4) (b.drop 32)⟩

/-- The request types of the catalogue (R315). -/
def jzRequests : List Nat :=
  [0x0001, 0x0004, 0x0010, 0x0011, 0x0012, 0x0013, 0x0020, 0x0021, 0x0030, 0x0031, 0x0032, 0x0033, 0x0040, 0x0041, 0x0060, 0x0061,
    0x0070, 0x0071, 0x0072, 0x0073]

/-- The pairs a request type is allowed on; the owner of 0x0070-0x0073 looks at the group itself. -/
def jzAllowed (typ a p : Nat) : Bool :=
  if typ = 0x0004 then p = 0
  else if typ = 0x0020 ∨ typ = 0x0021 then p = 0 && a ≠ 0
  else if typ = 0x0060 ∨ (0x0070 ≤ typ ∧ typ ≤ 0x0073) then true
  else p = 1

/-- What the checks of R310 make of a fetched request: a failure of checks 2-4, a repeat, a failure of checks 6-10, or a good request. -/
inductive MbxCheck where
  | early (code : Nat)
  | repeated
  | failed (typ code : Nat)
  | good (m : Jz)
deriving DecidableEq, Repr

def State.mbxCheck (s : State) (a p : Nat) (f : Fetch) : MbxCheck :=
  match f with
  | .ok b =>
    let m := jzOf b
    let q := s.pair a p
    let open_ := m.typ = 0x0001 || m.typ = 0x0004
    if !jzHeaderOk b ∨ m.seq ≠ q.seq then .early Code.FORMAT
    else if s.on (Reg.MBX_STA.SEQ_VALID a p) ∧ m.seq = s.rd (Reg.MBX_LAST_SEQ.SEQ a p) then .repeated
    else if s.stage ≠ Stage.RUNNING ∧ !((s.stage = Stage.LOADED ∨ s.stage = Stage.LOADED_REFUSED) ∧ m.typ = 0x0001) then .failed m.typ Code.VERSION
    else if !jzRequests.contains m.typ then .failed m.typ Code.FORMAT
    else if !jzAllowed m.typ a p then .failed m.typ Code.PERMISSION
    else if !open_ && !(s.on (Reg.MBX_STA.ATTACHED a p) && m.major = q.major && m.minor = q.minor) then .failed m.typ Code.VERSION
    else if !open_ && m.session ≠ s.rd Reg.BOOT_SESSION.SESSION then .failed m.typ Code.EPOCH
    else .good m
  | _ => .early (fetchCode f)

/-- (FM, Fm). -/
def State.protoBytes (s : State) : List Byte := leBytes 2 (s.rd Reg.BOOT_IMAGE.PROTO_MAJOR) ++ leBytes 2 (s.rd Reg.BOOT_IMAGE.PROTO_MINOR)

/-- The stored reply with DUPLICATE set in its flags and their complement (R311). -/
def duplicateReply (b : List Byte) : List Byte :=
  let w2 := fieldAt b 8 4
  let w := if bit w2 17 then w2 else w2 + 2 ^ 17
  b.take 8 ++ leBytes 4 w ++ (b.drop 12).take 8 ++ leBytes 4 (2 ^ 32 - 1 - w) ++ b.drop 24

/-- A pair that is not attached answers at the request's version. -/
def State.speak (s : State) (a p : Nat) (f : Fetch) : State :=
  match f with
  | .ok b => if s.on (Reg.MBX_STA.ATTACHED a p) then s else s.setPair a p { s.pair a p with major := (jzOf b).major, minor := (jzOf b).minor }
  | _ => s

/-- The reply to a request that fails check 6 or a later one: its own TYPE, but REFUSE with (FM, Fm) for HELLO and ATTACH (R315, R316). -/
def State.refuseRequest (s : State) (a p typ code : Nat) (wr : DmaEnd) : State :=
  if typ = 0x0001 ∨ typ = 0x0004 then s.reply a p 0x0003 code s.protoBytes wr else s.reply a p typ code [] wr

/-- The reply of a request that fails checks 2-10. -/
def State.mbxFailed (s : State) (a p : Nat) (f : Fetch) (wr : DmaEnd) : State :=
  match s.mbxCheck a p f with
  | .early code => s.replyEarly a p 0 code wr
  | .repeated =>
    let b := (s.pair a p).reply
    (s.count (Reg.MBX_CNT.DUPLICATES a p) 1).deliver a p (fieldAt b 0xB 1) (duplicateReply b) wr
  | .failed typ code => (s.speak a p f).refuseRequest a p typ code wr
  | .good _ => s

/-- SVC handles a fetched request of one type: its own meaning if it passes the checks, the reply of the failing check otherwise. Nothing
happens while no request is in FETCH or SVC does not run. -/
def State.request (s : State) (a p typ : Nat) (f : Fetch) (wr : DmaEnd) (run : State → Jz → State) : State :=
  if !pairExists a p ∨ s.rd (Reg.MBX_STA.STATE a p) ≠ 1 ∨ !s.svcUp then s
  else match s.mbxCheck a p f with
    | .good m => if m.typ = typ then run (s.speak a p f) m else s
    | _ => s.mbxFailed a p f wr

def execMbxBadMessage (a p : Nat) (m : Fetch) (wr : DmaEnd) (s : State) : Result :=
  .next (if !pairExists a p ∨ s.rd (Reg.MBX_STA.STATE a p) ≠ 1 ∨ !s.svcUp then s else s.mbxFailed a p m wr)

/-- Answer a request of a type with a code and a payload. -/
def State.respond (s : State) (a p : Nat) (m : Jz) (code : Nat) (payload : List Byte) (wr : DmaEnd) : State := s.reply a p m.typ code payload wr

/-! Sessions (R205, R312). -/

/-- The image serves a version. -/
def State.serves (s : State) (m : Jz) : Bool := m.major = s.rd Reg.BOOT_IMAGE.PROTO_MAJOR && decide (m.minor ≤ s.rd Reg.BOOT_IMAGE.PROTO_MINOR)

/-- The pairs of every account. -/
def allPairs : List (Nat × Nat) := (0, 1) :: (List.range 32).map fun a => (a, 0)

/-- WELCOME: a new session, the admin pair attached and every other pair detached. -/
def State.welcome (s : State) (m : Jz) (wr : DmaEnd) : State :=
  let new := s.rd Reg.BOOT_SESSION.SESSION % 65535 + 1
  let running := s.stage = Stage.RUNNING
  let old := s
  let t := ((s.wr Reg.BOOT_SESSION.SESSION new).wr Reg.BOOT_SESSION.DRV_MAJOR m.major).wr Reg.BOOT_SESSION.DRV_MINOR m.minor
  let t := allPairs.foldl (fun t q => (t.wr (Reg.MBX_STA.SESSION q.1 q.2) new).wrb (Reg.MBX_STA.ATTACHED q.1 q.2) (q = (0, 1))) t
  let t := (t.setPair 0 1 { t.pair 0 1 with major := m.major, minor := m.minor }).setStage Stage.RUNNING
  let t := if running then (List.range 32).foldl (fun t a => t.notice a 0x0104 (leBytes 4 (old.rd Reg.BOOT_SESSION.SESSION) ++ leBytes 4 new)) t else t
  t.reply 0 1 0x0002 Code.OK (t.protoBytes ++ leBytes 2 new ++ zeros 2) wr

/-- REFUSE of a HELLO: the session ends and the stage becomes LOADED_REFUSED. -/
def State.refuseHello (s : State) (wr : DmaEnd) : State :=
  let t := if s.stage = Stage.RUNNING then s.endSession 0 else s
  ((t.setStage Stage.LOADED_REFUSED).raise 4 3).reply 0 1 0x0003 Code.VERSION t.protoBytes wr

def execHello (a p : Nat) (m : Fetch) (wr : DmaEnd) (s : State) : Result :=
  .next (s.request a p 0x0001 m wr fun t x =>
    if x.payload.length ≠ 8 ∨ fieldAt x.payload 4 4 ≠ 0 then t.refuseRequest a p x.typ Code.FORMAT wr
    else if t.stage = Stage.LOADED_REFUSED ∨ !t.serves x then t.refuseHello wr
    else t.welcome x wr)

def execAttach (a p : Nat) (m : Fetch) (wr : DmaEnd) (s : State) : Result :=
  .next (s.request a p 0x0004 m wr fun t x =>
    if x.payload.length ≠ 0 then t.refuseRequest a p x.typ Code.FORMAT wr
    else if t.serves x then
      let u := (t.setPair a p { t.pair a p with major := x.major, minor := x.minor }).wrb (Reg.MBX_STA.ATTACHED a p) true
      u.reply a p 0x0005 Code.OK u.protoBytes wr
    else (t.wrb (Reg.MBX_STA.ATTACHED a p) false).reply a p 0x0003 Code.VERSION t.protoBytes wr)

/-! Reads of stored data (R316). -/

/-- A read of OFFSET and LENGTH from data. -/
def State.readRequest (s : State) (a p : Nat) (m : Jz) (data : List Byte) (wr : DmaEnd) : State :=
  if m.payload.length ≠ 8 then s.respond a p m Code.FORMAT [] wr
  else if 4056 < fieldAt m.payload 4 4 then s.respond a p m Code.BOUNDS [] wr
  else s.respond a p m Code.OK (leBytes 4 data.length ++ zeros 4 ++ (data.drop (fieldAt m.payload 0 4)).take (fieldAt m.payload 4 4)) wr

/-- The board's vital product data; empty without an accepted board image (R215). -/
def State.vpd (s : State) : List Byte := match s.boot.board with | some b => Img.content b 0x12 | none => []

def execVpdRead (a p : Nat) (m : Fetch) (wr : DmaEnd) (s : State) : Result :=
  .next (s.request a p 0x0010 m wr fun t x => t.readRequest a p x t.vpd wr)

def execManifestRead (a p : Nat) (m : Fetch) (wr : DmaEnd) (s : State) : Result :=
  .next (s.request a p 0x0011 m wr fun t x => t.readRequest a p x t.boot.manifest wr)

/-! Trace and dumps (R328, R331). -/

def State.traceCfg (s : State) (a p : Nat) (m : Jz) (wr : DmaEnd) : State :=
  let base := fieldAt m.payload 0 8
  let en := fieldAt m.payload 8 4
  if m.payload.length ≠ 44 ∨ 2 ≤ en then s.respond a p m Code.FORMAT [] wr
  else if base % 0x4000000 ≠ 0 ∨ !View.inWindow s.rd 0 base 0x4000000 false false ∨ s.meetsFw base 0x4000000 then s.respond a p m Code.BOUNDS [] wr
  else
    (({ s with trace := ⟨base, en = 1, fieldAt m.payload 12 32, 0, 0⟩ } : State).zeroRange base 4096).respond a p m Code.OK [] wr

def execTraceCfg (a p : Nat) (m : Fetch) (wr : DmaEnd) (s : State) : Result :=
  .next (s.request a p 0x0012 m wr fun t x => t.traceCfg a p x wr)

def State.dumpClear (s : State) (a p : Nat) (m : Jz) (wr : DmaEnd) : State :=
  let n := fieldAt m.payload 0 4
  if m.payload.length ≠ 4 then s.respond a p m Code.FORMAT [] wr
  else if 8 ≤ n ∧ n ≠ 0xFF then s.respond a p m Code.BOUNDS [] wr
  else
    (((List.range 8).filter fun d => n = 0xFF || d = n).foldl (fun t d => (t.readyHeader (dumpRegion d)).setPtr (dumpRegion d) 0x10 0) s).respond a p m Code.OK [] wr

def execDumpClear (a p : Nat) (m : Fetch) (wr : DmaEnd) (s : State) : Result :=
  .next (s.request a p 0x0013 m wr fun t x => t.dumpClear a p x wr)

/-! The account areas of the Vault (R264, R316, R381). -/

/-- The largest offset of an area's body. -/
abbrev areaBody : Nat := 0x1FFC0

/-- How OFFSET and LENGTH of an area access fail. -/
def State.areaCode (s : State) (a off len most : Nat) : Nat :=
  if s.on (Reg.ACT_STA.NO_VAULT a) then Code.PERMISSION
  else if off % 8 ≠ 0 ∨ len % 8 ≠ 0 then Code.ALIGN
  else if most < len ∨ areaBody < off + len then Code.BOUNDS else Code.OK

def State.vaultReadReq (s : State) (a p : Nat) (m : Jz) (wr : DmaEnd) : State :=
  let off := fieldAt m.payload 0 4
  let len := fieldAt m.payload 4 4
  if m.payload.length ≠ 8 then s.respond a p m Code.FORMAT [] wr
  else
    let c := s.areaCode a off len 4064
    s.respond a p m c (if c = Code.OK then bytesAt s.vault.sram ((accountRegion a).base + 0x40 + off) len else []) wr

def execVaultRead (a p : Nat) (m : Fetch) (wr : DmaEnd) (s : State) : Result :=
  .next (s.request a p 0x0020 m wr fun t x => t.vaultReadReq a p x wr)

/-- DATA first, then VALID into HEAD_PTR, then the store if it is asked for. -/
def State.vaultWriteReq (s : State) (a p : Nat) (m : Jz) (wr : DmaEnd) : State :=
  let off := fieldAt m.payload 0 4
  let len := fieldAt m.payload 4 4
  let valid := fieldAt m.payload 8 4
  let flags := fieldAt m.payload 12 4
  if m.payload.length ≠ 16 + len ∨ 2 ≤ flags then s.respond a p m Code.FORMAT [] wr
  else
    let c := s.areaCode a off len 4048
    if c ≠ Code.OK then s.respond a p m c [] wr
    else
      let r := accountRegion a
      let t := (s.readyHeader r).vaultWrite (r.base + 0x40 + off) (m.payload.drop 16)
      let t := if valid = 0xFFFFFFFF then t else t.setPtr r 0x10 valid
      if flags = 0 then t.respond a p m Code.OK [] wr
      else
        let q := (t.busy a p m.typ wr).requestStore 1 [.vaultWrite a p]
        if q.2 then q.1.answer a p Code.ALREADY_DONE [] else q.1

def execVaultWrite (a p : Nat) (m : Fetch) (wr : DmaEnd) (s : State) : Result :=
  .next (s.request a p 0x0021 m wr fun t x => t.vaultWriteReq a p x wr)

/-! Fuses and lifecycle (R159-R167): SEC executes them, one at a time. -/

/-- A request that SEC executes waits in FETCH while SEC is halted or a lifecycle transition runs. -/
def State.fuseRequest (s : State) (a p typ : Nat) (f : Fetch) (wr : DmaEnd) (run : State → Jz → State) : State :=
  if !s.secUp ∨ s.lcRun.phase ≠ .none then s else s.request a p typ f wr run

/-- Answer with what SEC made of a request. -/
def Served.respond (r : Served) (a p : Nat) (m : Jz) (wr : DmaEnd) : State := r.st.respond a p m r.code r.payload wr

def execOtpProgram (a p : Nat) (m : Fetch) (wr : DmaEnd) (burns : List Burn) (s : State) : Result :=
  .next (s.fuseRequest a p 0x0030 m wr fun t x => (t.otpProgramReq x.payload burns).respond a p x wr)

def execOtpSeal (a p : Nat) (m : Fetch) (wr : DmaEnd) (burns : List Burn) (s : State) : Result :=
  .next (s.fuseRequest a p 0x0031 m wr fun t x => (t.otpSealReq x.payload burns).respond a p x wr)

def execOtpRevoke (a p : Nat) (m : Fetch) (wr : DmaEnd) (burns : List Burn) (s : State) : Result :=
  .next (s.fuseRequest a p 0x0032 m wr fun t x => (t.otpRevokeReq x.payload burns).respond a p x wr)

def execLcTransition (a p : Nat) (m : Fetch) (wr : DmaEnd) (burns : List Burn) (s : State) : Result :=
  .next (s.fuseRequest a p 0x0033 m wr fun t x =>
    let c := t.lcRefusal x.payload
    if c ≠ Code.OK then (t.lcRefused x.payload).respond a p x c [] wr
    else (t.busy a p x.typ wr).lcStart ((cfVal (fieldAt x.payload 0 8)).getD 0) false burns)

end Sys2Proof.Machine
end

