-- ==== Sys2Proof/Machine/Admin.lean ====
section
/-!
DEFINITION. Account, fabric, time and group administration: ACCT_RULES and HBM_ZERO (R396), FABRIC_STATUS and TIME_SET (R618), GROUP_DEFINE,
GROUP_PROMOTE, GROUP_RELEASE and GROUP_QUERY (R669-R671).
-/
namespace Sys2Proof.Machine

/-! Posts by the clerks (R78, R83). -/

/-- Some slot's action is CHECKING or ARMED. -/
def State.postRunning (s : State) : Bool := (List.range 4).any s.slotBusy

/-- A token that differs from the slot's and is not 0 (log entry 25). -/
def State.newToken (s : State) (n : Nat) : Nat :=
  let v := 1 + Config.freeNat s.free % 65534
  let cur := s.rd (Reg.GLB_POST_STA.TOKEN n)
  if cur ≠ 0 ∧ cur ≤ v then v + 1 else v

/-- A clerk posts a mask through its slot, timed or not, for a request that waits; a start that is not accepted answers it at once. -/
def State.clerkPost (s : State) (q : Req) (n mask : Nat) (timed : Bool) (time : Nat) (w : PostWait) : State :=
  if s.slotBusy n then s.answer w.a w.p Code.LIMIT []
  else
    let t := ((s.wr (Reg.GLB_POST_MODE.ACTION n) 0).wrb (Reg.GLB_POST_MODE.TIMED n) timed).wr (Reg.GLB_POST_TIME.NS n) time
    ({ t with postWait := tblSet default t.postWait n w } : State).skipFree 1 |>.post q n 0 mask (t.newToken n)

/-! ACCT_RULES (R396). -/

/-- The image of the rule registers as a function of the offset: 384 bytes from 0x080. -/
def ruleBytes (rules : List Byte) (o n : Nat) : Nat := fieldAt rules (o - 0x80) n

/-- No byte or bit of a RULES image lies outside the fields of the registers. -/
def rulesReservedOk (rules : List Byte) : Bool :=
  let rows := (List.range 384).map fun i => (regRowAt (0x40080 + i), 0x80 + i)
  rows.all fun x =>
    match x.1 with
    | some (r, key) => r.posted && bits r.rw (8 * (x.2 - key % 0x1000)) 8 ||| (rules.getD (x.2 - 0x80) 0).toNat = bits r.rw (8 * (x.2 - key % 0x1000)) 8
    | none => (rules.getD (x.2 - 0x80) 0).toNat = 0

/-- SVC writes a RULES image to the staged view of an ACT page. -/
def State.stageRules (s : State) (a : Nat) (rules : List Byte) : State :=
  (postedKeys (0x40 + a)).foldl (fun t key =>
    match regRowAt key with
    | some (r, _) => t.stageFld ⟨key, 0, 64⟩ (ruleBytes rules (key % 0x1000) r.bytes)
    | none => t) s

def State.acctRules (s : State) (a p : Nat) (m : Jz) (wr : DmaEnd) : State :=
  let acct := fieldAt m.payload 0 4
  let flags := fieldAt m.payload 4 4
  let rules := m.payload.drop 16
  let pg := 0x40 + acct
  let outside := s.postGroup pg ≠ 3
  if m.payload.length ≠ 400 ∨ 4 ≤ flags ∨ !rulesReservedOk rules then s.respond a p m Code.FORMAT [] wr
  else if 32 ≤ acct then s.respond a p m Code.BOUNDS [] wr
  else if outside ∧ s.postRunning then s.respond a p m Code.LIMIT [] wr
  else if (s.pagesIn 8).any fun q => q ≠ pg && s.rd (Reg.STAGE_DIRTY.CLUSTER q) ≠ 0 then s.respond a p m Code.LIMIT [] wr
  else
    let t := if outside then s.wr (Reg.POST_GRP.GROUP pg) 3 else s
    let t := if t.slotBusy 1 then t else if bit (t.rd Reg.GLB_POST_BUSY.GROUPS) 3 then t.raise pg 24 else t.stageRules acct rules
    (t.busy a p m.typ wr).clerkPost .svc 1 8 (bit flags 0) (fieldAt m.payload 8 8) ⟨a, p, true, false, acct, bit flags 1, []⟩

def execAcctRules (a p : Nat) (m : Fetch) (wr : DmaEnd) (s : State) : Result :=
  .next (s.request a p 0x0040 m wr fun t x => t.acctRules a p x wr)

/-! HBM_ZERO (R396). -/

/-- A range meets a window of an enabled account other than 0. -/
def State.meetsWindow (s : State) (base n : Nat) : Bool :=
  (List.range 32).any fun a => a ≠ 0 && s.on (Reg.CTL.ENABLE (0x40 + a)) && (List.range 16).any fun w =>
    rangesMeet base n (s.rd (Reg.ACT_WIN_BASE.BASE a w) * granule) (s.rd (Reg.ACT_WIN_CTL.SIZE a w) * granule)

def State.hbmZeroCode (s : State) (p : List Byte) : Nat :=
  let base := fieldAt p 0 8
  let g := fieldAt p 8 4
  let n := g * granule
  if p.length ≠ 16 ∨ fieldAt p 12 4 ≠ 0 then Code.FORMAT
  else if base % granule ≠ 0 then Code.ALIGN
  else if g = 0 ∨ 196608 < g then Code.BOUNDS
  else if hbmBase 1 + 0x003000000000 < base + n then Code.BOUNDS
  else if s.touchesAbsent base n then Code.ABSENT
  else if s.meetsFw base n then Code.PERMISSION
  else if s.meetsWindow base n ∨ (List.range 32).any (fun a => !s.on (Reg.ACT_STA.DRAINED a)) then Code.LIMIT
  else Code.OK

/-- The zeroing runs until HBM_ZERO_DONE; a request behind a running one stays in FETCH. -/
def execHbmZero (a p : Nat) (m : Fetch) (wr : DmaEnd) (s : State) : Result :=
  .next (
    if s.zeroRun.isSome then s
    else s.request a p 0x0041 m wr fun t x =>
      let c := t.hbmZeroCode x.payload
      if c ≠ Code.OK then t.respond a p x c [] wr
      else { (t.busy a p x.typ wr) with zeroRun := some (a, p, fieldAt x.payload 0 8, fieldAt x.payload 8 4 * granule) })

/-! Fabric and time (R618): SVC with FAB. -/

/-- A request that FAB serves with SVC waits in FETCH while FAB does not run (R305). -/
def State.fabRequest (s : State) (a p typ : Nat) (f : Fetch) (wr : DmaEnd) (run : State → Jz → State) : State :=
  if s.clerkSt 3 = ClerkSt.RUNNING then s.request a p typ f wr run else s

/-- The bytes of a 32-bit register. -/
def State.regBytes (s : State) (key : Nat) : List Byte := leBytes 4 (s.cell key).toNat

def State.fabricStatus (s : State) (a p : Nat) (m : Jz) (wr : DmaEnd) : State :=
  if m.payload.length ≠ 0 then s.respond a p m Code.FORMAT [] wr
  else
    let ports := (List.range 18).flatMap fun i => s.regBytes (Reg.FPT_STA.STATE i).key ++ s.regBytes (Reg.FPT_PEER.NODE i).key
    s.respond a p m Code.OK (leBytes 4 (s.rd Reg.XPT_NODE.NODE) ++ ports) wr

def execFabricStatus (a p : Nat) (m : Fetch) (wr : DmaEnd) (s : State) : Result :=
  .next (s.fabRequest a p 0x0060 m wr fun t x => t.fabricStatus a p x wr)

def State.timeSet (s : State) (a p : Nat) (m : Jz) (wr : DmaEnd) : State :=
  if m.payload.length ≠ 8 then s.respond a p m Code.FORMAT [] wr
  else if s.role ≠ Role.ROOT then s.respond a p m Code.PERMISSION [] wr
  else if s.on Reg.TSY_STA.TIME_SET ∨ s.postArmed then s.respond a p m Code.LIMIT [] wr
  else
    let t := ({ s with timeFine := fieldAt m.payload 0 8 * 2 ^ 56 } : State).wrb Reg.TSY_STA.TIME_SET true
    (t.setSynced true).respond a p m Code.OK [] wr

def execTimeSet (a p : Nat) (m : Fetch) (wr : DmaEnd) (s : State) : Result :=
  .next (s.fabRequest a p 0x0061 m wr fun t x => t.timeSet a p x wr)

/-! Groups (R634-R637, R669-R671). -/

/-- The pair may name a group: the admin pair and account 0 any, another account those of its range. -/
def State.groupAllowed (s : State) (a g : Nat) : Bool :=
  a = 0 || (decide (s.rd (Reg.ACT_GROUPS.FIRST a) ≤ g) && decide (g < s.rd (Reg.ACT_GROUPS.FIRST a) + s.rd (Reg.ACT_GROUPS.COUNT a)))

/-- Node IDs in the member area without the PENDING version of group `g`. -/
def State.memberArea (s : State) (g : Nat) : Nat :=
  s.groups.foldl (fun n e =>
    let vs := [e.2.live, e.2.retained, if e.1 = g then none else e.2.pending].filterMap id
    n + (vs.map fun v => v.list.length).sum) 0

/-- A member can be reached (R670). -/
def State.memberOk (s : State) (n : Nat) : Bool :=
  n = s.node || (if n / 16 = s.node / 16 then decide (s.meshPort (n % 16) < 18) && s.portPresent (s.meshPort (n % 16)) else !s.planes.isEmpty)

/-- The version that a GROUP_DEFINE payload describes, its list read from device memory. -/
def State.groupDescriptor (s : State) (p : List Byte) : GroupVer :=
  let n := fieldAt p 4 4
  let bs := s.load (fieldAt p 32 8) (2 * n)
  let list := (List.range n).map fun i => fieldAt bs (2 * i) 2
  let ms := fieldAt p 28 4
  ⟨(cfVal (fieldAt p 8 8)).getD 0, fieldAt p 16 4, fieldAt p 2 1, fieldAt p 3 1, fieldAt p 24 4, fieldAt p 20 4, if ms = 0 then 10000 else ms,
    list, (list.findIdx? (· = s.node)).getD 0⟩

/-- The checks of R670 before the list is read. -/
def State.groupFields (s : State) (a : Nat) (p : List Byte) : Nat :=
  let g := fieldAt p 0 2
  let n := fieldAt p 4 4
  let ms := fieldAt p 28 4
  let list := fieldAt p 32 8
  if p.length ≠ 48 ∨ fieldAt p 40 8 ≠ 0 then Code.FORMAT
  else if !s.groupAllowed a g then Code.PERMISSION
  else if 4096 ≤ g then Code.BOUNDS
  else if !((cfVal (fieldAt p 8 8)).any fun e => decide (e < 65536)) ∨ 5 ≤ fieldAt p 2 1 ∨ 4 ≤ fieldAt p 3 1 ∨ n = 0 ∨ 65536 < n
      ∨ fieldAt p 20 4 = 0 ∨ n < fieldAt p 20 4 ∨ fieldAt p 24 4 = 0 ∨ 2 ^ 30 < fieldAt p 24 4 ∨ 600000 < ms then Code.FORMAT
  else if 2 ^ 52 < list + 2 * n then Code.BOUNDS
  else if s.extentRule a list (2 * n) true false ≠ Code.OK then s.extentRule a list (2 * n) true false
  else match s.readFault list (2 * n) with
    | some f => f.1
    | none => Code.OK

/-- The checks of R670 on the list, and what follows them. -/
def State.groupCode (s : State) (g : Nat) (v : GroupVer) : Nat :=
  if !(v.list.contains s.node) ∨ !distinct v.list then Code.FORMAT
  else if !v.list.all s.memberOk then Code.ABSENT
  else if (s.group g).live.any fun l => l.epoch = v.epoch then Code.EPOCH
  else if 16777216 < s.memberArea g + v.list.length then Code.LIMIT else Code.OK

def State.groupDefine (s : State) (a p : Nat) (m : Jz) (wr : DmaEnd) : State :=
  let c := s.groupFields a m.payload
  if c = Code.POISON then
    (s.noteFault ((s.readFault (fieldAt m.payload 32 8) (2 * fieldAt m.payload 4 4)).getD (c, 0)) false Source.PCIE a).respond a p m c [] wr
  else if c ≠ Code.OK then s.respond a p m c [] wr
  else
    let g := fieldAt m.payload 0 2
    let v := s.groupDescriptor m.payload
    let c := s.groupCode g v
    if c ≠ Code.OK then s.respond a p m c [] wr
    else
      ({ s with groups := tblSet default s.groups g { s.group g with pending := some v } } : State).respond a p m Code.OK (leBytes 4 v.rank ++ zeros 4) wr

def execGroupDefine (a p : Nat) (m : Fetch) (wr : DmaEnd) (s : State) : Result :=
  .next (s.fabRequest a p 0x0070 m wr fun t x => t.groupDefine a p x wr)

/-- FAB stages one COL_A slot for each group with the epoch of its PENDING version; the other slots stay. -/
def State.stagePromotes (s : State) (gs : List Nat) : State :=
  gs.zipIdx.foldl (fun t x =>
    let e := match (t.group x.1).pending with | some v => v.epoch | none => 0
    ((t.stageFld (Reg.COL_PROMOTE.GROUP 0 x.2) x.1).stageFld (Reg.COL_PROMOTE.VALID 0 x.2) 1).stageCf (Reg.COL_PROMOTE_EPOCH.EPOCH 0 x.2) e) s

def State.groupPromote (s : State) (a p : Nat) (m : Jz) (wr : DmaEnd) : State :=
  let flags := fieldAt m.payload 0 4
  let n := fieldAt m.payload 4 4
  let gs := (List.range n).map fun i => fieldAt m.payload (16 + 2 * i) 2
  let outside := s.postGroup 0x280 ≠ 9
  if m.payload.length ≠ 48 ∨ 2 ≤ flags then s.respond a p m Code.FORMAT [] wr
  else if n = 0 ∨ 16 < n then s.respond a p m Code.BOUNDS [] wr
  else if !gs.all (s.groupAllowed a) then s.respond a p m Code.PERMISSION [] wr
  else if gs.any fun g => (s.group g).pending.isNone then s.respond a p m Code.LIMIT [] wr
  else if (outside && s.postRunning) || s.slotBusy 3 || bit (s.rd Reg.GLB_POST_BUSY.GROUPS) 9 then s.respond a p m Code.LIMIT [] wr
  else
    let t := if outside then s.wr (Reg.POST_GRP.GROUP 0x280) 9 else s
    ((t.stagePromotes gs).busy a p m.typ wr).clerkPost .fab 3 512 (bit flags 0) (fieldAt m.payload 8 8) ⟨a, p, true, true, 0, false, gs⟩

def execGroupPromote (a p : Nat) (m : Fetch) (wr : DmaEnd) (s : State) : Result :=
  .next (s.fabRequest a p 0x0071 m wr fun t x => t.groupPromote a p x wr)

/-- A promotion of a group is CHECKING or ARMED. -/
def State.promoting (s : State) (g : Nat) : Bool :=
  (List.range 4).any fun n => s.slotBusy n && s.inPost (s.slot n).mask 0x280 && (List.range 16).any fun i =>
    s.rdStaged (Reg.COL_PROMOTE.VALID 0 i) = 1 && s.rdStaged (Reg.COL_PROMOTE.GROUP 0 i) = g

/-- An op of a group has issued and not completed. -/
def State.groupInUse (s : State) (g : Nat) : Bool := s.ops.any fun o => o.issued && o.group.any fun x => x.1 = g

def State.groupRelease (s : State) (a p : Nat) (m : Jz) (wr : DmaEnd) : State :=
  let g := fieldAt m.payload 0 2
  if m.payload.length ≠ 8 ∨ fieldAt m.payload 2 6 ≠ 0 then s.respond a p m Code.FORMAT [] wr
  else if !s.groupAllowed a g then s.respond a p m Code.PERMISSION [] wr
  else if s.groupInUse g ∨ s.promoting g then s.respond a p m Code.LIMIT [] wr
  else
    ({ s with groups := tblSet default s.groups g default, rosters := s.rosters.filter fun k => k.group ≠ g } : State).refreshGroups.respond a p m Code.OK [] wr

def execGroupRelease (a p : Nat) (m : Fetch) (wr : DmaEnd) (s : State) : Result :=
  .next (s.fabRequest a p 0x0072 m wr fun t x => t.groupRelease a p x wr)

def State.groupQuery (s : State) (a p : Nat) (m : Jz) (wr : DmaEnd) : State :=
  let g := fieldAt m.payload 0 2
  let x := s.group g
  let live := x.live.getD default
  if m.payload.length ≠ 8 ∨ fieldAt m.payload 2 6 ≠ 0 then s.respond a p m Code.FORMAT [] wr
  else if !s.groupAllowed a g then s.respond a p m Code.PERMISSION [] wr
  else
    s.respond a p m Code.OK (leBytes 4 (b2n x.live.isSome + 2 * b2n x.pending.isSome + 4 * b2n x.retained.isSome) ++ leBytes 2 live.epoch
      ++ leBytes 2 (x.pending.getD default).epoch ++ leBytes 4 live.list.length ++ leBytes 4 live.rank ++ leBytes 8 (x.highest.getD 0)) wr

def execGroupQuery (a p : Nat) (m : Fetch) (wr : DmaEnd) (s : State) : Result :=
  .next (s.fabRequest a p 0x0073 m wr fun t x => t.groupQuery a p x wr)

end Sys2Proof.Machine
end

