-- ==== Sys2Proof/Machine/Serial.lean ====
section
/-!
DEFINITION. The serial ports: controller transfers, the execute-in-place windows with their prefetch buffer and command-omit mode, and the
slave of SPX1 (R221-R259, R173).
-/
namespace Sys2Proof.Machine

/-! Owners and FIFOs (R223, R246, R248). -/

/-- The owner of a port: SPX0 belongs to SEC and its hooks, SPX1 to SVC, and to SEC until SVC starts. -/
def State.spxOwner (s : State) (u : Nat) (q : Req) : Bool :=
  if u = 0 then q = .sec || q = .hook else if s.clerkSt 1 = ClerkSt.OFF then q = .sec else q = .svc

/-- A write of an owner's register: any other requester is refused (R223). -/
def State.ownerWrite (s : State) (u : Nat) (q : Req) (run : State → State) : State :=
  if 2 ≤ u ∨ !s.reqLive q ∨ !(q.direct || q = .hook) then s
  else if s.spxOwner u q then run s else (s.raise (5 + u) 8).lastStatus (5 + u) Code.PERMISSION

/-- Words in a full FIFO. -/
abbrev fifoDepth : Nat := 64

def execSpxTxdPush (port : Nat) (req : Req) (w : Word) (s : State) : Result :=
  .next (s.ownerWrite port req fun t =>
    let x := t.port port
    if x.tx.length < fifoDepth then t.setFifo port { x with tx := x.tx ++ [w] } else t)

/-- A read of SPX_RXD: another requester reads 0 and removes nothing. -/
def execSpxRxdPop (port : Nat) (req : Req) (s : State) : Result :=
  .next (
    if 2 ≤ port ∨ !s.reqLive req ∨ !(req.direct || req = .hook) then s
    else
      let off := (Reg.SPX_RXD.WORD port).key
      match (s.port port).rx with
      | w :: rest => if s.spxOwner port req then (s.setFifo port { s.port port with rx := rest }).emit (.regRead off w.toNat) else s.emit (.regRead off 0)
      | [] => s.emit (.regRead off 0))

/-! Controller transfers (R231, R232, R238). -/

/-- The words that hold `n` bytes. -/
def wordsFor (n : Nat) : Nat := (n + 3) / 4

/-- Bytes as FIFO words, little-endian, the last word filled with 0 (R225). -/
def toWords : Nat → List Byte → List Word
  | 0, _ => []
  | n + 1, l => BitVec.ofNat 32 (leNat (l.take 4)) :: toWords n (l.drop 4)

/-- FIFO words as bytes. -/
def ofWords (l : List Word) : List Byte := l.flatMap fun w => leBytes 4 w.toNat

/-- The checks of R231. -/
def State.xferCode (s : State) (u : Nat) : Nat :=
  let st := s.rd (Reg.SPX_XFER_STA.STATE u)
  let n := s.rd (Reg.SPX_XFER_LEN.LEN u)
  if st = 1 ∨ st = 2 then Code.LIMIT
  else if s.rd (Reg.SPX_XFER_A.CMD_LEN u) = 3 ∨ s.rd (Reg.SPX_XFER_A.ADDR_LEN u) = 3 ∨ 256 < n then Code.FORMAT
  else if s.on (Reg.SPX_XFER_A.DIR u) then (if 4 * (s.port u).tx.length < n then Code.LIMIT else Code.OK)
  else if 4 * (fifoDepth - (s.port u).rx.length) < n then Code.LIMIT else Code.OK

/-- START: a transfer that fails ends with its code, and one in progress goes on. -/
def State.xferStart (s : State) (u : Nat) : State :=
  let c := s.xferCode u
  let st := s.rd (Reg.SPX_XFER_STA.STATE u)
  if c = Code.OK then s.wr (Reg.SPX_XFER_STA.STATE u) 1
  else (((s.wr (Reg.SPX_XFER_STA.CODE u) c).wr (Reg.SPX_XFER_STA.STATE u) (if st = 1 ∨ st = 2 then st else 3)).raise (5 + u) 1).lastStatus (5 + u) c

def execXferStart (port : Nat) (req : Req) (s : State) : Result := .next (s.ownerWrite port req fun t => if t.resetting (5 + port) then t else t.xferStart port)

/-- FLUSH empties both FIFOs, unless a transfer is pending or running. -/
def execXferFlush (port : Nat) (req : Req) (s : State) : Result :=
  .next (s.ownerWrite port req fun t =>
    let st := t.rd (Reg.SPX_XFER_STA.STATE port)
    if st = 1 ∨ st = 2 then t else t.setFifo port { t.port port with tx := [], rx := [] })

/-- A line fetch begins: in command-omit mode it starts at its address phase (R236). -/
def State.beginFetch (s : State) (sel addr : Nat) (demand : Bool) : State :=
  let omitted := bit (s.rd (Reg.SPX_PORT_STA.OMIT_ACTIVE 0)) sel
  let t := s.setPort 0 { s.port 0 with fetch := some (sel, addr, demand, s.on (Reg.SPX_XIP_CFG.OMIT 0 sel)) }
  (t.wr (Reg.SPX_PORT_STA.OP 0) 2).emit (.spi (s.readOp sel addr 64 omitted))

/-- A transfer begins: an exit sequence first where the select needs one, then its data leave the TX FIFO. -/
def State.beginXfer (s : State) (u : Nat) : State :=
  let sel := s.rd (Reg.SPX_XFER_A.SEL u)
  let n := s.rd (Reg.SPX_XFER_LEN.LEN u)
  let write := s.on (Reg.SPX_XFER_A.DIR u)
  let t := (s.exitOmit u sel).wr (Reg.SPX_PORT_STA.OP u) 1 |>.wr (Reg.SPX_XFER_STA.STATE u) 2
  let x := t.port u
  let sent := if write then (ofWords x.tx).take n else []
  let t := t.setFifo u { x with tx := if write then x.tx.drop (wordsFor n) else x.tx, xfer := some (sel, n, !write) }
  t.emit (.spi (t.xferOp u sent))

/-- A free controller port grants a demand fetch, then a transfer, then a prefetch (R238); while it resets, only the demand fetches that it had
accepted (R64, R259). -/
def State.portGrant (s : State) (u : Nat) : State :=
  let x := s.port u
  match x.demand, x.ahead with
  | (sel, a) :: rest, _ => (s.setPort u { x with demand := rest }).beginFetch sel a true
  | [], ahead =>
    if s.resetting (5 + u) then s
    else if s.rd (Reg.SPX_XFER_STA.STATE u) = 1 then s.beginXfer u
    else match ahead with
      | (sel, a) :: rest => (s.setPort u { x with ahead := rest }).beginFetch sel a false
      | [] => s

/-- The port is a controller. -/
def State.controller (s : State) (u : Nat) : Bool := u = 0 || s.on (Reg.SPX_MODE.ROLE u)

def execSpxPortGrant (port : Nat) (s : State) : Result :=
  .next (if port < 2 ∧ s.controller port ∧ s.rd (Reg.SPX_PORT_STA.OP port) = 0 then s.portGrant port else s)

/-- The port is free again; exit sequences that waited run now. -/
def State.portFree (s : State) (u : Nat) : State := (s.wr (Reg.SPX_PORT_STA.OP u) 0).exitHeld u

/-- A transfer ends (R232): DONE, its read data in the RX FIFO, and no prefetch line of its select is trusted any more. -/
def State.xferDone (s : State) (u : Nat) (rx : List Byte) : State :=
  match (s.port u).xfer with
  | none => s
  | some (sel, n, read) =>
    let x := s.port u
    let t := s.setFifo u { x with rx := if read then x.rx ++ toWords (wordsFor n) (padTo n rx) else x.rx, xfer := none }
    let t := ((t.wr (Reg.SPX_XFER_STA.STATE u) 3).wr (Reg.SPX_XFER_STA.CODE u) Code.OK).raise (5 + u) 0
    ((t.lastStatus (5 + u) Code.OK).dropLines u sel).portFree u

def execXferDone (port : Nat) (rx : List Byte) (s : State) : Result :=
  .next (if port < 2 ∧ s.rd (Reg.SPX_PORT_STA.OP port) = 1 then s.xferDone port rx else s)

/-! Execute-in-place (R233-R237). -/

/-- A window offset that the window serves. -/
def State.xipServed (s : State) (sel off : Nat) : Bool :=
  s.on (Reg.SPX_XIP_CFG.ENABLE 0 sel) && decide (off < if s.on (Reg.SPX_XIP_CFG.ADDR4 0 sel) then 0x4000000 else 0x1000000)

/-- The first read served from a line queues the prefetch of the next one, unless it is held, in flight, or outside the window. -/
def State.prefetchNext (s : State) (sel line : Nat) : State :=
  let x := s.port 0
  let next := line + 64
  let held := x.lines.any fun l => l.sel = sel && l.addr = next
  let flight := (match x.fetch with | some (fs, fa, _, _) => fs = sel && fa = next | none => false)
    || x.demand.contains (sel, next) || x.ahead.contains (sel, next)
  if held ∨ flight ∨ !s.xipServed sel next then s else s.setPort 0 { x with ahead := x.ahead ++ [(sel, next)] }

/-- One line access of a read. -/
def State.xipLine (s : State) (sel line o n : Nat) : State :=
  let x := s.port 0
  match x.lines.find? fun l => l.sel = sel && l.addr = line with
  | some l =>
    let rest := x.lines.filter fun m => !(m.sel = sel && m.addr = line)
    let t := (s.setPort 0 { x with lines := { l with served := true } :: rest }).countWrap (Reg.SPX_XIP_HIT.COUNT 0) 1
    let t := t.emit (.xipData sel (line + o) ((l.bytes.drop o).take n))
    if l.served then t else t.prefetchNext sel line
  | none =>
    let flying := (match x.fetch with | some (fs, fa, _, _) => fs = sel && fa = line | none => false) || x.demand.contains (sel, line)
    let t := s.setPort 0 { x with
      waits := x.waits ++ [(sel, line, o, n)]
      demand := if flying then x.demand else x.demand ++ [(sel, line)]
      ahead := if flying then x.ahead else x.ahead.filter fun q => q ≠ (sel, line) }
    if flying then t.countWrap (Reg.SPX_XIP_HIT.COUNT 0) 1 else t.countWrap (Reg.SPX_XIP_MISS.COUNT 0) 1

/-- An access of SEC or a hook to a window of SPX0; a read that crosses a line boundary is two line accesses. A port that resets accepts no
read: it answers as R234 says (log entry 58). -/
def State.xipRead (s : State) (sel off n : Nat) (write : Bool) : State :=
  if write ∨ !s.xipServed sel off ∨ !s.xipServed sel (off + n - 1) ∨ s.resetting 5 then (s.emit (.xipError sel off)).raise 5 7
  else
    let line := off / 64 * 64
    let first := min n (line + 64 - off)
    let t := s.xipLine sel line (off - line) first
    if first < n then t.xipLine sel (line + 64) 0 (n - first) else t

/-- An access of SEC or a hook to the windows; that of select s begins at 0x6000_0000 + s × 0x0400_0000 (R233). -/
def execXipRead (req : Req) (addr n : Nat) (write : Bool) (s : State) : Result :=
  .next (
    if xipBase 0 ≤ addr ∧ addr < xipBase 4 ∧ (n = 1 ∨ n = 2 ∨ n = 4 ∨ n = 8) ∧ (req = .sec ∨ req = .hook) ∧ s.reqLive req then
      s.xipRead ((addr - xipBase 0) / 0x4000000) ((addr - xipBase 0) % 0x4000000) n write
    else s)

/-- A line fetch ends: the least recently used slot takes the line, the reads that wait for it are served, and command-omit mode begins
after a full fetch with OMIT (R235, R236). -/
def State.xipFetchDone (s : State) (bytes : List Byte) : State :=
  match (s.port 0).fetch with
  | none => s
  | some (sel, addr, _, om) =>
    let x := s.port 0
    let mine (w : Nat × Nat × Nat × Nat) : Bool := w.1 = sel && w.2.1 = addr
    let data := padTo 64 bytes
    let used := x.waits.any mine
    let t := s.setPort 0 { x with
      fetch := none
      lines := (⟨sel, addr, data, used⟩ :: x.lines).take 4
      waits := x.waits.filter fun w => !mine w }
    let t := (x.waits.filter mine).foldl (fun t w => t.emit (.xipData sel (addr + w.2.2.1) ((data.drop w.2.2.1).take w.2.2.2))) t
    let t := if used then t.prefetchNext sel addr else t
    let f := Reg.SPX_PORT_STA.OMIT_ACTIVE 0
    let t := (if om then t.wr f (setBit (t.rd f) sel true) else t).portFree 0
    if om ∧ !t.on (Reg.SPX_XIP_CFG.OMIT 0 sel) then t.exitOmit 0 sel else t

def execXipFetchDone (bytes : List Byte) (s : State) : Result :=
  .next (if s.rd (Reg.SPX_PORT_STA.OP 0) = 2 then s.xipFetchDone bytes else s)

/-! The slave of SPX1 (R244-R247, R251, R173). -/

/-- SPX1 is a slave and its select is asserted. -/
def State.slaveOn (s : State) : Bool := !s.controller 1 && s.on (Reg.SPX_SLV_STA.SELECTED 1)

def execSlaveSelect (sckHigh : Bool) (s : State) : Result :=
  .next (
    if s.controller 1 ∨ s.on (Reg.SPX_SLV_STA.SELECTED 1) then s
    else (((s.wrb (Reg.SPX_SLV_STA.SELECTED 1) true).wrb (Reg.SPX_SLV_STA.MODE3 1) sckHigh).raise 6 10).startWord 1)

/-- A reply that waits enters the empty TX FIFO whole (R319). -/
def State.pushDue (s : State) : State :=
  let x := s.port 1
  if s.bmc.due.isEmpty ∨ !x.tx.isEmpty then s
  else ({ s with bmc := { s.bmc with due := [] } } : State).setFifo 1 { x with tx := s.bmc.due }

/-- The received word enters the RX FIFO whole, or is dropped and counted (R246). -/
def State.slaveTakes (s : State) (w : Word) : State :=
  let x := s.port 1
  if x.rx.length < fifoDepth then s.setFifo 1 { x with rx := x.rx ++ [w] } else (s.count (Reg.SPX_SLV_CNT.OVERRUN 1) 1).raise 6 5

/-- The 32nd bit of a word: what the slave sent shows on DQ1, bit 31 first, a word of the TX FIFO is removed from it, `w` is received, and
the next word starts. A halted SEC repeats its two words and takes nothing (R173). -/
def State.slaveWord (s : State) (w : Word) : State :=
  match (s.port 1).word with
  | none => s
  | some (v, fromTx) =>
    let t := (s.emit (.spiWord v ((List.range 32).map fun i => bit v.toNat (31 - i)) (!s.on (Reg.SPX_SLV_STA.MODE3 1)))).underrun 1
    let x := t.port 1
    let mine := fromTx && x.tx.head? = some v
    if s.stage = Stage.HALTED then (if mine then t.setPort 1 { x with tx := x.tx.drop 1 ++ [v] } else t).startWord 1
    else (((if mine then t.setFifo 1 { x with tx := x.tx.drop 1 } else t).slaveTakes w).pushDue).startWord 1

/-- Bits of the current word have gone each way: SPX_SLV_STA.BIT shows them, and the 32nd ends the word. -/
def execSlaveWord (got : SlaveBits) (s : State) : Result :=
  .next (
    if !s.slaveOn then s
    else if got.count < 32 then s.wr (Reg.SPX_SLV_STA.BIT 1) (max got.count (s.rd (Reg.SPX_SLV_STA.BIT 1)))
    else s.slaveWord got.word)

/-- CS_N[0] rises after `bits` bits of a word, or after those that SPX_SLV_STA.BIT shows. -/
def execSlaveDeselect (bits : Nat) (s : State) : Result :=
  .next (if s.slaveOn then s.endWord 1 (max bits (s.rd (Reg.SPX_SLV_STA.BIT 1))) else s)

end Sys2Proof.Machine
end

