-- ==== Sys2Proof/Machine/Bmc.lean ====
section
/-!
DEFINITION. The board management server on SPX1: frames, replies and the opcodes (R318-R323, R366).
-/
namespace Sys2Proof.Machine

/-! The server (R183, R319, R320). -/

/-- SEC serves until SVC starts. -/
def State.bmcSec (s : State) : Bool := s.clerkSt 1 = ClerkSt.OFF

/-- The server runs, SPX1 is a slave and SEC is not halted by R171. -/
def State.bmcUp (s : State) : Bool :=
  !s.controller 1 && s.stage ≠ Stage.HALTED && s.stage ≠ Stage.RESET && (if s.bmcSec then s.clerkUp 0 else s.svcUp)

/-! Frames (R318, R319, R321). -/

/-- OPCODE, TAG and N of a header word. -/
def frameOp (w : Word) : Nat := bits w.toNat 16 8
def frameTag (w : Word) : Nat := bits w.toNat 8 8
def frameN (w : Word) : Nat := bits w.toNat 0 8

/-- A frame whose header, payload and CRC have come. -/
def frameWhole : List Word → Bool
  | [] => false
  | h :: t => decide (frameN h + 1 ≤ t.length)

/-- The server takes one received word: filler and other words outside a frame, or a word of the frame. -/
def Bmc.feed (b : Bmc) (w : Word) : Bmc :=
  if !b.frame.isEmpty then { b with frame := b.frame ++ [w] }
  else if w = 0 then b
  else if bits w.toNat 24 8 = 0xB5 then { b with frame := [w] }
  else { b with discarded := b.discarded + 1 }

/-- Take received words until a frame is whole. -/
def bmcTake : Bmc → List Word → Bmc × List Word
  | b, [] => (b, [])
  | b, w :: ws => if frameWhole b.frame then (b, w :: ws) else bmcTake (b.feed w) ws

/-- The server reads the RX FIFO. -/
def State.bmcRead (s : State) : State :=
  let r := bmcTake s.bmc (s.port 1).rx
  ({ s with bmc := r.1 } : State).setFifo 1 { s.port 1 with rx := r.2 }

/-- The CRC word over words. -/
def frameCrc (l : List Word) : Word := BitVec.ofNat 32 (crc32c (ofWords l))

/-- A request: OPCODE, TAG and payload. -/
structure Frame where
  op : Nat
  tag : Nat
  payload : List Word
deriving DecidableEq, Repr, Inhabited

/-- The whole frame at hand, and whether its CRC matches. -/
def State.bmcFrame (s : State) : Option (Frame × Bool) :=
  match s.bmc.frame with
  | [] => none
  | h :: t =>
    let n := frameN h
    if n + 1 ≤ t.length then some (⟨frameOp h, frameTag h, t.take n⟩, t.getD n 0 = frameCrc (h :: t.take n)) else none

/-- A reply frame. -/
def replyFrame (dup : Bool) (f : Frame) (code : Nat) (payload : List Word) : List Word :=
  let b := [BitVec.ofNat 32 (0x5B000000 + b2n dup * 2 ^ 23 + f.op % 128 * 2 ^ 16 + f.tag * 256 + code % 256), BitVec.ofNat 32 payload.length] ++ payload
  b ++ [frameCrc b]

/-- The frame is done with, and its reply goes out once the TX FIFO is empty. -/
def State.bmcSend (s : State) (l : List Word) : State :=
  ({ s with bmc := { s.bmc with frame := [], due := l } } : State).pushDue

/-- A completed request: its reply is kept (R322). -/
def State.bmcReply (s : State) (f : Frame) (code : Nat) (payload : List Word) : State :=
  let t := { s with bmc := { s.bmc with lastOp := f.op, lastTag := f.tag, lastReply := replyFrame false f code payload, hasLast := true } }
  (t.bmcSend (replyFrame false f code payload)).bmcIdle

/-- The kept reply with DUP set. -/
def dupReply : List Word → List Word
  | h :: t => let b := (h ||| 0x00800000) :: t.dropLast; b ++ [frameCrc b]
  | [] => []

/-- Payload words that an opcode needs. -/
def frameNeeds (f : Frame) : Bool :=
  let n := f.payload.length
  match f.op with
  | 0x01 => n = 0
  | 0x02 => n = 2
  | 0x03 => n = 3
  | 0x04 => n = 3
  | 0x05 => decide (3 ≤ n) && n = 3 + (f.payload.getD 2 0).toNat
  | 0x06 => n = 2
  | 0x07 => n = 4
  | 0x08 => n = 1
  | 0x09 => n = 1
  | 0x0A => n = 2
  | 0x0B => n = 0
  | 0x0C => n = 2
  | 0x0D => decide (n ≤ 61)
  | _ => false

/-- What an opcode meets before it is served (R320): the mode that excludes it, or a server not yet started. -/
def State.bmcRefusal (s : State) (op : Nat) : Nat :=
  let mode := s.rd Reg.BOOT_STA.MODE
  let early := op = 0x01 || op = 0x02 || op = 0x03 || op = 0x04 || op = 0x0D
  let recovery := decide (0x05 ≤ op) && decide (op ≤ 0x0A)
  if (recovery ∧ mode = Mode.NORMAL) ∨ ((op = 0x0B ∨ op = 0x0C) ∧ mode = Mode.RECOVERY) then Code.PERMISSION
  else if !early ∧ s.bmcSec ∧ !(mode = Mode.RECOVERY ∧ recovery) then Code.LIMIT
  else if op = 0x0B ∧ s.clerkSt 2 ≠ ClerkSt.RUNNING then Code.LIMIT
  else Code.OK

/-- The server can take a request: it runs, no request runs and no reply waits. -/
def State.bmcReady (s : State) : Bool := s.bmcUp && s.bmc.busy.isNone && s.bmc.due.isEmpty

/-- Serve a good frame of one opcode: a repeat gets the kept reply again, and a refused one its code. -/
def State.bmcServe (s : State) (op : Nat) (run : State → Frame → State) : State :=
  if !s.bmcReady then s
  else
    let t := s.bmcRead
    match t.bmcFrame with
    | some (f, true) =>
      if f.op ≠ op ∨ !frameNeeds f then s
      else if t.bmc.hasLast ∧ t.bmc.lastOp = f.op ∧ t.bmc.lastTag = f.tag then t.bmcSend (dupReply t.bmc.lastReply)
      else if t.bmcRefusal op ≠ Code.OK then t.bmcReply f (t.bmcRefusal op) []
      else run t f
    | _ => s

/-- A frame with a bad CRC, an undefined opcode or a wrong N is answered FORMAT, OPCODE and TAG as received (R321). -/
def execBmcBadFrame (s : State) : Result :=
  .next (
    if !s.bmcReady then s
    else
      let t := s.bmcRead
      match t.bmcFrame with
      | some (f, good) => if good ∧ frameNeeds f then s else (t.bmcSend (replyFrame false f Code.FORMAT [])).bmcIdle
      | none => s)

/-- 10 ms pass between two words of a started frame: it is discarded and its words are counted (R321). -/
def execFrameTimeout (s : State) : Result :=
  .next (
    if !s.bmcUp then s
    else
      let t := s.bmcRead
      if t.bmc.frame.isEmpty ∨ frameWhole t.bmc.frame then s
      else { t with bmc := { t.bmc with frame := [], discarded := t.bmc.discarded + t.bmc.frame.length } })

/-- A payload word. -/
def Frame.arg (f : Frame) (i : Nat) : Nat := (f.payload.getD i 0).toNat

/-- The low 32 bits of a register. -/
def State.regWord (s : State) (key : Nat) : Word := BitVec.ofNat 32 (s.cell key).toNat

/-! Status, log and dumps. -/

/-- The hottest valid sensor in 0.1 °C; 0x7FFF_FFFF if there is none. -/
def State.hottest (s : State) : Word :=
  match (s.sensors.filterMap fun (e : Nat × Sensor) => if e.2.faulted then none else e.2.reading).max? with
  | some r => BitVec.ofInt 32 r
  | none => 0x7FFFFFFF

def execStatus (s : State) : Result :=
  .next (s.bmcServe 0x01 fun t f =>
    let clerks := (List.range 6).foldl (fun a n => a + t.clerkSt n * 16 ^ n) 0
    t.bmcReply f Code.OK [t.regWord Reg.BOOT_STA.STAGE.key, t.regWord Reg.OTP_STA.STATE.key, t.regWord Reg.VLT_STA.ARMED.key,
      BitVec.ofNat 32 clerks, t.regWord Reg.GLB_PART.PART_CODE.key, t.hottest, BitVec.ofNat 32 t.bmc.discarded])

/-- The entries of a ring region between its tail and its head. -/
def State.ringCount (s : State) (r : VaultRegion) : Nat :=
  let h := s.ptr r 0x10
  let t := s.ptr r 0x18
  if h = t ∧ 0 < s.ptr r 0x20 then r.entries else (h + r.size - t) % r.size / 32

/-- The 32 bytes of an entry counted from the tail. -/
def State.ringEntry (s : State) (r : VaultRegion) (i : Nat) : List Byte :=
  bytesAt s.vault.sram (r.base + 0x40 + (s.ptr r 0x18 + 32 * i) % r.size) 32

/-- An entry whose CRC matches. -/
def entryOk (l : List Byte) : Bool := fieldAt l 28 4 = crc32c (l.take 28)

def execLogRead (s : State) : Result :=
  .next (s.bmcServe 0x02 fun t f =>
    let t := t.readyHeader logRegion
    let n := t.ringCount logRegion
    if f.arg 1 < 1 ∨ 7 < f.arg 1 ∨ n < f.arg 0 + f.arg 1 then t.bmcReply f Code.BOUNDS []
    else
      let es := ((List.range (f.arg 1)).map fun i => t.ringEntry logRegion (f.arg 0 + i)).filter entryOk
      t.bmcReply f Code.OK ([BitVec.ofNat 32 n, BitVec.ofNat 32 (t.ptr logRegion 0x20)] ++ toWords (8 * es.length) es.flatten))

def execDumpRead (s : State) : Result :=
  .next (s.bmcServe 0x03 fun t f =>
    let n := f.arg 2
    if 8 ≤ f.arg 0 ∨ n < 1 ∨ 59 < n ∨ 0x7FFC0 < f.arg 1 + 4 * n then t.bmcReply f Code.BOUNDS []
    else if f.arg 1 % 4 ≠ 0 then t.bmcReply f Code.ALIGN []
    else
      let r := dumpRegion (f.arg 0)
      let t := t.readyHeader r
      t.bmcReply f Code.OK (BitVec.ofNat 32 (t.ptr r 0x10) :: toWords n (bytesAt t.vault.sram (r.base + 0x40 + f.arg 1) (4 * n))))

/-! Flash (R323). -/

/-- A transfer of the server on SPX0 in the one-lane mode: registers, exit sequence, wire, end. -/
def State.flashXfer (s : State) (sel cmd addrLen addr : Nat) (read : Bool) (len : Nat) (sent : List Byte) : State :=
  let a := sel + (if cmd = 0 then 0 else 1) * 2 ^ 10 + addrLen * 2 ^ 12 + b2n (!read) * 2 ^ 15
  let t := s.exitOmit 0 sel
  let t := ((t.setCell (Reg.SPX_XFER_A.SEL 0).key (BitVec.ofNat 64 a)).setCell (Reg.SPX_XFER_B.CMD 0).key (BitVec.ofNat 64 cmd)).wr
    (Reg.SPX_XFER_ADDR.ADDR 0) addr
  let t := ((t.wr (Reg.SPX_XFER_LEN.LEN 0) len).wr (Reg.SPX_XFER_STA.STATE 0) 3).wr (Reg.SPX_XFER_STA.CODE 0) Code.OK
  ((t.emit (.spi (t.xferOp 0 sent))).raise 5 0).dropLines 0 sel

/-- The server's first flash opcode on a select: steps 3 and 4 of R240, or the whole check on select 0 in RECOVERY. -/
def State.flashLearn (s : State) (sel : Nat) (c : FlashCheck) : State :=
  if bit s.bmc.sfdpRead sel then s
  else
    let t := if sel = 0 ∧ s.rd Reg.BOOT_STA.MODE = Mode.RECOVERY then s.wiringCheck c else s.readSfdp sel c
    { t with bmc := { t.bmc with sfdpRead := setBit t.bmc.sfdpRead sel true
                                 sfdp := tblSet [] t.bmc.sfdp sel (if flashReadStep c = 0 then c.sfdp else []) } }

/-- The SFDP bytes of a select; none before they are read, and after a failed read. -/
def State.sfdpOf (s : State) (sel : Nat) : List Byte := tblGet [] s.bmc.sfdp sel

/-- How a flash opcode of `n` bytes at an address fails before any transfer: a failed check, beyond the density, or no 4-byte instruction. -/
def State.flashCode (s : State) (sel addr n : Nat) (has4b : Bool) : Nat :=
  if s.on (Reg.SPX_WIRE_STA.FAIL 0) ∨ (s.sfdpOf sel).isEmpty then Code.LINK_NOT_READY
  else if 2 ^ sfdpDensity (s.sfdpOf sel) < addr + n then Code.BOUNDS
  else if 0x1000000 < addr + n ∧ !has4b then Code.FORMAT else Code.OK

/-- Serve a flash opcode: SPX0 must be free, and the select's SFDP is known first. -/
def State.bmcFlash (s : State) (op : Nat) (c : FlashCheck) (run : State → Frame → State) : State :=
  let st := s.rd (Reg.SPX_XFER_STA.STATE 0)
  if s.rd (Reg.SPX_PORT_STA.OP 0) ≠ 0 ∨ st = 1 ∨ st = 2 then s
  else s.bmcServe op fun t f => if 4 ≤ f.arg 0 then t.bmcReply f Code.BOUNDS [] else run (t.flashLearn (f.arg 0) c) f

/-- A read of `n` bytes from one side of the 16 MiB boundary. -/
def State.flashReadPart (s : State) (sel addr n : Nat) : State :=
  if n = 0 then s
  else if addr < 0x1000000 then s.flashXfer sel 0x03 1 addr true n [] else s.flashXfer sel 0x13 2 addr true n []

def execFlashRead (data : List Word) (lines : FlashLines) (sfdp : List Byte) (s : State) : Result :=
  .next (s.bmcFlash 0x04 ⟨lines, sfdp⟩ fun t f =>
    let sel := f.arg 0
    let addr := f.arg 1
    let n := f.arg 2
    let c := t.flashCode sel addr (4 * n) (sfdpHas4 (t.sfdpOf sel) 0)
    let low := if addr < 0x1000000 then min (4 * n) (0x1000000 - addr) else 0
    if n < 1 ∨ 60 < n then t.bmcReply f Code.BOUNDS []
    else if c ≠ Code.OK then t.bmcReply f c []
    else
      let t := (t.flashReadPart sel addr low).flashReadPart sel (addr + low) (4 * n - low)
      t.bmcReply f Code.OK ((List.range n).map fun i => data.getD i 0))

/-- Write enable, a command with its address and data, and the polls of the status register: busy (bit 0) in the last one is a poll that gave up
(R323). -/
def State.flashChange (s : State) (f : Frame) (sel cmd addr : Nat) (data : List Byte) (polls : Nat) (last : Byte) : State :=
  let t := s.flashXfer sel 0x06 0 0 true 0 []
  let t := t.flashXfer sel cmd (if addr < 0x1000000 then 1 else 2) addr false data.length data
  let t := (List.replicate polls ()).foldl (fun t _ => t.flashXfer sel 0x05 0 0 true 1 []) t
  t.bmcReply f (if 0 < polls ∧ bit last.toNat 0 = false then Code.OK else Code.TIMEOUT) []

def execFlashWrite (status : List Byte) (lines : FlashLines) (sfdp : List Byte) (s : State) : Result :=
  .next (s.bmcFlash 0x05 ⟨lines, sfdp⟩ fun t f =>
    let addr := f.arg 1
    let n := 4 * f.arg 2
    let c := t.flashCode (f.arg 0) addr n (sfdpHas4 (t.sfdpOf (f.arg 0)) 6)
    if f.arg 2 < 1 ∨ 59 < f.arg 2 then t.bmcReply f Code.BOUNDS []
    else if c ≠ Code.OK then t.bmcReply f c []
    else if addr % 256 + n > 256 then t.bmcReply f Code.ALIGN []
    else t.flashChange f (f.arg 0) (if addr < 0x1000000 then 0x02 else 0x12) addr (ofWords (f.payload.drop 3)) status.length (status.getLastD 1))

/-- The 64 KiB erase instruction is that of the table that serves the address. -/
def execFlashErase (polls : Nat) (last : Byte) (lines : FlashLines) (sfdp : List Byte) (s : State) : Result :=
  .next (s.bmcFlash 0x06 ⟨lines, sfdp⟩ fun t f =>
    let addr := f.arg 1
    let c := t.flashCode (f.arg 0) addr 0x10000 true
    if c ≠ Code.OK then t.bmcReply f c []
    else match eraseInstr (t.sfdpOf (f.arg 0)) (decide (0x1000000 ≤ addr)) with
      | none => t.bmcReply f Code.FORMAT []
      | some cmd =>
        if addr % 0x10000 ≠ 0 then t.bmcReply f Code.ALIGN []
        else t.flashChange f (f.arg 0) cmd addr [] polls last)

/-! Fuses and lifecycle (R161-R166). -/

/-- A request that SEC executes while no lifecycle transition runs. -/
def State.bmcFuse (s : State) (op : Nat) (run : State → List Byte → Served) : State :=
  if !s.secUp ∨ s.lcRun.phase ≠ .none then s
  else s.bmcServe op fun t f =>
    let r := run t (ofWords f.payload)
    r.st.bmcReply f r.code (toWords (wordsFor r.payload.length) r.payload)

def execBmcOtpProgram (burns : List Burn) (s : State) : Result := .next (s.bmcFuse 0x07 fun t p => t.otpProgramReq p burns)

def execBmcOtpSeal (burns : List Burn) (s : State) : Result := .next (s.bmcFuse 0x08 fun t p => t.otpSealReq p burns)

def execBmcOtpRevoke (burns : List Burn) (s : State) : Result := .next (s.bmcFuse 0x09 fun t p => t.otpRevokeReq p burns)

/-- The transition that a frame started ends. -/
def State.bmcLcEnd (s : State) (code : Nat) : State :=
  match s.bmc.busy with
  | some (op, tag) => ({ s with bmc := { s.bmc with busy := none } } : State).bmcReply ⟨op, tag, []⟩ code []
  | none => s

def execBmcLcTransition (burns : List Burn) (s : State) : Result :=
  .next (
    if !s.secUp ∨ s.lcRun.phase ≠ .none then s
    else s.bmcServe 0x0A fun t f =>
      let p := ofWords f.payload
      if t.lcRefusal p ≠ Code.OK then (t.lcRefused p).bmcReply f (t.lcRefusal p) []
      else
        let t := ({ t with bmc := { t.bmc with busy := some (f.op, f.tag), frame := [] } } : State).bmcIdle
        t.lcStart ((cfVal (fieldAt p 0 8)).getD 0) true burns)

/-! Telemetry, product data, echo. -/

def execTelemetry (s : State) : Result :=
  .next (s.bmcServe 0x0B fun t f =>
    t.bmcReply f Code.OK ([t.regWord Reg.THM_STA.TJ.key, t.regWord Reg.PWR_LOOP_STA.LEVEL.key, t.regWord Reg.PWR_POWER.W.key,
      t.regWord Reg.THM_PCAP.W.key, t.regWord Reg.CLK_STA.ROOT_LOCK.key, t.regWord Reg.THM_ICC_EST.A.key]
      ++ (List.range 8).map (fun k => t.regWord (Reg.THM_HBM.TEMP k).key) ++ [t.regWord Reg.THM_CNT.HARD.key]))

def execBmcVpdRead (s : State) : Result :=
  .next (s.bmcServe 0x0C fun t f =>
    let n := f.arg 1
    if n < 1 ∨ 59 < n then t.bmcReply f Code.BOUNDS []
    else
      let d := (t.vpd.drop (f.arg 0)).take (4 * n)
      t.bmcReply f Code.OK (BitVec.ofNat 32 t.vpd.length :: toWords (wordsFor d.length) d))

def execEcho (s : State) : Result := .next (s.bmcServe 0x0D fun t f => t.bmcReply f Code.OK f.payload)

end Sys2Proof.Machine
end

