-- ==== Sys2Proof/Machine/Clerks.lean ====
section
/-!
DEFINITION. The commands of the clerks: watchdogs, halts, dumps and restarts, message ports, the log port and trace points (R297-R305,
R324-R330).
-/
namespace Sys2Proof.Machine

/-! Watchdogs and halts (R299-R301). -/

/-- Milliseconds on the local clock. -/
abbrev ms : Nat := 1000000

/-- Only clerk n kicks its watchdog; a kick before MIN halts it. -/
def execFwpKick (n : Nat) (req : Req) (s : State) : Result :=
  .next (
    if 6 ≤ n ∨ req.clerk ≠ some n ∨ !s.clerkUp n then s
    else if s.uptime < (s.clerk n).lastKick + s.rd (Reg.FWP_WD.MIN n) * ms then s.haltClerk n Halt.WD_EARLY 0
    else s.setClerk n { s.clerk n with lastKick := s.uptime })

def execWatchdogExpiry (n : Nat) (s : State) : Result :=
  .next (
    if n < 6 ∧ (s.clerk n).lastKick + s.rd (Reg.FWP_WD.MAX n) * ms ≤ s.uptime then s.haltClerk n Halt.WD_LATE 0 else s)

/-- An access of the running component of clerk `n` at an address (kind 0 read, 1 write, 2 execute) that its region table does not permit
halts its clerk; a permitted one is no fault (R297, R299). A hook is stopped (R200). -/
def execProtectionFault (n addr kind : Nat) (hook : Bool) (s : State) : Result :=
  .next (
    if hook then s.endHook (some .violation)
    else if 6 ≤ n ∨ !s.clerkUp n ∨ regionPermits (s.clerk n).regions (s.clerk n).comp addr kind then s
    else s.haltClerk n Halt.PROTECTION (addr % 2 ^ 32))

def execDoubleFault (n : Nat) (s : State) : Result := .next (if n < 6 then s.haltClerk n Halt.DOUBLE_FAULT 0 else s)

/-! Dumps and restarts (R301-R304, R341). -/

/-- The staged copy can be read, and its digest is the one that SEC recorded at load (R302). -/
def State.stagedOk (s : State) : Bool :=
  s.computeOn && (s.readFault s.stageAddr s.boot.imageLen).isNone && Img.digest (s.load s.stageAddr s.boot.imageLen) = s.boot.digest

/-- SEC decides about a halted clerk other than itself: a restart, or FATAL. Neither a fourth halt nor a fourth restart within 3,600 s is
followed by a restart (R303). -/
def State.decideRestart (s : State) (n : Nat) : State :=
  if n = 0 ∨ s.clerkSt n ≠ ClerkSt.HALTED ∨ !s.secUp then s
  else if 4 ≤ s.recentHalts n ∨ 3 ≤ s.recentRestarts n then
    ((s.wr (Reg.FWP_STA.STATE n) ClerkSt.FAILED).raise (0x10 + n) 2).fatal Fatal.CLERK_RESTARTS n
  else if s.stagedOk ∧ (s.clerk n).haltComp ≠ 0x200 then s.wr (Reg.FWP_STA.STATE n) ClerkSt.RESTARTING
  else s.fatal Fatal.IMAGE_LOST n

/-- The engine completes the dump in progress, that of clerk `n`; the next halted clerk is dumped next. -/
def execDumpDone (n : Nat) (s : State) : Result :=
  .next (
    match s.dumps with
    | [] => s
    | m :: rest => if m = n then (({ s with dumps := rest } : State).writeDump n).decideRestart n else s)

/-- The section of a clerk in the staged copy goes into its zeroed local memory; its firmware SRAM share is kept (R302). -/
def State.reloadSection (s : State) (n : Nat) : State :=
  let img := s.load s.stageAddr s.boot.imageLen
  let body := match Img.clerk img n with | some x => Img.body img x | none => []
  s.setClerk n { s.clerk n with mem := padTo localBytes (body.take localBytes) }

/-- The restarted clerk runs at its entry. A restarted PWR begins at L = 3 (R361). SEC writes the same region table again: only it writes
region tables, so the clerk's is unchanged. -/
def State.restartClerk (s : State) (n : Nat) : State :=
  let t := s.reloadSection n
  let t := t.setClerk n { t.clerk n with restarts := t.uptime :: (t.clerk n).restarts }
  let t := if n = 1 then t.startSvc else t.startClerk n ClerkSt.RUNNING (256 * n + 1)
  let t := if n = 2 then t.wr Reg.PWR_LOOP_STA.LEVEL 3 else t
  let k := t.recentRestarts n
  let t := ((t.count (Reg.FWP_TOTAL.RESTARTS n) 1).wr (Reg.FWP_STA.RESTARTS_HOUR n) k).raise (0x10 + n) 1
  (t.logHw 3 2 n k 0).notice 0 0x0102 (leBytes 4 n ++ leBytes 4 (t.rd (Reg.FWP_STA.CAUSE n)) ++ leBytes 4 (t.rd (Reg.FWP_STA.DUMP n)))

def execClerkRestartDone (n : Nat) (s : State) : Result :=
  .next (if 0 < n ∧ n < 6 ∧ s.clerkSt n = ClerkSt.RESTARTING ∧ s.secUp then s.restartClerk n else s)

/-! Message ports (R298). -/

/-- Messages a port holds. -/
abbrev portDepth : Nat := 32

/-- The running component of clerk `n` sends through a port from which its receiver has taken some messages since the last send; the port
stamps the sender's ID, and LAST_STATUS of its clerk's page tells how the send ended. Control may pass with the message to another component
of the clerk (R297, R298; log entry 68). -/
def execPortSend (n : Nat) (port : PortUse) (msg : List Byte) (s : State) : Result :=
  .next (
    if 6 ≤ n ∨ !s.clerkUp n then s
    else
      let q := (tblGet [] s.ports port.port).drop port.taken
      let t := { s with ports := tblSet [] s.ports port.port q }
      if portDepth ≤ q.length then t.lastStatus (0x10 + n) Code.LIMIT
      else
        let t := { t with ports := tblSet [] t.ports port.port (q ++ [((s.clerk n).comp, padTo 64 msg)]) }
        let t := match port.runs with | some c => t.setClerk n { t.clerk n with comp := 256 * n + c % 256 } | none => t
        t.lastStatus (0x10 + n) Code.OK)

/-! The log port (R324-R326). -/

/-- A clerk offers an entry; one above FWP_LOG_LEVEL is not written. The port stamps the component. -/
def execLogAppend (n comp level code arg0 arg1 arg2 : Nat) (s : State) : Result :=
  .next (
    if 6 ≤ n ∨ !s.clerkUp n ∨ s.rd (Reg.FWP_LOG_LEVEL.LEVEL n) < level then s
    else s.offerLog (some n) ⟨0, 256 * n + comp % 256, level, code, arg0, arg1, arg2⟩)

/-- The oldest queued entry enters the ring; with room in the queue again, a LOG_LOST entry follows for what was dropped. -/
def execLogPortWrite (s : State) : Result :=
  .next (
    match s.logQueue with
    | [] => s
    | e :: rest =>
      let t := ({ s with logQueue := rest } : State).ringAppend logRegion e.bytes
      if t.logLost = 0 then t
      else ({ t with logLost := 0 } : State).offerLog none ⟨0, 0xFF01, 2, 4, t.logLost, 0, 0⟩)

/-! Trace points (R328, R329). -/

/-- Entries of the trace ring. -/
abbrev traceEntries : Nat := 4194048

/-- A trace point of the mask writes an entry, or is counted where the unit accepts no more. -/
def execTracePoint (id src arg16 arg32 : Nat) (accepted : Bool) (s : State) : Result :=
  .next (
    let t := s.trace
    if !t.on ∨ 256 ≤ id ∨ !bit t.mask id ∨ !s.computeOn then s
    else if accepted then
      let entry := leBytes 8 s.now ++ leBytes 1 id ++ leBytes 1 src ++ leBytes 2 arg16 ++ leBytes 4 arg32
      let u := s.writeExtent (t.base + 0x1000 + 16 * (t.written % traceEntries)) entry
      ({ u with trace := { t with written := t.written + 1 } } : State).writeExtent t.base (leBytes 8 (t.written + 1))
    else ({ s with trace := { t with dropped := t.dropped + 1 } } : State).writeExtent (t.base + 8) (leBytes 8 (t.dropped + 1)))

end Sys2Proof.Machine
end

