-- ==== Sys2Proof/Machine/Clock.lean ====
section
/-!
DEFINITION. The commands of the clocks and the die link (R30, R42-R47, R57-R60).
-/
namespace Sys2Proof.Machine

def execClkHostDiv (req : Req) (div : Nat) (s : State) : Result :=
  .next (if s.direct req then (s.wr Reg.CLK_HOST_DIV.DIV div).retarget else s)

/-- A write by a loaded PWR image releases the safe clock table and takes over from the ROM safe loop (R45, R204). The ROM loop keeps
/6, and nobody else writes the register (R51). -/
def execClkPwrDiv (req : Req) (div : Nat) (s : State) : Result :=
  .next (
    if req = .pwr ∧ s.clerkSt 2 = ClerkSt.RUNNING then
      s.pwrDiv div
    else s)

/-- A change of divider completes (R43): EFF_DIV takes it, and the latest effective value starts next. -/
def execCclkChangeDone (s : State) : Result :=
  .next (
    match s.clkChange with
    | some d =>
      let t := ({ s with clkChange := none } : State).wr Reg.CLK_STA.EFF_DIV d
      ((t.countWrap Reg.CLK_STEP_CNT.COUNT 1).raise 1 0).retarget
    | none => s)

/-- REFCLK measures a frequency within its range (R46). -/
def refInRange (khz : Nat) : Bool := decide (99900 ≤ khz) && decide (khz ≤ 100100)

/-- The monitor shows a measured REFCLK (R51). -/
def State.refMeasured (s : State) (khz : Nat) : State :=
  (s.wr Reg.CLK_REF_MON.REF_KHZ (min khz 0x1FFFF)).wrb Reg.CLK_REF_MON.REF_OK (refInRange khz)

/-- The root clock is lost (R47): the clocks stop, the secure banks are wiped, SEC logs it and raises FATAL. -/
def State.clockLost (s : State) (pllLost : Bool) : State :=
  let t := ({ s with clkStopped := true } : State).wrb Reg.CLK_STA.GLITCH true
  let t := if pllLost then t.wrb Reg.CLK_STA.ROOT_LOCK false else t
  ((((t.raise 1 2).wipeSecure).logSec Level.ERROR SecLog.CLOCK_GLITCH 0 0 0).fatal Fatal.CLOCK_GLITCH 0)

/-- CLOCK_GLITCH (R46, R47, R58): the root PLL lost its lock, or REFCLK measures out of range. The measurement goes
on after the glitch, and one within the range is only shown. -/
def execClockGlitch (found : ClockFault) (s : State) : Result :=
  .next (
    let m := s.refMeasured found.refKhz
    if (refInRange found.refKhz && !found.pllLost) || s.on Reg.CLK_STA.GLITCH then m else m.clockLost found.pllLost)

/-! The die link (R30, R59). -/

/-- A field of both die link pages. -/
def State.dlkBoth (s : State) (f : Nat → Fld) (b : Bool) : State := (s.wrb (f 0) b).wrb (f 1) b

/-- A retrain attempt begins on both halves. -/
def State.dlkRetrain (s : State) : State :=
  ((s.dlkBoth Reg.DLK_STA.UP false).dlkBoth Reg.DLK_STA.RETRAINING true).count (Reg.DLK_RETRAIN_CNT.COUNT 0) 1 |>.count (Reg.DLK_RETRAIN_CNT.COUNT 1) 1

/-- A flit received by `half` fails its CRC; it arrives with replay number `replays`, or not within 8, and the link retrains. -/
def execDlkFlitCrcFail (half replays : Nat) (s : State) : Result :=
  .next (
    if half < 2 ∧ s.on (Reg.DLK_STA.UP half) ∧ !s.clkStopped then
      let n := min (max 1 replays) 8
      let t := (s.count (Reg.DLK_CRC_CNT.COUNT half) (if 8 < replays then 9 else n)).count (Reg.DLK_REPLAY_CNT.COUNT half) n
      if 8 < replays then ({ t with dlkAttempts := 0 } : State).dlkRetrain else t
    else s)

/-- Traffic held by a retrain goes on: the records of the rings that are not faulted are written, or fail when the link has failed (R30,
R59). -/
def State.dlkResume (s : State) : State :=
  (s.rings.map (·.1)).foldl (fun t u => if t.ringSt u = RingSt.FAULT then t else (t.flushRecords u).refreshRing u) s

/-- A retrain attempt ends. -/
def execDlkRetrainDone (ok : Bool) (s : State) : Result :=
  .next (
    if !s.on (Reg.DLK_STA.RETRAINING 0) ∨ s.clkStopped then s
    else if ok then (({ s with dlkAttempts := 0 } : State).dlkBoth Reg.DLK_STA.RETRAINING false |>.dlkBoth Reg.DLK_STA.UP true).dlkResume
    else
      let n := s.dlkAttempts + 1
      let t := { s with dlkAttempts := n }
      if n < 3 then t.dlkRetrain
      else
        let t := (t.dlkBoth Reg.DLK_STA.RETRAINING false).dlkBoth Reg.DLK_STA.FAILED true
        (((((t.setFault 0x200).setFault 0x201).fatal Fatal.DIE_LINK 0).failRuns).failQueued fun m => portFar m.half m.port).dlkResume)

end Sys2Proof.Machine
end

