-- ==== Sys2Proof/Machine/Rails.lean ====
section
/-!
DEFINITION. The commands of the rail supervisor (R109-R149) and the set-points that the PWR ROM loop writes (R360).
-/
namespace Sys2Proof.Machine

/-- SUP_CMD and SUP_GROUP_CMD take writes of the PF, SEC and PWR while the device is out of reset (R135). -/
def State.supTakes (s : State) (q : Req) : Bool := (q.isPf || q = .sec || q = .pwr) && s.reqLive q && s.stage ≠ Stage.RESET

def execSupPowerUp (req : Req) (s : State) : Result := .next (if s.supTakes req then s.supPowerUp else s)

def execSupPowerDown (req : Req) (s : State) : Result := .next (if s.supTakes req then s.supPowerDown else s)

def execSupGroupOn (req : Req) (groups : Nat) (s : State) : Result :=
  .next (if s.supTakes req then s.supGroupOn (groups % 256) else s)

def execSupGroupOff (req : Req) (groups : Nat) (s : State) : Result :=
  .next (if s.supTakes req then s.powerDown (s.groupMask (groups % 256)) else s)

/-- A channel fails its sense check (R126, R142). -/
def State.senseFault (s : State) (n cause event : Nat) : State :=
  let t := ((s.setRailSt n RailSt.SENSE_FAULT).wr (Reg.RAIL_STA.CAUSE n) cause).raise 2 event
  (t.lastStatus 2 Code.POWER).history 1 n cause 0 0 (s.rd (Reg.RAIL_STA.RETRY_N n)) 0 0

/-- A sense check of a channel runs: in SENSE_CHECK, or by a power-up command that found it waiting with its enable low (R113, R126). -/
def State.checking (s : State) (n : Nat) : Bool :=
  let st := s.railSt n
  st = RailSt.SENSE_CHECK || ((st = RailSt.WAIT_DEPS || st = RailSt.START_DELAY || st = RailSt.BACKOFF) && (s.rail n).wanted && !(s.rail n).sensed)

def execSenseCheckDone (ch : Nat) (mv : Int) (s : State) : Result :=
  .next (
    if ch < 20 ∧ s.checking ch then
      (if 1000 < mv then s.senseFault ch Cause.SENSE_OPEN 1
       else if mv < -50 then s.senseFault ch Cause.SENSE_REVERSED 2
       else
         let t := s.setRail ch { s.rail ch with sensed := true }
         if s.railSt ch = RailSt.SENSE_CHECK then t.setRailSt ch RailSt.WAIT_DEPS else t).settleRails
    else s)

/-! Set-points (R129, R131, R132, R148, R360). -/

/-- A set-point for a channel, as PWR writes it. -/
def State.railSet (s : State) (n mv : Nat) : State :=
  if s.rd (Reg.RAIL_VOUT.VMIN n) ≤ mv ∧ mv ≤ s.rd (Reg.RAIL_VOUT.VMAX n) then
    let t := s.wr (Reg.RAIL_SET.VOUT n) mv
    if !s.on (Reg.RAIL_PMB.BOUND n) ∨ s.on (Reg.RAIL_STA.PMB_FORMAT n) then t
    else if s.on (Reg.RAIL_STA.PMB_STALE n) then t.setRail n { s.rail n with held := some mv }
    else t.emit (.vout n mv)
  else (s.raise 2 9).lastStatus 2 Code.BOUNDS

/-- The core channel `j` of THM_CORE_CH (R364), if it is set. -/
def State.coreCh (s : State) (j : Nat) : Option Nat :=
  let c := byteOf (s.rd Reg.THM_CORE_CH.CH) j
  if c < 20 then some c else none

/-- The set-point of core channel `j` at operating point `k`. -/
def State.opMv (s : State) (k j : Nat) : Nat := bits (s.rd (Reg.THM_OP.MV k)) (16 * j) 16

/-- The ROM safe loop writes the OP3 voltage of each core channel that has entered ON (R360). -/
def State.romSetPoints (old s : State) : State :=
  if s.clerkSt 2 ≠ ClerkSt.ROM then s
  else (List.range 4).foldl (fun t j =>
    match t.coreCh j with
    | some n => if old.railSt n ≠ RailSt.ON ∧ t.railSt n = RailSt.ON then t.railSet n (t.opMv 3 j) else t
    | none => t) s

/-- A sample period (R110, R111); a boot that waits for the rails may start after it (R776). -/
def execRailSample (samples : List Nat) (pg : Nat) (s : State) : Result :=
  .next ((State.romSetPoints s (s.sampleRails samples pg)).bootWaits)

/-- The start delay ends: the enable rises, unless a sense check of the power-up is still due (R113, R126). -/
def execRailStartDelayDone (ch : Nat) (s : State) : Result :=
  .next (
    if ch < 20 ∧ s.railSt ch = RailSt.START_DELAY ∧ !s.checksDue then
      ((s.setRailSt ch RailSt.SOFT_START).setRail ch { s.rail ch with en := true, shown := 0 }).settleRails
    else s)

/-- SS_TIMEOUT passes without a good decision (R141): below UV a short is suspected, else the power-good is missing; a sense exactly at UV or
at or above OV, and thresholds that do not verify, take PG_MISSING (log entry 30). -/
def execSsTimeout (ch : Nat) (s : State) : Result :=
  .next (
    if ch < 20 ∧ s.railSt ch = RailSt.SOFT_START then
      match s.railWindow ch with
      | none => ((s.cfCorrupt 2).railFaults [(ch, Cause.PG_MISSING)]).settleRails
      | some (uv, _) =>
        (s.railFaults [(ch, if s.rd (Reg.RAIL_STA.SENSE ch) < uv then Cause.SHORT_SUSPECT else Cause.PG_MISSING)]).settleRails
    else s)

def execRailStopDelayDone (ch : Nat) (s : State) : Result :=
  .next (
    if ch < 20 ∧ s.railSt ch = RailSt.STOP_WAIT ∧ (s.rail ch).waitOn = 0 then
      ((s.dropRail ch RailSt.OFF false).settleRails).bootWaits
    else s)

def execDischargeTimeout (ch : Nat) (s : State) : Result :=
  .next (if ch < 20 ∧ s.railSt ch = RailSt.DISCHARGE then (((s.confirmOff ch).raise 2 10).settleRails).bootWaits else s)

def execRailBackoffDone (ch : Nat) (s : State) : Result :=
  .next (
    if ch < 20 ∧ s.railSt ch = RailSt.BACKOFF then
      ((s.setRailSt ch RailSt.WAIT_DEPS).count (Reg.RAIL_STA.RETRY_N ch) 1).settleRails
    else s)

def execRetryCounterReset (ch : Nat) (s : State) : Result :=
  .next (if ch < 20 ∧ s.railSt ch = RailSt.ON then s.wr (Reg.RAIL_STA.RETRY_N ch) 0 else s)

/-- THERMTRIP_N is low (R133, R149); the latch holds it until PERST_N. -/
def execThermtrip (s : State) : Result := .next (if s.on Reg.SUP_STA.THERMTRIP then s else s.thermTrip.bootWaits)

/-- A level below −0.5 V in units of 10 mV, one for every number. -/
def reversedVhold (n : Nat) : Int := -51 - (n % 32718 : Nat)

/-- VHOLD falls below −0.5 V (R127, R143), to a level that no rule states: the readout shows it in two's complement (R135; log entry 6). -/
def execHoldReversed (s : State) : Result :=
  .next (
    let v := reversedVhold (Config.freeNat s.free)
    if s.on Reg.SUP_HOLD_STA.REVERSED then (s.setVhold v).skipFree 1
    else
      let t := ((((s.setVhold v).skipFree 1).wrb Reg.SUP_HOLD_STA.REVERSED true).raise 2 8).wrb Reg.VLT_STA.CHARGING false
      ((t.wrb Reg.VLT_STA.REFUSED true).refreshArmed).history 8 0xFF 0 0 0 0 (s.rd Reg.VLT_VMAIN.MIN) (t.rd Reg.SUP_HOLD_STA.VHOLD))

/-! PMBus (R130, R132, R148). -/

/-- A transaction with a bound channel fails after its retries, or is a good read. -/
def State.pmbResult (s : State) (r : PmbResult) (full : Bool) : State :=
  let n := r.channel
  if 20 ≤ n ∨ !s.on (Reg.RAIL_PMB.BOUND n) then s
  else if r.fail then ((s.wrb (Reg.RAIL_STA.PMB_STALE n) true).count Reg.SUP_PMB_STA.ERRORS 1).raise 2 6
  else
    let x := s.rail n
    let t := s.wrb (Reg.RAIL_STA.PMB_STALE n) false
    let t := if full then (t.wr (Reg.RAIL_TELEM.VOUT n) r.vout).wr (Reg.RAIL_TELEM.IOUT n) r.iout else t
    let t := t.setRail n { x with temp := if full then r.temp else x.temp, status := r.status, held := none }
    match x.held with
    | some mv => if s.on (Reg.RAIL_STA.PMB_FORMAT n) then t else t.emit (.vout n mv)
    | none => t

def execPmbPoll (res : List PmbResult) (s : State) : Result := .next (res.foldl (fun t r => t.pmbResult r true) s)

def execPmbAlert (res : List PmbResult) (s : State) : Result := .next (res.foldl (fun t r => t.pmbResult r false) s)

/-- Only PWR writes RAIL_SET (R131). -/
def execRailSetWrite (req : Req) (ch mv : Nat) (s : State) : Result :=
  .next (if req = .pwr ∧ s.reqLive req ∧ ch < 20 then s.railSet ch mv else s)

end Sys2Proof.Machine
end

