-- ==== Sys2Proof/Machine/RegOps.lean ====
section
/-!
DEFINITION. Register accesses that have no command of their own: plain, staged and counterfoil writes, absent pages, the split read of a
64-bit register, the event registers, the soft reset of a unit, and OTP_READ_ROW (R14-R18, R38, R61-R70, R75, R76, R83, R96, R176).
-/
namespace Sys2Proof.Machine

/-! Where an access lands (R68-R70). -/

/-- What a BAR 0 offset of a requester addresses: a register page by its PF offset, the read-only ACT page of a VF, the tally window, the
Vault window, or nothing. -/
inductive Hit where
  | page (off : Nat)
  | actOfVf
  | tally
  | vault (off : Nat)
  | unmapped
deriving DecidableEq, Repr

/-- The PF BAR 0 map. -/
def pfHit (off : Nat) : Hit :=
  if 0x1000000 ≤ off ∧ off < 0x1200000 then .tally
  else if 0x2000000 ≤ off ∧ off < 0x3000000 then .vault (off - 0x2000000)
  else if off < 0x4000000 ∧ (pageKind (off / 0x1000)).isSome then .page off
  else .unmapped

/-- The VF BAR 0 map of account `a`. -/
def vfHit (a off : Nat) : Hit :=
  if off < 0x1000 then .page (0x20000 + 0x1000 * a + off)
  else if off < 0x2000 then .actOfVf
  else if 0x10000 ≤ off ∧ off < 0x30000 then .page (0x3000000 + 0x20000 * a + (off - 0x10000))
  else if 0x80000 ≤ off ∧ off < 0x100000 then .tally
  else .unmapped

/-- The map a requester sees: a VF its own, everybody else that of the PF. -/
def hitOf (q : Req) (off : Nat) : Hit :=
  match q with
  | .fn 0 => pfHit off
  | .fn a => vfHit a off
  | _ => pfHit off

/-- Pages a board image hook may write: SUP, THM and the serial ports (R199). -/
def hookPage (pg : Nat) : Bool := pg = 2 || pg = 5 || pg = 6 || pg = 8

/-- A requester whose writes a page takes: an MBX page only those of its own function (R308). -/
def takesWrites (q : Req) (pg : Nat) : Bool :=
  match pageKind pg with
  | some (.mbx, a) => q = .fn a
  | some _ => true
  | none => false

/-- A requester's write to offset `off` as it arrives: one that cannot access its registers is answered as R186 says or ignored, and a hook's
access outside its pages halts the hook (R199). -/
def State.arrives (s : State) (q : Req) (off : Nat) (run : State → State) : State :=
  if !s.reqLive q then (match q with | .fn a => s.unsupported a off | _ => s)
  else if q = .hook ∧ !hookPage (off / 0x1000) then s.endHook (some .violation)
  else run s

/-! Register values (R14, R18). -/

/-- `n` bytes of value `v`, at byte offset `d` within a register, as bits of the register. -/
def laneMask (d n : Nat) : Nat := (2 ^ (8 * n) - 1) * 2 ^ (8 * d)

/-- A register value after a write of bits `w` under mask `m`. -/
def mergeBits (old w m : Nat) : Nat := (old &&& (2 ^ 64 - 1 - m)) ||| (w &&& m)

/-- A field of a register value takes its old value where the new one is reserved (R18). -/
def keepField (f : Fld) (ok : Nat → Bool) (old new : DWord) : DWord := if ok (f.get new) then new else f.put new (f.get old)

/-! Registers whose write has a command of its own. -/

/-- CTL, the event registers, and the registers whose write is a row of the opcode table; REGISTER_WRITE leaves these alone (CTL is taken
apart by `ctlWrite`). -/
def ownCommand (k : PageKind) (o : Nat) : Bool :=
  (k ≠ .ring && (o == 0x10 || o == 0x14 || o == 0x1C)) ||
  match k with
  | .clk => o == 0x44 || o == 0x48
  | .sup => decide (0x100 ≤ o) && o % 0x40 == 0x34
  | .otp => o == 0x60
  | .thm => decide (0x160 ≤ o) && decide (o < 0x180)
  | .ring => o == 0x1C || o == 0x44 || o == 0x60
  | .til => o == 0x44
  | .bnk => o == 0x58 || (decide (0x68 ≤ o) && decide (o < 0x74))
  | .mte => o == 0x40
  | .fol => o == 0x48
  | .tsy => o == 0x60
  | _ => false

/-- Pages whose CTL.ENABLE has a command of its own. -/
def ownEnable (k : PageKind) : Bool := k = .act || k = .til || k = .fpt

/-- Pages on which the SOFT_RESET bit of a CTL write is ignored (R64). -/
def noSoftReset (k : PageKind) : Bool := k = .glb || k = .clk || k = .sup || k = .otp

/-! Soft reset (R64, R259). -/

/-- A pending transfer of a serial port ends ABORTED. -/
def State.abortPending (s : State) (u : Nat) : State :=
  if s.rd (Reg.SPX_XFER_STA.STATE u) = 1 then
    (((s.wr (Reg.SPX_XFER_STA.STATE u) 3).wr (Reg.SPX_XFER_STA.CODE u) Code.ABORTED).raise (5 + u) 1).lastStatus (5 + u) Code.ABORTED
  else s

/-- CTL.ENABLE of a page clears, with what that means on a port and a tile. -/
def State.enableOff (s : State) (pg : Nat) : State :=
  let t := s.wrb (Reg.CTL.ENABLE pg) false
  match pageKind pg with
  | some (.fpt, p) => t.portGo p PortSt.DISABLED 0
  | some (.til, i) => t.tileSettle i
  | some (.spx, u) => t.abortPending u
  | _ => t

/-- A write of SOFT_RESET = 1. -/
def State.softReset (s : State) (pg : Nat) : State := (s.wrb (Reg.CTL.SOFT_RESET pg) true).enableOff pg

/-- A write of CTL: nothing while the unit resets; a soft reset alone where the bit acts; else ENABLE and UNIT. -/
def State.ctlWrite (s : State) (k : PageKind) (pg w : Nat) : State :=
  if s.resetting pg then s
  else if bit w 1 ∧ !noSoftReset k then s.softReset pg
  else
    let t := s.wr (Reg.CTL.UNIT pg) (bits w 4 4)
    if ownEnable k then t else t.wr (Reg.CTL.ENABLE pg) (bits w 0 1)

/-! Live writes. -/

/-- FWP_WD: MAX is 1-4,000 ms, MIN below MAX (R332). -/
def wdValue (old new : DWord) : DWord :=
  let lo := Reg.FWP_WD.MIN 0
  let hi := Reg.FWP_WD.MAX 0
  let x := keepField hi (fun v => decide (1 ≤ v) && decide (v ≤ 4000)) old new
  if lo.get x < hi.get x then x
  else if lo.get old < hi.get x then lo.put x (lo.get old) else old

/-- NTC_CFG: ENTRIES 1-64, and kept while ENABLE is 1 (R333). -/
def ntcValue (old new : DWord) : DWord :=
  let f := Reg.NTC_CFG.ENTRIES 0
  keepField f (fun v => decide (1 ≤ v) && decide (v ≤ 64) && (Reg.NTC_CFG.ENABLE 0).get old = 0) old new

/-- SPX_XFER_A: CMD_LEN and ADDR_LEN keep their values where the write names the reserved length 3 (R248). -/
def xferValue (u : Nat) (old new : DWord) : DWord :=
  keepField (Reg.SPX_XFER_A.ADDR_LEN u) (fun x => decide (x ≤ 2)) old (keepField (Reg.SPX_XFER_A.CMD_LEN u) (fun x => decide (x ≤ 2)) old new)

/-- A write of a ring page register by its own function or the PF (R409, R441). -/
def State.ringRegWrite (s : State) (q : Req) (u key : Nat) (v : DWord) : State :=
  match q with
  | .fn a =>
    if a ≠ 0 ∧ a ≠ u / 32 then s
    else if s.rd (Reg.ACT_RINGS.COUNT (u / 32)) ≤ u % 32 then s.lastCode u Code.PERMISSION
    else
      let o := key % 0x1000
      if o = 0x08 ∨ o = 0x10 ∨ o = 0x18 then
        if s.ringSt u = RingSt.DISABLED then s.setCell key v else s.lastCode u Code.LIMIT
      else if o = 0x48 then s.setCell key (keepField (Reg.RING_VEC.VECTOR u) (fun x => decide (2 ≤ x)) (s.cell key) v)
      else if o = 0x4C then
        if (Reg.RING_ERR_TALLY.VALID u).get v = 1 ∧ !s.ownsTally (u / 32) ((Reg.RING_ERR_TALLY.TALLY u).get v) then s.lastCode u Code.PERMISSION
        else s.setCell key v
      else if o = 0x68 then (s.setCell key v).fireWatch u
      else s
  | _ => s

/-- A write of `v` (the new value of the whole register) to a live register that is not postable and not a counterfoil, by the rules of its
page on who may write it and when. -/
def State.liveWrite (s : State) (q : Req) (k : PageKind) (inst key : Nat) (v : DWord) : State :=
  let pg := key / 0x1000
  let o := key % 0x1000
  let old := s.cell key
  let set := s.setCell key v
  if k = .ring then s.ringRegWrite q inst key v
  else if o = 0x20 then
    if (List.range 4).any s.slotBusy then s.raise pg 24 else if postablePages.contains pg then set else s
  else
    match k with
    | .glb =>
      if 0x140 ≤ o ∧ o < 0x1C0 then
        let n := (o - 0x140) / 0x20
        if !s.ownsSlot q n then s
        else if o % 0x20 = 0x10 ∧ s.slotBusy n then s.raise 0 24 else set
      else set
    | .otp | .til | .hmc | .mpu | .bnk | .col | .mnt | .upd => if q.isPf then set else s
    | .spx => s.ownerWrite inst q fun t => (t.setCell key (if o = 0xC0 then xferValue inst old v else v)).fifoEvents inst
    | .fwp =>
      if o = 0x44 then (if q.clerk = some inst then s.setCell key (wdValue old v) else s)
      else if !q.isPf then s
      else if o = 0x5C then s.setCell key (keepField (Reg.FWP_LOG_LEVEL.LEVEL inst) (fun x => decide (x ≤ 4)) old v) else set
    | .mbx =>
      if o < 0x80 then
        let p := (o - 0x40) / 0x40
        if p = 1 ∧ inst ≠ 0 then s
        else if o % 0x40 < 0x10 ∧ (s.rd (Reg.MBX_STA.STATE inst p) = 1 ∨ s.rd (Reg.MBX_STA.STATE inst p) = 2) then s else set
      else if o = 0xC0 then (if s.on (Reg.NTC_CFG.ENABLE inst) then s else set)
      else if o = 0xC8 then s.setCell key (ntcValue old v) else set
    | .act | .pcx => if q.isPf then set else s
    | _ => set

/-- A page of the clerks takes CTL writes of the clerks alone; any other page those of whoever it takes writes from (R332). -/
def ctlTaker (q : Req) (k : PageKind) : Bool := k ≠ .fwp || q.clerk.isSome

/-- A write of `n` enabled bytes (4, or 8 onto one 64-bit register) at a live offset. A write at the live offset of a postable
counterfoil sets STAGE_VIOLATION alone, whatever its width (R75, R101 and R96, R107 meet there; log entry 10). -/
def State.liveOffset (s : State) (q : Req) (k : PageKind) (inst off n v : Nat) : State :=
  let pg := off / 0x1000
  match regRowAt off with
  | none => if k = .ring ∧ s.rd (Reg.ACT_RINGS.COUNT (inst / 32)) ≤ inst % 32 then s.lastCode inst Code.PERMISSION else s
  | some (r, key) =>
    let d := off - key
    let w := v % 2 ^ (8 * n) * 2 ^ (8 * d)
    if r.posted then s.raise pg 24
    else if r.cf then (if n = 8 ∧ cfOk (v % 2 ^ 64) then s else s.raise pg 25)
    else if k = .ring ∧ key % 0x1000 = 0x50 then (if n = 8 then s else s.ringWrite (match q with | .fn a => a | _ => 32) (inst / 32) (inst % 32) fun t u => t.lastCode u Code.FORMAT)
    else if k = .ring ∧ key % 0x1000 = 0x1C ∧ bit w 1 ∧ bit w 2 then
      s.ringWrite (match q with | .fn a => a | _ => 32) (inst / 32) (inst % 32) fun t u => t.lastCode u Code.FORMAT
    else if k ≠ .ring ∧ key % 0x1000 = 0x08 then (if ctlTaker q k then s.ctlWrite k pg w else s)
    else if ownCommand k (key % 0x1000) then s
    else if r.w1c ≠ 0 then s.setCell key (s.cell key &&& ~~~ (BitVec.ofNat 64 (w &&& r.w1c)))
    else if r.rw = 0 then s
    else s.liveWrite q k inst key (BitVec.ofNat 64 (mergeBits (s.cell key).toNat w (r.rw &&& laneMask d n)))

/-! Staged writes (R75, R76, R83, R96). -/

/-- The staged view of a page is frozen by a running action. -/
def State.frozen (s : State) (pg : Nat) : Bool := bit (s.rd Reg.GLB_POST_BUSY.GROUPS) (s.postGroup pg)

/-- A serial port's postable registers are staged by its owner (R223). -/
def State.stager (s : State) (q : Req) (k : PageKind) (inst : Nat) : Bool := k ≠ .spx || s.spxOwner inst q

/-- A write of `n` bytes at the staged offset of the live offset `off`. -/
def State.stagedOffset (s : State) (q : Req) (k : PageKind) (inst off n v : Nat) : State :=
  let pg := off / 0x1000
  match regRowAt off with
  | none => s
  | some (r, key) =>
    let d := off - key
    if !r.posted then s
    else if !s.stager q k inst then (s.raise pg 8).lastStatus pg Code.PERMISSION
    else if s.frozen pg then s.raise pg 24
    else if r.cf then
      if n = 8 ∧ cfOk (v % 2 ^ 64) then s.stageFld ⟨key, 0, 64⟩ v else s.raise pg 25
    else
      let t := s.stageFld ⟨key, 0, 64⟩ (mergeBits (s.stagedCell key).toNat (v % 2 ^ (8 * n) * 2 ^ (8 * d)) (r.rw &&& laneMask d n))
      let f := Reg.STAGE_DIRTY.CLUSTER pg
      t.wr f (setBit (t.rd f) (off % 0x1000 / 64) true)

/-! A write as it arrives (R66). -/

/-- One part of a write: a word, or the whole of a 64-bit register. -/
def State.partWrite (s : State) (q : Req) (off n v : Nat) : State :=
  match pageKind (off / 0x1000) with
  | none => s
  | some (k, inst) =>
    if k ≠ .ring ∧ 0x800 ≤ off % 0x1000 then s.stagedOffset q k inst (off - 0x800) n v else s.liveOffset q k inst off n v

/-- An offset at which a 64-bit write reaches one 64-bit register, in the live or the staged view. -/
def wideAt (off : Nat) : Bool :=
  let o := if 0x800 ≤ off % 0x1000 then off - 0x800 else off
  match regRowAt o with
  | some (r, key) => r.bytes = 8 && key = o
  | none => false

/-- A write with all the bytes of its words enabled, by words unless it reaches one 64-bit register. -/
def State.wordWrite (s : State) (q : Req) (off size v : Nat) (low high : Bool) : State :=
  if size = 4 then (if low then s.partWrite q off 4 v else s)
  else if low && high && wideAt off then s.partWrite q off 8 v
  else
    let t := if low then s.partWrite q off 4 v else s
    if high then t.partWrite q (off + 4) 4 (v / 2 ^ 32) else t

/-- The tally a function's offset in its tally window names (R69). -/
def State.tallyIx (s : State) (fn off : Nat) : Nat :=
  if fn = 0 then (off - 0x1000000) / 8 else s.rd (Reg.ACT_TALLY.FIRST fn) + (off - 0x80000) / 8

/-- That tally, where the function reaches it (R70). -/
def State.tallyAt (s : State) (fn off : Nat) : Option Nat :=
  if fn = 0 ∨ s.ownsTally fn (s.tallyIx fn off) then some (s.tallyIx fn off) else none

/-- A register write of any requester at an offset of the BAR 0 it sees. A part that R66 refuses sets BAD_ACCESS; the rest acts. -/
def State.pageWrite (s : State) (q : Req) (off size be v : Nat) : State :=
  s.arrives q off fun s =>
    let aligned := (size = 4 && off % 4 = 0) || (size = 8 && off % 8 = 0)
    let t := if badAccess off size be then s.raise 0 2 else s
    let low := aligned && wordOn be 0
    let high := aligned && wordOn be 1
    match hitOf q off with
    | .unmapped => t.raise 0 1
    | .tally => match q with
      | .fn a => if aligned ∧ low ∧ (size = 4 ∨ high) ∨ a ≠ 0 ∧ (s.tallyAt a off).isNone then t.tallyWrite a (s.tallyIx a off) (if aligned ∧ low ∧ high then size else 4) v
        else t
      | _ => t
    | .actOfVf => match q with
      | .fn a => t.raise (0x40 + a) 24
      | _ => t
    | .vault o =>
      if size = 8 ∧ low ∧ high then t.vaultWrite o (leBytes 8 v)
      else
        let t := if low then t.vaultWrite o (leBytes 4 v) else t
        if high ∧ size = 8 then t.vaultWrite (o + 4) (leBytes 4 (v / 2 ^ 32)) else t
    | .page o =>
      if s.pageAbsent (o / 0x1000) then t.absentWrite (o / 0x1000)
      else if takesWrites q (o / 0x1000) then t.wordWrite q o size v low high else t

/-- REGISTER_WRITE: byte enables as given. -/
def execRegisterWrite (req : Req) (off size be value : Nat) (s : State) : Result := .next (s.pageWrite req off size be value)

/-- STAGED_WRITE: every byte enabled. -/
def execStagedWrite (req : Req) (off size value : Nat) (s : State) : Result := .next (s.pageWrite req off size 0xFF value)

/-- CF_WRITE: every byte enabled. -/
def execCfWrite (req : Req) (off size value : Nat) (s : State) : Result := .next (s.pageWrite req off size 0xFF value)

/-- ABSENT_PAGE_WRITE: a requester that reaches the page writes it; only pages of absent units answer so. -/
def execAbsentPageWrite (req : Req) (off : Nat) (s : State) : Result :=
  .next (s.arrives req off fun s =>
    match hitOf req off with
    | .page o => if s.pageAbsent (o / 0x1000) then s.absentWrite (o / 0x1000) else s
    | _ => s)

/-! Reads (R38, R48, R61, R67-R70, R76). -/

/-- ID.CLASS of a kind of page (R48). -/
def classCode : PageKind → Nat
  | .glb => 0x0001
  | .clk => 0x0002
  | .sup => 0x0003
  | .otp => 0x0004
  | .boot => 0x0005
  | .spx => 0x0006
  | .vlt => 0x0007
  | .thm => 0x0008
  | .pcx => 0x0009
  | .fwp => 0x000A
  | .mbx => 0x000B
  | .act => 0x000C
  | .dsp => 0x0010
  | .til => 0x0011
  | .bnk => 0x0012
  | .mte => 0x0013
  | .hmc => 0x0014
  | .mpu => 0x0015
  | .fol => 0x0016
  | .dlk => 0x0017
  | .fpt => 0x0018
  | .xpt => 0x0019
  | .tsy => 0x001A
  | .col => 0x001B
  | .mnt => 0x001C
  | .upd => 0x001D
  | .lsc => 0x001E
  | .ring => 0

/-- ID of a present page: class, instance and revision (R48, R61). -/
def idWord (k : PageKind) (inst : Nat) : Nat := classCode k + inst * 2 ^ 16 + 2 ^ 24

/-- CAP of a page (R478, R705). -/
def capWord : PageKind → Nat
  | .til => 0x103
  | .mnt => 3
  | _ => 0

/-- The work a unit had accepted is over. -/
def State.unitIdle (s : State) (pg : Nat) : Bool :=
  let quiet := s.ops.all fun o => !o.issued || s.enginePageOf o ≠ some pg
  match pageKind pg with
  | some (.spx, u) => s.rd (Reg.SPX_PORT_STA.OP u) = 0 && (s.port u).demand.isEmpty && (s.port u).waits.isEmpty
  | some (.dsp, h) => s.ops.all fun o => s.opHalf o ≠ h
  | some (.col, _) | some (.mnt, _) | some (.upd, _) | some (.fol, _) => quiet
  | some (.lsc, _) => s.commits.isEmpty && quiet
  | some (.mte, h) => s.rd (Reg.MTE_STA.STATE h) ≠ 1
  | some (.mbx, a) => [0, 1].all fun p => s.rd (Reg.MBX_STA.STATE a p) ≠ 1 && s.rd (Reg.MBX_STA.STATE a p) ≠ 2
  | some (.vlt, _) => s.vault.run.isNone && !s.vault.testRunning
  | some (.boot, _) => s.stage ≠ Stage.LOADING && s.stage ≠ Stage.UNLOADING
  | some (.til, i) => !s.on (Reg.TIL_STA.RUNNING i)
  | some (.bnk, h) => s.wiping h = 0 && (List.range 48).all (fun b => s.bankSta h b ≠ 3) && s.bankWait.all fun x => x.half ≠ h
  | some (.hmc, k) => !s.on (Reg.HMC_STA.RETRAINING k)
  | some (.dlk, _) => !s.dlkHeld
  | some (.fwp, n) => !s.dumps.contains n
  | some (.xpt, _) => s.fabricIdle
  | _ => true

/-- Work in flight (STA.BUSY, R61), unit by unit (log entry 20). -/
def State.unitBusy (s : State) (pg : Nat) : Bool :=
  !s.unitIdle pg ||
  match pageKind pg with
  | some (.glb, _) => (List.range 4).any s.slotBusy
  | some (.clk, _) => s.clkChange.isSome
  | some (.sup, _) => s.seqOf = Seq.STARTING || s.seqOf = Seq.STOPPING
  | some (.otp, _) => s.lcRun.phase ≠ .none
  | some (.act, a) => s.on (Reg.ACT_STA.SCRUBBING a) || s.on (Reg.ACT_STA.FLR a) || s.ops.any fun o => o.acct = a
  | some (.pcx, _) => s.rd Reg.PCX_FLR_STA.FLR ≠ 0
  | some (.fpt, p) => s.txStreams.any fun e => e.2.msgs.any fun m => m.port = p
  | some (.tsy, _) => s.on Reg.TSY_STA.SLEWING
  | _ => false

/-- Initialised and able to accept work (STA.READY, R61): a fabric port in UP (R620); any other unit while its die runs, it is not faulted
and no soft reset of it is in progress (log entry 20). -/
def State.unitReady (s : State) (k : PageKind) (pg : Nat) : Bool :=
  if k = .fpt then s.on (Reg.STA.READY pg)
  else s.stage ≠ Stage.RESET && !s.on (Reg.STA.FAULT pg) && !s.resetting pg && (k = .act || !computePage pg || s.computeOn)

/-- STA of a present page. -/
def State.staWord (s : State) (k : PageKind) (pg : Nat) : Nat :=
  b2n (s.unitReady k pg) + b2n (s.unitBusy pg) * 2 + s.rd (Reg.STA.FAULT pg) * 4

/-- The 32-bit word at an offset of a register page: of an absent unit only STA.ABSENT is set; a staged offset shows the staged view. -/
def State.pageWord (s : State) (off : Nat) : Nat :=
  let a := off / 4 * 4
  let pg := a / 0x1000
  let o := a % 0x1000
  match pageKind pg with
  | none => 0
  | some (k, inst) =>
    let st := k ≠ .ring && decide (0x800 ≤ o)
    if s.pageAbsent pg then (if o = 0x0C then 8 else 0)
    else if k ≠ .ring ∧ o = 0x00 then idWord k inst
    else if k ≠ .ring ∧ o = 0x04 then capWord k
    else if k ≠ .ring ∧ o = 0x0C then s.staWord k pg
    else if k ≠ .ring ∧ o = 0x18 then s.evtPend pg
    else if a / 8 * 8 = Reg.GLB_TIME.NS.key then bits s.now (a % 8 * 8) 32
    else match regRowAt (if st then a - 0x800 else a) with
      | none => 0
      | some (r, key) =>
        if k = .ring ∧ o = 0x20 ∧ s.rd (Reg.ACT_RINGS.COUNT (inst / 32)) ≤ inst % 32 then
          mergeBits (s.cell key).toNat (Code.PERMISSION * 2 ^ 8) 0xFF00
        else if !st then bits (s.cell key).toNat (8 * (a - key)) 32
        else if r.posted then bits (s.stagedCell key).toNat (8 * (a - 0x800 - key)) 32 else 0

/-- The 32-bit word that a function reads at an offset of its BAR 0; what no rule assigns reads 0. -/
def State.readWord (s : State) (fn off : Nat) : Nat :=
  match hitOf (.fn fn) off with
  | .page o => s.pageWord o
  | .actOfVf => s.pageWord (0x40000 + 0x1000 * fn + off % 0x1000)
  | .tally => match s.tallyAt fn off with
    | some i => bits (s.tally i) (off / 4 % 2 * 32) 32
    | none => 0
  | .vault o => leNat (bytesAt s.vault.sram (o / 4 * 4) 4)
  | .unmapped => 0

/-- The logs that a read of their low half takes an entry from (R504, R527); their reads are commands of their own. -/
def takingRead (key : Nat) : Bool :=
  (decide (0x180 ≤ key / 0x1000) && decide (key / 0x1000 < 0x188) && key % 0x1000 == 0x58) || key == 0x140088 || key == 0x141088 || key == 0x142050 || key == 0x143050

/-- The value of a readable 64-bit register that is not a counterfoil: live, or staged; GLB_TIME counts. -/
def State.wideValue (s : State) (off : Nat) : Option Nat :=
  let st := decide (0x800 ≤ off % 0x1000) && (match pageKind (off / 0x1000) with | some (k, _) => k ≠ .ring | none => false)
  let o := if st then off - 0x800 else off
  match regRowAt o with
  | some (r, key) =>
    if r.bytes ≠ 8 ∨ r.cf ∨ key ≠ o ∨ (st ∧ !r.posted) ∨ takingRead key then none
    else if st then some (s.stagedCell key).toNat
    else if key = Reg.GLB_TIME.NS.key then some s.now
    else some (s.cell key).toNat
  | none => none

/-- The 64-bit value a function reads at an offset: a register of a present page, or a tally it reaches. -/
def State.wideRead (s : State) (fn off : Nat) : Option Nat :=
  match hitOf (.fn fn) off with
  | .page o => if s.pageAbsent (o / 0x1000) then none else s.wideValue o
  | .actOfVf => s.wideValue (0x40000 + 0x1000 * fn + off % 0x1000)
  | .tally => if off % 8 = 0 then (s.tallyAt fn off).map s.tally else none
  | _ => none

/-- A 32-bit read of bits 63:32: the latched value of that register, once, or the live one. -/
def State.readHigh (s : State) (fn off : Nat) : State :=
  let live := match s.wideRead fn (off - 4) with
    | some v => s.emit (.regRead off (v / 2 ^ 32))
    | none => s
  match tblGet none s.split fn with
  | some (o, h) => if o + 4 = off then ({ s with split := tblSet none s.split fn none } : State).emit (.regRead off h.toNat) else live
  | none => live

/-- A VF reads beyond its account's tally range. -/
def State.beyond (s : State) (fn off : Nat) : Bool := fn ≠ 0 && hitOf (.fn fn) off = .tally && (s.tallyAt fn off).isNone

/-- Such a read reads 0 and leaves PERMISSION (R70). -/
def State.readBeyond (s : State) (fn off : Nat) : State := (s.lastStatus (0x40 + fn) Code.PERMISSION).emit (.regRead off 0)

/-- A read of VLT_VMAIN shows the lowest sample since the last one and starts the next span at the latest (R284). -/
def State.readVmain (s : State) (off : Nat) : State :=
  (s.emit (.regRead off (s.pageWord off))).wr Reg.VLT_VMAIN.MIN (s.rd Reg.VLT_VMAIN.NOW)

/-- A 32-bit read of bits 31:0 returns them and latches bits 63:32 for the function, whose next read of those returns the latched value; one
of GLB_TIME latches GLB_TIME_FRAC too (R78). -/
def execSplitReadLatch (fn off : Nat) (s : State) : Result :=
  .next (
    if !s.fnLive fn then s.unsupportedRead fn off
    else match s.wideRead fn off with
      | some v =>
        let t := s.latch fn off (BitVec.ofNat 32 (v / 2 ^ 32))
        let t := if fn = 0 ∧ off = Reg.GLB_TIME.NS.key then t.wr Reg.GLB_TIME_FRAC.FRAC (s.timeFine % 2 ^ 56 / 2 ^ 40) else t
        t.emit (.regRead off (v % 2 ^ 32))
      | none =>
        if hitOf (.fn fn) off = .page Reg.VLT_VMAIN.NOW.key then s.readVmain off
        else if s.beyond fn off then s.readBeyond fn off
        else if off % 8 = 4 then s.readHigh fn off else s)

/-! Event registers (R61-R63, R378). -/

/-- A requester writes an event register of a page: an absent page answers as R38 says, and the read-only ACT page of a VF as R70. -/
def State.evtWrite (s : State) (q : Req) (pg : Nat) (run : State → State) : State :=
  match pageKind pg with
  | none => s
  | some (k, _) =>
    let reach : Bool := match q with | .fn a => a = 0 || pg = 0x20 + a | _ => true
    let own : Bool := match q with | .fn a => a ≠ 0 && pg = 0x40 + a | _ => false
    s.arrives q (pg * 0x1000) fun s =>
      if k = .ring then s
      else if own then s.raise pg 24
      else if !reach then s
      else if s.pageAbsent pg then s.absentWrite pg
      else if takesWrites q pg then run s else s

/-- Events that last while their condition does: TX_LOW and RX_HIGH of a serial port (R248). -/
def State.lastingEvents (s : State) (pg : Nat) : State :=
  match pageKind pg with
  | some (.spx, u) => s.fifoEvents u
  | _ => s

/-- A 1 clears a bit, but an event that lasts is set again; the vector is raised again while EVT_PEND is not 0. -/
def execEvtRawClear (req : Req) (page value : Nat) (s : State) : Result :=
  .next (s.evtWrite req page fun t =>
    ((t.wr (Reg.EVT_RAW.RAW page) (t.rd (Reg.EVT_RAW.RAW page) &&& (2 ^ 32 - 1 - value % 2 ^ 32))).reRaise page).lastingEvents page)

def execEvtEnWrite (req : Req) (page value : Nat) (s : State) : Result :=
  .next (s.evtWrite req page fun t => (t.wr (Reg.EVT_EN.EN page) value).reRaise page)

/-- EVT_FORCE takes writes of the PF and the clerks only; the vector is raised again while EVT_PEND is not 0. -/
def execEvtForce (req : Req) (page value : Nat) (s : State) : Result :=
  .next (s.evtWrite req page fun t =>
    if req.direct then (t.wr (Reg.EVT_RAW.RAW page) (t.rd (Reg.EVT_RAW.RAW page) ||| value % 2 ^ 32)).reRaise page else t)

/-! Soft reset as commands of its own. -/

def execSoftReset (req : Req) (page : Nat) (s : State) : Result :=
  .next (
    match pageKind page with
    | some (k, _) => s.evtWrite req page fun t => if noSoftReset k ∨ !ctlTaker req k ∨ t.resetting page then t else t.softReset page
    | none => s)

/-- Registers a soft reset keeps beside the postable ones: POST_GRP (R64), SPX_PORT_STA, SPX_WIRE_STA and SPX_SFDP (R248), and
ACT_STA, ACT_EPOCH, ACT_DRAIN_AT and ACT_OLD (R397), what FWP_TOTAL and FWP_FATAL hold since PERST_N (R306, R332), and FWP_STA and FWP_WD,
so that the watchdog of a running clerk goes on (R300; log entry 13). -/
def softKept (k : PageKind) (o : Nat) : Bool :=
  o == 0x20 ||
  match k with
  | .spx => o == 0x44 || o == 0x118 || o == 0x11C
  | .act => decide (0x40 ≤ o) && decide (o < 0x5C)
  | .fwp => o == 0x40 || o == 0x44 || o == 0x58 || o == 0x80
  | _ => false

/-- A register value after a soft reset: its reset value, but for the bits that follow live state (R15). -/
def State.softValue (s : State) (key : Nat) : DWord :=
  match regRowAt key with
  | some (r, _) => if r.posted then s.cell key else (s.cell key &&& BitVec.ofNat 64 r.live) ||| (regReset key &&& ~~~ (BitVec.ofNat 64 r.live))
  | none => s.cell key

/-- Every listed register of a page takes its value after a soft reset. -/
def State.resetRegs (s : State) (k : PageKind) (pg : Nat) : State :=
  (s.regs.filter fun (e : Nat × DWord) => e.1 / 0x1000 = pg && !softKept k (e.1 % 0x1000)).foldl
    (fun (t : State) (e : Nat × DWord) => t.setCell e.1 (s.softValue e.1)) s

/-- What a unit holds outside its registers when its soft reset completes: a serial port's exit sequences and FIFOs (R259), and the banks that
their reset power request turns on. -/
def State.resetUnit (s : State) (k : PageKind) (inst : Nat) : State :=
  match k with
  | .spx =>
    let t := (List.range 4).foldl (fun t n => t.exitOmit inst n) s
    t.setFifo inst { t.port inst with tx := [], rx := [], ahead := [] }
  | .bnk => (List.range 48).foldl (fun t b => if t.bankSta inst b = 0 then t else t.bankOn inst b) s
  | _ => s

def execSoftResetDone (page : Nat) (s : State) : Result :=
  .next (
    match pageKind page with
    | some (k, inst) => if k ≠ .ring ∧ s.resetting page ∧ s.unitIdle page then (s.resetUnit k inst).resetRegs k page else s
    | none => s)

/-! OTP_READ_ROW (R172, R176). -/

/-- A logical row read through the remap into the read registers; a correction and an uncorrectable row are counted and logged. -/
def State.otpRead (s : State) (row : Nat) : State :=
  let x := s.readRow row
  let k := s.spareOf row
  let t := (s.wr Reg.OTP_READ_ROW.ROW row).wr Reg.OTP_READ_DATA.DATA x.data
  let t := ((t.wr Reg.OTP_READ_STA.ECC x.ecc).wrb Reg.OTP_READ_STA.CORR x.corr).wrb Reg.OTP_READ_STA.UNCORR x.uncorr
  let t := ((t.wrb Reg.OTP_READ_STA.REMAPPED k.isSome).wr Reg.OTP_READ_STA.SPARE (k.getD 0)).wrb Reg.OTP_READ_STA.VALID true
  if x.corr then ((t.count Reg.OTP_ECC_CNT.CORRECTED 1).raise 3 0).logSec Level.INFO SecLog.ROW_CORRECTED row 0 0
  else if x.uncorr then (t.count Reg.OTP_ECC_CNT.UNCORR 1).logSec Level.ERROR SecLog.ROW_UNCORRECTABLE row 0 0
  else t

def execOtpReadRow (req : Req) (row : Nat) (s : State) : Result := .next (if s.pf req then s.otpRead (row % 2048) else s)

end Sys2Proof.Machine
end

