-- ==== Sys2Proof/Machine/Thermal.lean ====
section
/-!
DEFINITION. Power and thermal control: sensors, the hardware clamps, the PWR control cycle and the HBM caps (R343-R372).
-/
namespace Sys2Proof.Machine

/-! Numbers. -/

/-- The low `w` bits of an integer. -/
def ofInt (w : Nat) (x : Int) : Nat := (x % (2 ^ w : Int)).toNat

/-- A `w`-bit field as a signed number. -/
def toInt (w v : Nat) : Int := if v < 2 ^ (w - 1) then (v : Int) else (v : Int) - 2 ^ w

/-! Sensors (R343-R346). -/

abbrev sensorCount : Nat := 136

def State.sensor (s : State) (i : Nat) : Sensor := tblGet default s.sensors i
def State.setSensor (s : State) (i : Nat) (x : Sensor) : State := { s with sensors := tblSet default s.sensors i x }

/-- What THM_SENSE shows of a sensor. -/
def State.showSensor (s : State) (i v : Nat) : State :=
  if i % 2 = 0 then s.wr (Reg.THM_SENSE.LOW (i / 2)) v else s.wr (Reg.THM_SENSE.HIGH (i / 2)) v

/-- A sensor is faulted until PERST_N (R345). -/
def State.faultSensor (s : State) (i : Nat) : State :=
  let f := if i < 64 then Reg.THM_SFAULT_A.FAULT else if i < 128 then Reg.THM_SFAULT_B.FAULT else Reg.THM_SFAULT_S.FAULT
  let t := s.setSensor i { (default : Sensor) with faulted := true }
  ((t.showSensor i 0x8000).wr f (setBit (t.rd f) (i % 64) true)).raise 8 2

/-- One sample of one sensor. -/
def State.sampleSensor (s : State) (i : Nat) (x : Int) : State :=
  let e := s.sensor i
  let jump : Bool := match e.reading with | some r => decide (100 < x - r) || decide (100 < r - x) | none => false
  if e.faulted then s
  else if x < -400 ∨ 1500 < x ∨ jump then s.faultSensor i
  else (s.setSensor i ⟨some x, false, if 1050 ≤ x then e.hot + 1 else 0, if 1250 ≤ x then e.trip + 1 else 0⟩).showSensor i (ofInt 16 x)

/-- Index and reading of the hottest valid sensor. -/
def State.hottestSensor (s : State) : Option (Nat × Int) :=
  (List.range sensorCount).foldl (fun best i =>
    match (s.sensor i).reading, best with
    | some x, some (_, y) => if y < x then some (i, x) else best
    | some x, none => some (i, x)
    | none, _ => best) none

/-- TJ, signed. -/
def State.tj (s : State) : Int := toInt 16 (s.rd Reg.THM_STA.TJ)

/-! The hard thermal clamp and the trip (R350, R352). -/

/-- A readout of a stack counts. -/
def State.hbmTemp (s : State) (k : Nat) : Option Int :=
  if s.on (Reg.THM_HBM.VALID k) then some (toInt 8 (s.rd (Reg.THM_HBM.TEMP k))) else none

/-- Too many sensors of a die are faulted. -/
def State.sensorCountFault (s : State) : Bool :=
  decide (16 < popCount (s.rd Reg.THM_SFAULT_A.FAULT) 64) || decide (16 < popCount (s.rd Reg.THM_SFAULT_B.FAULT) 64)
    || decide (4 < popCount (s.rd Reg.THM_SFAULT_S.FAULT) 8)

/-- A condition of the hard thermal clamp. -/
def State.thermalHot (s : State) : Bool :=
  ((List.range sensorCount).any fun i => decide (2 ≤ (s.sensor i).hot)) || ((List.range 8).any fun k => (s.hbmTemp k).any fun t => decide (105 ≤ t))
    || s.sensorCountFault

/-- Every reading allows the release. -/
def State.thermalCool (s : State) : Bool :=
  ((List.range sensorCount).all fun i => (s.sensor i).reading.all fun t => decide (t ≤ 1020))
    && ((List.range 8).all fun k => (s.hbmTemp k).all fun t => decide (t ≤ 102))

/-- A THERMAL_THROTTLE entry, at most once per second. -/
def State.throttleEntry (s : State) : State :=
  if s.throttleLogged.any fun t => decide (s.uptime < t + 1000000000) then s
  else ({ s with throttleLogged := some s.uptime } : State).history 13 0xFF 0 0 0 0 (ofInt 32 s.tj) (s.rd Reg.THM_STA.HOT)

/-- Bring the clamp and the time since which its release is allowed up to date. -/
def State.refreshThermal (s : State) : State :=
  let t := { s with coolSince := if s.thermalCool && !s.sensorCountFault then (if s.coolSince.isSome then s.coolSince else some s.uptime) else none }
  let t := if t.sensorCountFault then t.setFault 8 else t
  if !t.thermalHot ∨ t.on Reg.CLK_STA.CLAMP_THERMAL then t
  else (((t.setClamp Reg.CLK_STA.CLAMP_THERMAL true).count Reg.THM_CNT.HARD 1).raise 8 0).throttleEntry

/-- The thermal trip drives THERMTRIP_N low (R133). -/
def State.refreshTrip (s : State) : State :=
  if !(List.range sensorCount).any (fun i => decide (2 ≤ (s.sensor i).trip)) then s
  else if s.on Reg.SUP_STA.THERMTRIP then { s with tripDriven := true }
  else ({ (((s.raise 8 3).throttleEntry).thermTrip) with tripDriven := true } : State).bootWaits

/-- A sample of every sensor; with no valid sensor TJ has no stated value (log entry 42). -/
def State.thmSample (s : State) (temps : List Int) : State :=
  let t := (temps.take sensorCount).zipIdx.foldl (fun t e => t.sampleSensor e.2 e.1) s
  let t := match t.hottestSensor with
    | some (i, x) => (t.wr Reg.THM_STA.TJ (ofInt 16 x)).wr Reg.THM_STA.HOT i
    | none => ((t.wr Reg.THM_STA.TJ (Config.freeNat t.free)).wr Reg.THM_STA.HOT (Config.freeNat (t.free + 1))).skipFree 2
  t.refreshThermal.refreshTrip

def execThmSample (temps : List Int) (s : State) : Result := .next (if s.stage = Stage.RESET then s else s.thmSample temps)

def execThermalClampRelease (s : State) : Result :=
  .next (if s.coolSince.any (fun t => decide (t + 1000000 ≤ s.uptime)) then s.setClamp Reg.CLK_STA.CLAMP_THERMAL false else s)

/-! Stack temperatures and refresh (R347, R348). -/

/-- The refresh multiplier after a readout: up at a boundary, down 3 °C below it. -/
def refreshFor (old : Nat) (t : Int) : Nat :=
  let up := if 95 ≤ t then 2 else if 85 ≤ t then 1 else 0
  let keep := if 92 < t then 2 else if 82 < t then 1 else 0
  max up (min old keep)

def State.hbmReadout (s : State) (k : Nat) (reading : Option Int) : State :=
  match reading with
  | some t =>
    let u := { s with hbmFails := tblSet 0 s.hbmFails k 0 }
    let u := (u.wr (Reg.THM_HBM.REFRESH k) (refreshFor (s.rd (Reg.THM_HBM.REFRESH k)) t)).wr (Reg.THM_HBM.TEMP k) (ofInt 8 t)
    (u.wrb (Reg.THM_HBM.VALID k) true).refreshThermal
  | none =>
    let n := tblGet 0 s.hbmFails k + 1
    let u := { s with hbmFails := tblSet 0 s.hbmFails k n }
    if n < 3 then u else ((u.wrb (Reg.THM_HBM.VALID k) false).wr (Reg.THM_HBM.REFRESH k) 2).refreshThermal

def execHbmTempReadout (stack : Nat) (reading : Option Int) (s : State) : Result :=
  .next (if stack < 8 ∧ s.stackPresent stack ∧ s.stage ≠ Stage.RESET then s.hbmReadout stack reading else s)

/-! The current clamp (R349-R351). -/

/-- A condition of the current clamp holds. -/
def State.currentHigh (s : State) : Bool := decide (2 ≤ s.iccHigh.1) || decide (2 ≤ s.iccHigh.2) || s.alertLow

/-- Bring the clamp and the time since which its conditions are over up to date. -/
def State.refreshCurrent (s : State) : State :=
  if s.currentHigh then
    let t := { s with currentSince := none }
    if t.on Reg.CLK_STA.CLAMP_CURRENT then t
    else
      (({ t with loop := { t.loop with clamped := true } } : State).setClamp Reg.CLK_STA.CLAMP_CURRENT true).count Reg.THM_CNT.CURRENT 1 |>.raise 8 1
  else if s.currentSince.isSome then s else { s with currentSince := some s.uptime }

def execIccEstimate (ampsA ampsB : Nat) (s : State) : Result :=
  .next (
    if s.stage = Stage.RESET then s
    else
      let t := (s.wr Reg.THM_ICC_EST.A ampsA).wr Reg.THM_ICC_EST.B ampsB
      let a := decide (s.rd Reg.THM_ICC_MAX.A ≤ ampsA)
      let b := decide (s.rd Reg.THM_ICC_MAX.B ≤ ampsB)
      ({ t with iccHigh := (if a then s.iccHigh.1 + 1 else 0, if b then s.iccHigh.2 + 1 else 0) } : State).refreshCurrent)

/-- ALERT_N has been low for 1 µs, or is high again. -/
def execAlertN (low : Bool) (s : State) : Result :=
  .next (if s.stage = Stage.RESET then s else ({ s with alertLow := low } : State).refreshCurrent)

def execCurrentClampRelease (s : State) : Result :=
  .next (
    if !s.currentHigh ∧ s.currentSince.any (fun t => decide (t + 100000 ≤ s.uptime)) then s.setClamp Reg.CLK_STA.CLAMP_CURRENT false else s)

/-! Levels (R353-R355, R357). -/

/-- The operating point of a level. -/
def opOf (l : Nat) : Nat := min l 3

def State.level (s : State) : Nat := s.rd Reg.PWR_LOOP_STA.LEVEL

/-- The tiles gated at a level: the highest-numbered present ones of each half, without the URGENT tile. -/
def State.gatedAt (s : State) (l : Nat) : Nat :=
  let n := 4 * (l - 3)
  let half (h : Nat) : List Nat :=
    (((List.range 24).reverse.filter fun i => i ≠ s.rd (Reg.DSP_CFG.URGENT_TILE h) && !s.pageAbsent (0x100 + 24 * h + i)).take n).map fun i => 24 * h + i
  maskOf (fun i => (half 0 ++ half 1).contains i) 48

/-- PWR gates a set of tiles; a gated tile leaves the pool at its next slice boundary. -/
def State.gate (s : State) (m : Nat) : State :=
  ((List.range 48).filter fun i => bit s.gated i ≠ bit m i).foldl State.tileSettle { s with gated := m }

/-- The set-points of an operating point. -/
def State.setOpVolts (s : State) (k : Nat) : State :=
  (List.range 4).foldl (fun t j => match t.coreCh j with | some n => t.railSet n (t.opMv k j) | none => t) s

/-- The telemetry of every core channel is within 10 mV of an operating point. -/
def State.voltsAt (s : State) (k : Nat) : Bool :=
  (List.range 4).all fun j => match s.coreCh j with
    | some n =>
      let v := s.rd (Reg.RAIL_TELEM.VOUT n)
      decide (v ≤ s.opMv k j + 10) && decide (s.opMv k j ≤ v + 10)
    | none => true

/-- L changes: the divider is written, then the gating. -/
def State.enterLevel (s : State) (l : Nat) : State :=
  let t := { s with loop := { s.loop with powers := [], raising := none } }
  let t := ((t.wr Reg.PWR_LOOP_STA.LEVEL l).pwrDiv (opOf l)).gate (s.gatedAt l)
  if l = 8 ∧ s.level ≠ 8 then t.raise 8 4 else t

/-- A voltage raise goes on: the level is entered once the voltages are confirmed, and given up after 5 cycles. -/
def State.raiseStep (s : State) (l waited : Nat) : State :=
  if s.voltsAt (opOf l) then s.enterLevel l
  else if 5 ≤ waited then
    (({ s with loop := { s.loop with raising := none } } : State).count Reg.PWR_LOOP_STA.VFAIL 1).setOpVolts (opOf s.level)
  else { s with loop := { s.loop with raising := some (l, waited) } }

/-- A change of L (R357). -/
def State.changeLevel (s : State) (l : Nat) : State :=
  if l = s.level then s
  else if opOf l < opOf s.level then (s.setOpVolts (opOf l)).raiseStep l 0
  else if opOf s.level < opOf l ∨ s.loop.raising.isSome then (s.enterLevel l).setOpVolts (opOf l)
  else s.enterLevel l

/-! The control cycle (R356, R358). -/

/-- Power in units of 10 µW. -/
def State.power (s : State) : Nat :=
  channels.foldl (fun p n =>
    if s.railUsed n ∧ s.on (Reg.RAIL_PMB.BOUND n) then p + s.rd (Reg.RAIL_TELEM.VOUT n) * s.rd (Reg.RAIL_TELEM.IOUT n) else p)
    (s.rd Reg.THM_PUNMEAS.W * 100000)

/-- What a cycle decides from: the hot, severe and cool conditions with the term that LIMITER records. -/
structure Verdict where
  severe : Option Nat
  hot : Option Nat
  cool : Bool
deriving DecidableEq, Repr

def State.verdict (s : State) : Verdict :=
  let target : Int := s.rd Reg.THM_TJ_TARGET.TENTHS
  let n := s.loop.powers.length
  let sum := s.loop.powers.foldl (· + ·) 0
  let cap := s.rd Reg.THM_PCAP.W * 100000 * n
  let lim (c : Nat) : Nat := s.rd (Reg.THM_ILIM.I c)
  let iout (c : Nat) : Nat := s.rd (Reg.RAIL_TELEM.IOUT c)
  let above := channels.any fun c => lim c ≠ 0 && decide (lim c < iout c)
  let under := channels.all fun c => lim c = 0 || decide (100 * iout c ≤ 85 * lim c)
  ⟨if target + 50 < s.tj then some 1 else if 11 * cap < 10 * sum then some 2 else if s.loop.clamped then some 4 else none,
    if target < s.tj then some 1 else if cap < sum then some 2 else if above then some 3 else none,
    decide (s.tj ≤ target - 30) && decide (100 * sum ≤ 95 * cap) && under⟩

/-- The level a cycle decides, cool_run after it, and the limiter of a step down. -/
def State.decideLevel (s : State) (v : Verdict) (stale : Bool) : Nat × Nat × Option Nat :=
  let l := s.level
  let host := s.rd Reg.CLK_HOST_DIV.DIV
  let r : Nat × Nat × Option Nat :=
    match v.severe, v.hot with
    | some k, _ => (min (l + 2) 8, 0, some k)
    | none, some k => (min (l + 1) 8, 0, some k)
    | none, none =>
      if !v.cool ∨ s.loop.raising.isSome then (l, 0, none)
      else if 10 ≤ s.loop.coolRun + 1 then (max (l - 1) host, 0, none) else (l, s.loop.coolRun + 1, none)
  let r := if stale ∧ r.1 < 3 then (3, r.2.1, some 6) else r
  if r.1 < host then (host, r.2.1, some 5) else r

/-- The bandwidth cap of a stack; HBM_CAPPED when it falls below 16. -/
def State.setCap (s : State) (k c : Nat) : State :=
  let t := s.wr (Reg.THM_HBM_CAP.SIXTEENTHS k) c
  if c < 16 ∧ s.rd (Reg.THM_HBM_CAP.SIXTEENTHS k) = 16 then t.raise 8 5 else t

/-- The HBM loop of one stack. -/
def State.hbmLoop (s : State) (k : Nat) : State :=
  match s.hbmTemp k with
  | none => s
  | some c =>
    let target : Int := s.rd Reg.THM_HBM_TARGET.TENTHS
    let cap := s.rd (Reg.THM_HBM_CAP.SIXTEENTHS k)
    let run (t : State) (n : Nat) : State := { t with loop := { t.loop with capRun := tblSet 0 t.loop.capRun k n } }
    let n := tblGet 0 s.loop.capRun k + 1
    if target < 10 * c then run (s.setCap k (max (cap - 1) 4)) 0
    else if 10 * c ≤ target - 30 then (if 10 ≤ n then run (s.setCap k (min (cap + 1) 16)) 0 else run s n)
    else run s 0

/-- A cycle of a loaded PWR image. Its first cycle writes the OP3 voltages and then CLK_PWR_DIV (R361). -/
def State.pwrCycle (s : State) (late stale : Bool) : State :=
  let t := if s.loop.taken then s else
    let u := ({ s with loop := { s.loop with taken := true } } : State).wr Reg.PWR_LOOP_STA.LEVEL 3
    ((u.setOpVolts 3).pwrDiv 3).gate 0
  let p := t.power
  let t := { t with loop := { t.loop with powers := (p :: t.loop.powers).take 10 } }
  let avg := t.loop.powers.foldl (· + ·) 0 / (100000 * t.loop.powers.length)
  let t := (t.wr Reg.PWR_POWER.W (min (p / 100000) 4095)).wr Reg.PWR_POWER.AVG (min avg 4095)
  let t := t.countWrap Reg.PWR_CYCLES.COUNT 1
  let t := if late then t.count Reg.PWR_LATE.COUNT 1 else t
  let d := t.decideLevel t.verdict stale
  let l := t.level
  let t := { t with loop := { t.loop with coolRun := d.2.1, clamped := false } }
  let t := match d.2.2 with
    | some k => if l < d.1 then t.wr Reg.PWR_LOOP_STA.LIMITER k else t
    | none => t
  let t := match t.loop.raising with
    | some (m, waited) => if d.1 = l then t.raiseStep m (waited + 1) else t.changeLevel d.1
    | none => t.changeLevel d.1
  (List.range 8).foldl State.hbmLoop t

/-- A pass of the ROM safe loop: it kicks its watchdog and logs a WARN entry at most once per second while TJ is above its target. The entry's
code is the ROM's own (log entry 15). -/
def State.romCycle (s : State) : State :=
  let t := s.setClerk 2 { s.clerk 2 with lastKick := s.uptime }
  if t.tj ≤ (t.rd Reg.THM_TJ_TARGET.TENTHS : Int) ∨ t.loop.romWarn.any (fun w => decide (t.uptime < w + 1000000000)) then t
  else ({ t with loop := { t.loop with romWarn := some t.uptime } } : State).logClerk 2 Level.WARN 0x1000 (ofInt 32 t.tj) 0 0

def execPwrCycle (late : Bool) (staleOver100ms : Bool) (s : State) : Result :=
  .next (
    if s.clerkSt 2 = ClerkSt.RUNNING then s.pwrCycle late staleOver100ms else if s.clerkSt 2 = ClerkSt.ROM then s.romCycle else s)

/-- THM_HBM_CAP takes writes of PWR only. -/
def execHbmCapWrite (req : Req) (stack cap : Nat) (s : State) : Result :=
  .next (
    if 8 ≤ stack ∨ !s.reqLive req ∨ !(req.direct || req = .hook) then s
    else if req ≠ .pwr then s.raise 8 6
    else if cap < 4 ∨ 16 < cap then s else s.setCap stack cap)

end Sys2Proof.Machine
end

