-- ==== Sys2Proof/Machine/Vault.lean ====
section
/-!
DEFINITION. The commands of the Vault: stores, the supply thresholds with the compute cut, resume, LOST and restart, and the hold-up capacitor
(R260-R292).
-/
namespace Sys2Proof.Machine

/-! VMAIN_SNS and its thresholds (R276, R284). -/

/-- A threshold; a corrupt counterfoil is never used, and the default takes its place (R98). -/
def State.vltThr (s : State) (f : Fld) (dflt : Nat) : Nat :=
  match cfVal (s.cell f.key).toNat with
  | some v => v % 1024
  | none => dflt

def State.vWarn (s : State) : Nat := s.vltThr Reg.VLT_THR_WARN.WARN 920
def State.vStore (s : State) : Nat := s.vltThr Reg.VLT_THR_STORE.STORE 850
def State.vReset (s : State) : Nat := s.vltThr Reg.VLT_THR_RESET.RESET 800

/-- SUPPLY (R281). -/
abbrev Supply.NORMAL : Nat := 0
abbrev Supply.WARN : Nat := 1
abbrev Supply.STORING : Nat := 2
abbrev Supply.CUT : Nat := 3
abbrev Supply.LOST : Nat := 4

def State.supply (s : State) : Nat := s.rd Reg.VLT_STA.SUPPLY
def State.lost (s : State) : Bool := s.supply = Supply.LOST

/-- A threshold's counterfoil is corrupt. -/
def State.vltCorrupt (s : State) : Bool :=
  [Reg.VLT_THR_WARN.WARN, Reg.VLT_THR_STORE.STORE, Reg.VLT_THR_RESET.RESET].any fun f => (cfVal (s.cell f.key).toNat).isNone

/-- A sample of VMAIN_SNS; a corrupt threshold is found as it is used (R98). -/
def State.vmain (s : State) (v : Nat) : State :=
  let t := (s.wr Reg.VLT_VMAIN.NOW v).wr Reg.VLT_VMAIN.MIN (min (s.rd Reg.VLT_VMAIN.MIN) v)
  if s.vltCorrupt then t.cfCorrupt 7 else t

/-- A history entry with the lowest VMAIN_SNS and VHOLD as arguments. -/
def State.supplyHistory (s : State) (kind : Nat) : State :=
  s.history kind 0xFF 0 0 0 0 (s.rd Reg.VLT_VMAIN.MIN) (s.rd Reg.SUP_HOLD_STA.VHOLD)

/-! Store commands and the end of a store (R266-R269). -/

/-- VLT_CMD takes writes of the PF, SEC, SVC and PWR. -/
def State.vltTakes (s : State) (q : Req) : Bool := (q.isPf || q = .sec || q = .svc || q = .pwr) && s.reqLive q && !s.resetting 7

def execVltCmdStore (req : Req) (s : State) : Result := .next (if s.vltTakes req then (s.requestStore 1 []).1 else s)

/-- Whoever waits for a sealed store goes on; a halted SEC programs no lifecycle row (R304). -/
def State.storeWaiter (s : State) (w : StoreWaiter) : State :=
  match w with
  | .vaultWrite a p => s.answer a p Code.OK []
  | .lcJezama =>
    if s.secUp ∧ s.lcRun.phase = .store ∧ !s.lcRun.bmc then
      let r := s.lcBurn
      r.1.answer 0 1 r.2 []
    else s
  | .lcBmc =>
    if s.secUp ∧ s.lcRun.phase = .store ∧ s.lcRun.bmc then
      let r := s.lcBurn
      r.1.bmcLcEnd r.2
    else s
  | .commit => s

/-- The merged request behind a store starts; SOURCE is that of the first request. -/
def State.startPending (s : State) : State :=
  match s.vault.nextSources with
  | [] => s
  | source :: _ =>
    let w := s.vault.nextWaiters
    (({ s with vault := { s.vault with nextSources := [], nextWaiters := [] } } : State).wrb Reg.VLT_STA.PENDING false).startStore source w

def State.storeDone (s : State) (durationUs : Nat) : State :=
  match s.vault.run with
  | none => s
  | some r => (r.waiters.foldl State.storeWaiter (s.finishStore durationUs)).startPending

def execStoreDone (durationUs : Nat) (s : State) : Result := .next (s.storeDone durationUs)

/-- SVC stores every VLT_SAFE_INTERVAL while the Vault is not ARMED (R274). -/
def execSafeIntervalStore (s : State) : Result :=
  .next (if s.svcUp ∧ !s.on Reg.VLT_STA.ARMED then (s.requestStore 1 []).1 else s)

/-! VWARN (R276). -/

/-- A running health test is abandoned, to be repeated (R273). -/
def State.dropTest (s : State) : State :=
  if s.vault.testRunning then
    ({ s with vault := { s.vault with testRunning := false, testRetry := true } } : State).recharge
  else s

/-- A WARN entry in the history, at most once per second (R283). -/
def State.warnEntry (s : State) : State :=
  if s.vault.warnLogged.any fun t => decide (s.uptime < t + 1000000000) then s
  else ({ s with vault := { s.vault with warnLogged := some s.uptime } } : State).supplyHistory 4

/-- VMAIN_SNS is below VWARN: the clamp, WARN, and SUPPLY. -/
def State.warn (s : State) : State :=
  if s.on Reg.CLK_STA.CLAMP_VWARN then s
  else
    let t := (s.setClamp Reg.CLK_STA.CLAMP_VWARN true).dropTest
    let t := ((t.count Reg.VLT_CNT.WARN 1).raise 7 2).warnEntry
    if t.supply = Supply.NORMAL then t.wr Reg.VLT_STA.SUPPLY Supply.WARN else t

/-- VHOLD is held at 16.0 V. -/
def State.vholdHeld (s : State) : Bool :=
  s.charges && !s.on Reg.VLT_STA.CHARGING && !s.vault.testRunning && !s.vault.onHold && s.rd Reg.SUP_HOLD_STA.VHOLD = 1600

/-- The health test begins: the charger stops and the sink draws. -/
def State.startTest (s : State) : State :=
  ({ s with vault := { s.vault with testDue := false, testRetry := false, testRunning := true } } : State).recharge

/-- A test that VMAIN_SNS put off runs: at once with VHOLD at 16.0 V, else when it reaches that (R273). -/
def State.retryTest (s : State) : State :=
  if !s.vault.testRetry then s
  else if s.vholdHeld then s.startTest
  else { s with vault := { s.vault with testRetry := false, testDue := true } }

def execVwarnFall (v : Nat) (s : State) : Result := .next (if s.lost ∨ s.vWarn ≤ v then s else (s.vmain v).warn)

def execVwarnRise (v : Nat) (s : State) : Result :=
  .next (
    if s.lost ∨ v < s.vWarn + 20 ∨ 1024 ≤ v then s
    else
      let t := (s.vmain v).setClamp Reg.CLK_STA.CLAMP_VWARN false
      (if t.supply = Supply.WARN then t.wr Reg.VLT_STA.SUPPLY Supply.NORMAL else t).retryTest)

/-! The compute cut (R125, R277, R292). -/

/-- What the compute dies were doing is lost: ops in flight end without a completion record, ports lose their link, stacks their training,
folios their table. -/
def State.loseCompute (s : State) : State :=
  let t := (List.range 18).foldl (fun t p =>
    if t.portPresent p ∧ t.portSt p ≠ PortSt.DISABLED then t.portGo p PortSt.DOWN PortCause.NO_SIGNAL else t) s
  let t := (List.range 8).foldl (fun t k => (t.wrb (Reg.HMC_STA.TRAINED k) false).wrb (Reg.HMC_STA.RETRAINING k) false) t
  let ops := t.ops
  let t := ops.foldl (fun (t : State) (o : Op) => ((t.releaseTiles o).forgetWork o).dropOp o) t
  let t := (ops.map Op.u).eraseDups.foldl (fun t u => t.refreshRing u) t
  let t := { t with steps := [], early := [], attends := [], mirrors := [], mirrored := none, folios := [], pools := [], bankWait := [], hbmWait := [] }
  [0, 1].foldl State.refreshFol t

/-- The VSTORE decision cuts compute, and cuts it again while it resumes: the resume will start over (R292). -/
def State.cutCompute (s : State) : State :=
  if !s.bootGoes then s
  else
    let s := { s with vault := { s.vault with resuming := false } }
    let t := ((s.loseCompute.wrb Reg.VLT_STA.COMPUTE_CUT true).raise 7 8).lastStatus 7 Code.POWER
    (t.supplyHistory 10).storeCut

/-- An AUTO crossing: it starts a store while ARMED, or counts a running one as the autostore (R266, R269). -/
def State.autoCross (s : State) : State :=
  if !s.on Reg.VLT_STA.ARMED then (if s.supply = Supply.STORING then s else s.wr Reg.VLT_STA.SUPPLY Supply.CUT)
  else
    let t := (({ s with vault := { s.vault with onHold := true } } : State).wr Reg.VLT_STA.SUPPLY Supply.STORING).recharge
    if t.vault.run.isSome then { t with vault := { t.vault with autoStore := true } } else t.startStore 0 []

/-- VMAIN_SNS is below VSTORE. -/
def State.belowStore (s : State) : State :=
  let t := { s with vault := { s.vault with storeRise := none, resumeDue := false } }
  (t.warn.cutCompute).autoCross

def execVstoreFall (v : Nat) (s : State) : Result := .next (if s.lost ∨ s.vStore ≤ v then s else (s.vmain v).belowStore)

/-- The 10 ms count toward resume starts. -/
def execVstoreRise (v : Nat) (s : State) : Result :=
  .next (
    if s.lost ∨ v < s.vStore + 20 ∨ 1024 ≤ v then s
    else
      let t := s.vmain v
      if t.vault.storeRise.isSome then t else { t with vault := { t.vault with storeRise := some t.uptime } })

/-! Resume (R278). -/

/-- 10 ms have passed since an instant. -/
def State.tenMs (s : State) (t : Option Nat) : Bool := t.any fun x => decide (x + 10000000 ≤ s.uptime)

/-- The conditions of resume hold. -/
def State.resumeReady (s : State) : Bool :=
  s.on Reg.VLT_STA.COMPUTE_CUT && !s.vault.resuming && s.tenMs s.vault.storeRise && s.vault.run.isNone && !s.lost && s.secUp && s.boot.hook.isNone

/-- SEC resumes: it unloads the firmware, powers the compute groups up, and runs the boot from step 7. A boot that has not come to its rails,
or that runs without compute, only ends the cut. -/
def State.resume (s : State) : State :=
  let s := { s with vault := { s.vault with resumeDue := false, storeRise := none } }
  let s := if s.stage = Stage.LOADING then s.loadFailed Code.ABORTED 0 else s
  if s.stage < Stage.RAILS ∨ s.stage = Stage.RECOVERY then s.resumed
  else
    let t := if s.stage = Stage.LOADED ∨ s.stage = Stage.RUNNING ∨ s.stage = Stage.LOADED_REFUSED then s.startUnload else s
    let t := if Stage.AWAIT_FIRMWARE ≤ s.stage then (t.settleAborts).unloadClerks else t
    let t := if Stage.AWAIT_FIRMWARE ≤ s.stage then { t with boot := { t.boot with restart := 2 } } else t
    let t := { t with vault := { t.vault with resuming := true } }
    (t.powerBack (t.groupMask (t.rd Reg.SUP_COMPUTE_GRP.GROUPS))).setStage Stage.RAILS

/-- The power-up of R113 is accepted only once no power-down runs. -/
def State.resumeNow (s : State) : State := if s.upBlocked then s else s.resume

def execComputeResume (s : State) : Result :=
  .next (if s.resumeReady ∧ (s.on Reg.SUP_AUTO_RESUME.ENABLE ∨ s.vault.resumeDue) then s.resumeNow else s)

def execVltCmdResume (req : Req) (s : State) : Result :=
  .next (
    if !s.pf req ∨ s.resetting 7 then s
    else if !s.resumeReady then s.lastStatus 7 Code.LIMIT
    else ({ s with vault := { s.vault with resumeDue := true } } : State).resumeNow)

/-! LOST (R279, R281, R289). -/

/-- The registers of the VLT page, which the hold domain keeps. -/
def keepVlt (old new : Tbl DWord) : Tbl DWord :=
  let vlt (e : Nat × DWord) : Bool := decide (0x7000 ≤ e.1) && decide (e.1 < 0x8000)
  (new.filter fun e => decide (e.1 < 0x7000)) ++ old.filter vlt ++ new.filter fun e => decide (0x8000 ≤ e.1)

/-- The hold domain is on VHOLD while VMAIN_SNS is below VRESET + 0.020. -/
def State.toHold (s : State) : State := ({ s with vault := { s.vault with onHold := true } } : State).recharge

/-- Everything outside the hold domain enters reset, and the device waits in LOST. A running store goes on; nothing waits for it. -/
def State.lose (s : State) : State :=
  let s := ((s.raise 7 11).supplyHistory 12).wr Reg.VLT_STA.SUPPLY Supply.LOST
  let t := s.enterReset false
  let v := { s.vault with run := s.vault.run.map (fun r => { r with waiters := [] }), nextSources := [], nextWaiters := [],
                          resetRise := none, storeRise := none, resumeDue := false }
  let t := { t with regs := keepVlt s.regs t.regs, staged := keepVlt s.staged t.staged, vault := v }
  (t.wrb Reg.VLT_STA.PENDING false).toHold

/-- A fall through VRESET passes VSTORE too. -/
def execVresetFall (v : Nat) (s : State) : Result :=
  .next (
    if s.vReset ≤ v then s
    else if s.lost then (let t := s.vmain v; ({ t with vault := { t.vault with resetRise := none } } : State).toHold)
    else
      let t := s.vmain v
      (if t.supply = Supply.NORMAL ∨ t.supply = Supply.WARN then t.belowStore else t).lose)

/-- The 10 ms count toward restart starts, and the hold domain leaves VHOLD. -/
def execVresetRise (v : Nat) (s : State) : Result :=
  .next (
    if !s.lost ∨ v < s.vReset + 20 ∨ 1024 ≤ v then s
    else
      let t := s.vmain v
      let rise := if t.vault.resetRise.isSome then t.vault.resetRise else some t.uptime
      ({ t with vault := { t.vault with onHold := false, resetRise := rise } } : State).recharge)

/-- The device restarts as if PERST_N had been asserted and released. -/
def execLostRestart (env : BootEnv) (s : State) : Result :=
  .next (
    if s.lost ∧ s.tenMs s.vault.resetRise then
      ({ s.enterReset false with timeFine := 0 } : State).bootStart { env with strap := env.strap % 4 } true
    else s)

/-- A torn store: each cell that would have changed holds its old or its new content (R270). -/
def tornShadow (free : Nat) (old new : Tbl Byte) : Tbl Byte :=
  let keys := (old.map (·.1) ++ new.map (·.1)).eraseDups
  keys.zipIdx.foldl (fun t k => if Config.freeNat (free + k.2) % 2 = 0 then t else tblSet 0 t k.1 (byteAt new k.1)) old

/-- VHOLD is below 6.0 V in LOST: the hold domain turns off, and a running store is torn. The next power-up is a cold start. -/
def execHoldDomainOff (s : State) : Result :=
  .next (
    if !s.lost then s
    else
      let v := s.vault
      let n := (v.shadow.map (·.1) ++ (match v.run with | some r => r.snapshot.map (·.1) | none => [])).eraseDups.length
      let shadow := match v.run with | some r => tornShadow s.free v.shadow r.snapshot | none => v.shadow
      let t := { s with vault := { State.reset.vault with shadow := shadow, sealOpen := v.sealOpen } }
      let t := ({ t with regs := t.regs.filter fun e =>
        !(decide (0x7000 ≤ e.1) && decide (e.1 < 0x8000)) || [Reg.VLT_STORE_CNT.COUNT.key, Reg.VLT_LAST_STORE.NS.key].contains e.1 } : State)
      (t.wr Reg.VLT_STA.SUPPLY Supply.LOST).skipFree n)

/-! The hold-up capacitor (R272, R273, R282). -/

def execVltCmdHealthTest (req : Req) (s : State) : Result :=
  .next (
    if s.vltTakes req then ({ s with vault := { s.vault with testDue := true, reached := false } } : State).refreshArmed else s)

/-- A test is due now: it waits while VMAIN_SNS is below VWARN (R273). -/
def State.dueTest (s : State) : State :=
  if s.on Reg.CLK_STA.CLAMP_VWARN then { s with vault := { s.vault with testDue := false, testRetry := true } } else s.startTest

/-- VHOLD reaches 16.0 V; a test that is due runs. -/
def execVholdFull (s : State) : Result :=
  .next (
    if !s.charges ∨ s.vault.testRunning ∨ s.vault.onHold then s
    else
      let t := (s.wr Reg.SUP_HOLD_STA.VHOLD 1600).wrb Reg.VLT_STA.CHARGING false
      if t.vault.testDue then t.dueTest else t)

def execHealthTestDone (capUf esrMohm : Nat) (s : State) : Result :=
  .next (
    if !s.vault.testRunning then s
    else
      let ok := decide (1000 ≤ capUf) && decide (capUf ≤ 10000) && decide (esrMohm ≤ 100)
      let t := { s with vault := { s.vault with testRunning := false, tested := ok, reached := false } }
      let t := ((t.wr Reg.VLT_CAP.CAP_UF (min capUf 65535)).wr Reg.VLT_CAP.ESR_MOHM (min esrMohm 65535)).wrb Reg.VLT_STA.HEALTH_OK ok
      let t := (if ok then t else t.raise 7 6).recharge
      (t.history 9 0xFF 0 0 0 0 capUf esrMohm).refreshArmed)

/-- 600 s after a failed test a new one runs. -/
def execHealthRetest (s : State) : Result :=
  .next (
    let v := s.vault
    if v.tested ∨ v.testDue ∨ v.testRunning ∨ v.testRetry ∨ !s.charges then s else s.dueTest)

/-- ARMED in CUT with VMAIN_SNS below VSTORE: an AUTO store starts (R281). -/
def State.armedInCut (s : State) : State :=
  if s.supply = Supply.CUT ∧ s.on Reg.VLT_STA.ARMED ∧ s.rd Reg.VLT_VMAIN.NOW < s.vStore then s.autoCross else s

def execVholdArm (s : State) : Result :=
  .next (
    let t := s.wr Reg.SUP_HOLD_STA.VHOLD 1440
    if t.vault.tested ∧ !t.vault.testRunning ∧ !t.vault.testDue then
      (({ t with vault := { t.vault with reached := true } } : State).refreshArmed).armedInCut
    else t)

def execVholdLow (s : State) : Result :=
  .next (
    let t := (s.wr Reg.SUP_HOLD_STA.VHOLD 1399).recharge
    if t.vault.run.isSome then t else ({ t with vault := { t.vault with reached := false } } : State).refreshArmed)

/-- CAP_LOST is declared: the charger stops for 1 s, and ARMED waits for a new test. -/
def State.capLost (s : State) : State :=
  let t := { s with vault := { s.vault with tested := false, reached := false, testDue := false, testRunning := false, testRetry := false } }
  let t := ((t.wrb Reg.VLT_STA.CAP_LOST true).wrb Reg.VLT_STA.CHARGING false).refreshArmed
  ((t.raise 7 5).count Reg.VLT_CNT2.CAP_LOST 1).supplyHistory 7

def execCapLost (s : State) : Result := .next (if s.on Reg.VLT_STA.CHARGING ∧ s.charges then s.capLost else s)

/-- The check sink at 16.0 V. -/
def execCapCheckSink (dropMv : Nat) (s : State) : Result :=
  .next (if !s.vholdHeld ∨ dropMv ≤ 1000 then s else s.capLost)

def execChargerResume (s : State) : Result :=
  .next (
    if s.on Reg.VLT_STA.CAP_LOST then
      (({ s with vault := { s.vault with testDue := true } } : State).wrb Reg.VLT_STA.CAP_LOST false).recharge
    else s)

end Sys2Proof.Machine
end

