-- ==== Sys2Proof/Machine/Dispatch.lean ====
section
/-!
DEFINITION. One arm per command: its meaning, called by name.
-/
namespace Sys2Proof.Machine

def exec (i : Instr) (s : State) : Host.Outcome State Fault Refusal :=
  match i with
  | .perstNAssert => Sys2Proof.Machine.execPerstNAssert s
  | .perstNDeassert env => Sys2Proof.Machine.execPerstNDeassert env s
  | .haltFaultFrame => Sys2Proof.Machine.execHaltFaultFrame s
  | .hookReturn code => Sys2Proof.Machine.execHookReturn code s
  | .hookTimeout => Sys2Proof.Machine.execHookTimeout s
  | .bootRailsOn => Sys2Proof.Machine.execBootRailsOn s
  | .bootRailsTimeout => Sys2Proof.Machine.execBootRailsTimeout s
  | .marchDone badTiles badBanksA badBanksB badEngines log => Sys2Proof.Machine.execMarchDone badTiles badBanksA badBanksB badEngines log s
  | .hbmTrainDone failed => Sys2Proof.Machine.execHbmTrainDone failed s
  | .pcieReady => Sys2Proof.Machine.execPcieReady s
  | .registerWrite req off size be value => Sys2Proof.Machine.execRegisterWrite req off size be value s
  | .absentPageWrite req off => Sys2Proof.Machine.execAbsentPageWrite req off s
  | .splitReadLatch fn off => Sys2Proof.Machine.execSplitReadLatch fn off s
  | .stagedWrite req off size value => Sys2Proof.Machine.execStagedWrite req off size value s
  | .cfWrite req off size value => Sys2Proof.Machine.execCfWrite req off size value s
  | .evtRawClear req page value => Sys2Proof.Machine.execEvtRawClear req page value s
  | .evtEnWrite req page value => Sys2Proof.Machine.execEvtEnWrite req page value s
  | .evtForce req page value => Sys2Proof.Machine.execEvtForce req page value s
  | .softReset req page => Sys2Proof.Machine.execSoftReset req page s
  | .softResetDone page => Sys2Proof.Machine.execSoftResetDone page s
  | .post req slot mask token => Sys2Proof.Machine.execPost req slot mask token s
  | .checkOnly req slot mask token => Sys2Proof.Machine.execCheckOnly req slot mask token s
  | .discard req slot mask token => Sys2Proof.Machine.execDiscard req slot mask token s
  | .discardDone slot => Sys2Proof.Machine.execDiscardDone slot s
  | .cancel req slot mask token => Sys2Proof.Machine.execCancel req slot mask token s
  | .postCheckDone slot => Sys2Proof.Machine.execPostCheckDone slot s
  | .postStrobe slot => Sys2Proof.Machine.execPostStrobe slot s
  | .postApply slot badFormat => Sys2Proof.Machine.execPostApply slot badFormat s
  | .postRecheckDone slot inTime => Sys2Proof.Machine.execPostRecheckDone slot inTime s
  | .clkHostDiv req div => Sys2Proof.Machine.execClkHostDiv req div s
  | .clkPwrDiv req div => Sys2Proof.Machine.execClkPwrDiv req div s
  | .cclkChangeDone => Sys2Proof.Machine.execCclkChangeDone s
  | .clockGlitch found => Sys2Proof.Machine.execClockGlitch found s
  | .dlkFlitCrcFail half replays => Sys2Proof.Machine.execDlkFlitCrcFail half replays s
  | .dlkRetrainDone ok => Sys2Proof.Machine.execDlkRetrainDone ok s
  | .supPowerUp req => Sys2Proof.Machine.execSupPowerUp req s
  | .supPowerDown req => Sys2Proof.Machine.execSupPowerDown req s
  | .supGroupOn req groups => Sys2Proof.Machine.execSupGroupOn req groups s
  | .supGroupOff req groups => Sys2Proof.Machine.execSupGroupOff req groups s
  | .senseCheckDone ch mv => Sys2Proof.Machine.execSenseCheckDone ch mv s
  | .railSample samples pg => Sys2Proof.Machine.execRailSample samples pg s
  | .railStartDelayDone ch => Sys2Proof.Machine.execRailStartDelayDone ch s
  | .ssTimeout ch => Sys2Proof.Machine.execSsTimeout ch s
  | .railStopDelayDone ch => Sys2Proof.Machine.execRailStopDelayDone ch s
  | .dischargeTimeout ch => Sys2Proof.Machine.execDischargeTimeout ch s
  | .railBackoffDone ch => Sys2Proof.Machine.execRailBackoffDone ch s
  | .retryCounterReset ch => Sys2Proof.Machine.execRetryCounterReset ch s
  | .thermtrip => Sys2Proof.Machine.execThermtrip s
  | .holdReversed => Sys2Proof.Machine.execHoldReversed s
  | .pmbPoll res => Sys2Proof.Machine.execPmbPoll res s
  | .pmbAlert res => Sys2Proof.Machine.execPmbAlert res s
  | .railSetWrite req ch mv => Sys2Proof.Machine.execRailSetWrite req ch mv s
  | .otpProgram a p m wr burns => Sys2Proof.Machine.execOtpProgram a p m wr burns s
  | .otpSeal a p m wr burns => Sys2Proof.Machine.execOtpSeal a p m wr burns s
  | .otpRevoke a p m wr burns => Sys2Proof.Machine.execOtpRevoke a p m wr burns s
  | .lcTransition a p m wr burns => Sys2Proof.Machine.execLcTransition a p m wr burns s
  | .otpReadRow req row => Sys2Proof.Machine.execOtpReadRow req row s
  | .bootLoad req => Sys2Proof.Machine.execBootLoad req s
  | .loadComplete dma img => Sys2Proof.Machine.execLoadComplete dma img s
  | .bootUnload req => Sys2Proof.Machine.execBootUnload req s
  | .unloadComplete => Sys2Proof.Machine.execUnloadComplete s
  | .xferStart port req => Sys2Proof.Machine.execXferStart port req s
  | .xferFlush port req => Sys2Proof.Machine.execXferFlush port req s
  | .spxPortGrant port => Sys2Proof.Machine.execSpxPortGrant port s
  | .xferDone port rx => Sys2Proof.Machine.execXferDone port rx s
  | .xipRead req addr n write => Sys2Proof.Machine.execXipRead req addr n write s
  | .xipFetchDone bytes => Sys2Proof.Machine.execXipFetchDone bytes s
  | .spxTxdPush port req w => Sys2Proof.Machine.execSpxTxdPush port req w s
  | .spxRxdPop port req => Sys2Proof.Machine.execSpxRxdPop port req s
  | .slaveSelect sckHigh => Sys2Proof.Machine.execSlaveSelect sckHigh s
  | .slaveWord got => Sys2Proof.Machine.execSlaveWord got s
  | .slaveDeselect bits => Sys2Proof.Machine.execSlaveDeselect bits s
  | .vltCmdStore req => Sys2Proof.Machine.execVltCmdStore req s
  | .storeDone durationUs => Sys2Proof.Machine.execStoreDone durationUs s
  | .vltCmdHealthTest req => Sys2Proof.Machine.execVltCmdHealthTest req s
  | .vltCmdResume req => Sys2Proof.Machine.execVltCmdResume req s
  | .vwarnFall v => Sys2Proof.Machine.execVwarnFall v s
  | .vwarnRise v => Sys2Proof.Machine.execVwarnRise v s
  | .vstoreFall v => Sys2Proof.Machine.execVstoreFall v s
  | .vstoreRise v => Sys2Proof.Machine.execVstoreRise v s
  | .computeResume => Sys2Proof.Machine.execComputeResume s
  | .vresetFall v => Sys2Proof.Machine.execVresetFall v s
  | .vresetRise v => Sys2Proof.Machine.execVresetRise v s
  | .lostRestart env => Sys2Proof.Machine.execLostRestart env s
  | .holdDomainOff => Sys2Proof.Machine.execHoldDomainOff s
  | .vholdFull => Sys2Proof.Machine.execVholdFull s
  | .healthTestDone capUf esrMohm => Sys2Proof.Machine.execHealthTestDone capUf esrMohm s
  | .healthRetest => Sys2Proof.Machine.execHealthRetest s
  | .vholdArm => Sys2Proof.Machine.execVholdArm s
  | .vholdLow => Sys2Proof.Machine.execVholdLow s
  | .capLost => Sys2Proof.Machine.execCapLost s
  | .capCheckSink dropMv => Sys2Proof.Machine.execCapCheckSink dropMv s
  | .chargerResume => Sys2Proof.Machine.execChargerResume s
  | .safeIntervalStore => Sys2Proof.Machine.execSafeIntervalStore s
  | .fwpKick n req => Sys2Proof.Machine.execFwpKick n req s
  | .watchdogExpiry n => Sys2Proof.Machine.execWatchdogExpiry n s
  | .protectionFault n addr kind hook => Sys2Proof.Machine.execProtectionFault n addr kind hook s
  | .doubleFault n => Sys2Proof.Machine.execDoubleFault n s
  | .dumpDone n => Sys2Proof.Machine.execDumpDone n s
  | .clerkRestartDone n => Sys2Proof.Machine.execClerkRestartDone n s
  | .portSend n port msg => Sys2Proof.Machine.execPortSend n port msg s
  | .logAppend n comp level code arg0 arg1 arg2 => Sys2Proof.Machine.execLogAppend n comp level code arg0 arg1 arg2 s
  | .logPortWrite => Sys2Proof.Machine.execLogPortWrite s
  | .tracePoint id src arg16 arg32 accepted => Sys2Proof.Machine.execTracePoint id src arg16 arg32 accepted s
  | .mbxDoorbell a fn p seq => Sys2Proof.Machine.execMbxDoorbell a fn p seq s
  | .mbxBadMessage a p m wr => Sys2Proof.Machine.execMbxBadMessage a p m wr s
  | .hello a p m wr => Sys2Proof.Machine.execHello a p m wr s
  | .attach a p m wr => Sys2Proof.Machine.execAttach a p m wr s
  | .vpdRead a p m wr => Sys2Proof.Machine.execVpdRead a p m wr s
  | .manifestRead a p m wr => Sys2Proof.Machine.execManifestRead a p m wr s
  | .traceCfg a p m wr => Sys2Proof.Machine.execTraceCfg a p m wr s
  | .dumpClear a p m wr => Sys2Proof.Machine.execDumpClear a p m wr s
  | .vaultRead a p m wr => Sys2Proof.Machine.execVaultRead a p m wr s
  | .vaultWrite a p m wr => Sys2Proof.Machine.execVaultWrite a p m wr s
  | .status => Sys2Proof.Machine.execStatus s
  | .logRead => Sys2Proof.Machine.execLogRead s
  | .dumpRead => Sys2Proof.Machine.execDumpRead s
  | .flashRead data lines sfdp => Sys2Proof.Machine.execFlashRead data lines sfdp s
  | .flashWrite status lines sfdp => Sys2Proof.Machine.execFlashWrite status lines sfdp s
  | .flashErase polls last lines sfdp => Sys2Proof.Machine.execFlashErase polls last lines sfdp s
  | .bmcOtpProgram burns => Sys2Proof.Machine.execBmcOtpProgram burns s
  | .bmcOtpSeal burns => Sys2Proof.Machine.execBmcOtpSeal burns s
  | .bmcOtpRevoke burns => Sys2Proof.Machine.execBmcOtpRevoke burns s
  | .bmcLcTransition burns => Sys2Proof.Machine.execBmcLcTransition burns s
  | .telemetry => Sys2Proof.Machine.execTelemetry s
  | .bmcVpdRead => Sys2Proof.Machine.execBmcVpdRead s
  | .echo => Sys2Proof.Machine.execEcho s
  | .bmcBadFrame => Sys2Proof.Machine.execBmcBadFrame s
  | .frameTimeout => Sys2Proof.Machine.execFrameTimeout s
  | .thmSample temps => Sys2Proof.Machine.execThmSample temps s
  | .hbmTempReadout stack reading => Sys2Proof.Machine.execHbmTempReadout stack reading s
  | .iccEstimate ampsA ampsB => Sys2Proof.Machine.execIccEstimate ampsA ampsB s
  | .alertN low => Sys2Proof.Machine.execAlertN low s
  | .currentClampRelease => Sys2Proof.Machine.execCurrentClampRelease s
  | .thermalClampRelease => Sys2Proof.Machine.execThermalClampRelease s
  | .pwrCycle late staleOver100ms => Sys2Proof.Machine.execPwrCycle late staleOver100ms s
  | .hbmCapWrite req stack cap => Sys2Proof.Machine.execHbmCapWrite req stack cap s
  | .bar2Read a off n => Sys2Proof.Machine.execBar2Read a off n s
  | .bar2Write a off bytes be => Sys2Proof.Machine.execBar2Write a off bytes be s
  | .accountEnable req a on => Sys2Proof.Machine.execAccountEnable req a on s
  | .drained a => Sys2Proof.Machine.execDrained a s
  | .scrubDone a => Sys2Proof.Machine.execScrubDone a s
  | .flr fn => Sys2Proof.Machine.execFlr fn s
  | .flrDone fn => Sys2Proof.Machine.execFlrDone fn s
  | .vfDisable numVfs enable => Sys2Proof.Machine.execVfDisable numVfs enable s
  | .deviceReset req value env => Sys2Proof.Machine.execDeviceReset req value env s
  | .linkReset env => Sys2Proof.Machine.execLinkReset env s
  | .acctRules a p m wr => Sys2Proof.Machine.execAcctRules a p m wr s
  | .hbmZero a p m wr => Sys2Proof.Machine.execHbmZero a p m wr s
  | .hbmZeroDone wr => Sys2Proof.Machine.execHbmZeroDone wr s
  | .ringDoorbell fn a r tail => Sys2Proof.Machine.execRingDoorbell fn a r tail s
  | .ringEnable fn a r => Sys2Proof.Machine.execRingEnable fn a r s
  | .ringDisable fn a r => Sys2Proof.Machine.execRingDisable fn a r s
  | .ringReset fn a r => Sys2Proof.Machine.execRingReset fn a r s
  | .abortAll fn a r => Sys2Proof.Machine.execAbortAll fn a r s
  | .ringAbort fn a r seq => Sys2Proof.Machine.execRingAbort fn a r seq s
  | .abortDone a r => Sys2Proof.Machine.execAbortDone a r s
  | .ringCplAck fn a r count => Sys2Proof.Machine.execRingCplAck fn a r count s
  | .ringWatch fn a r tally vector valid => Sys2Proof.Machine.execRingWatch fn a r tally vector valid s
  | .descriptorAdmit a r f wr => Sys2Proof.Machine.execDescriptorAdmit a r f wr s
  | .waitTimeout a r seq => Sys2Proof.Machine.execWaitTimeout a r seq s
  | .opComplete a r seq => Sys2Proof.Machine.execOpComplete a r seq s
  | .cplWriteFail a r seq how => Sys2Proof.Machine.execCplWriteFail a r seq how s
  | .exceptionResolve a r seq resume code => Sys2Proof.Machine.execExceptionResolve a r seq resume code s
  | .tallyWrite fn idx size value => Sys2Proof.Machine.execTallyWrite fn idx size value s
  | .nop a r seq => Sys2Proof.Machine.execNop a r seq s
  | .tallyCas a r seq => Sys2Proof.Machine.execTallyCas a r seq s
  | .copy a r seq => Sys2Proof.Machine.execCopy a r seq s
  | .fill a r seq => Sys2Proof.Machine.execFill a r seq s
  | .quantise a r seq => Sys2Proof.Machine.execQuantise a r seq s
  | .gather a r seq => Sys2Proof.Machine.execGather a r seq s
  | .gemm a r seq => Sys2Proof.Machine.execGemm a r seq s
  | .eltwise a r seq => Sys2Proof.Machine.execEltwise a r seq s
  | .norm a r seq => Sys2Proof.Machine.execNorm a r seq s
  | .softmax a r seq => Sys2Proof.Machine.execSoftmax a r seq s
  | .sliceBoundary tile exc => Sys2Proof.Machine.execSliceBoundary tile exc s
  | .tileScratchError tile => Sys2Proof.Machine.execTileScratchError tile s
  | .tilePwrReq req tile value => Sys2Proof.Machine.execTilePwrReq req tile value s
  | .tileWakeDone tile => Sys2Proof.Machine.execTileWakeDone tile s
  | .hbmRead addr source acct symErr => Sys2Proof.Machine.execHbmRead addr source acct symErr s
  | .hbmFullWrite addr bytes => Sys2Proof.Machine.execHbmFullWrite addr bytes s
  | .hbmPartialWrite addr source acct symErr bytes be => Sys2Proof.Machine.execHbmPartialWrite addr source acct symErr bytes be s
  | .hbmXferRetry stack tries => Sys2Proof.Machine.execHbmXferRetry stack tries s
  | .hbmRetrainDone stack ok => Sys2Proof.Machine.execHbmRetrainDone stack ok s
  | .stackFault stack => Sys2Proof.Machine.execStackFault stack s
  | .hbmRefresh stack => Sys2Proof.Machine.execHbmRefresh stack s
  | .scrubLine stack symErr => Sys2Proof.Machine.execScrubLine stack symErr s
  | .odeccPoll stack count => Sys2Proof.Machine.execOdeccPoll stack count s
  | .errEntryRead page size => Sys2Proof.Machine.execErrEntryRead page size s
  | .bankAccess half addr source acct bitErr wr => Sys2Proof.Machine.execBankAccess half addr source acct bitErr wr s
  | .bankPwrReq req half reg value => Sys2Proof.Machine.execBankPwrReq req half reg value s
  | .bankPwrReached half bank => Sys2Proof.Machine.execBankPwrReached half bank s
  | .bankWakeDone half bank => Sys2Proof.Machine.execBankWakeDone half bank s
  | .bankIdleReturn half bank => Sys2Proof.Machine.execBankIdleReturn half bank s
  | .tamper => Sys2Proof.Machine.execTamper s
  | .supplyGlitch half => Sys2Proof.Machine.execSupplyGlitch half s
  | .wipeDone half badMask => Sys2Proof.Machine.execWipeDone half badMask s
  | .bankOfflineReq req half mask => Sys2Proof.Machine.execBankOfflineReq req half mask s
  | .bankOffline half bank => Sys2Proof.Machine.execBankOffline half bank s
  | .mteStart req half value => Sys2Proof.Machine.execMteStart req half value s
  | .mteDone half failRows free poisonedWords log => Sys2Proof.Machine.execMteDone half failRows free poisonedWords log s
  | .repairLogRead half size => Sys2Proof.Machine.execRepairLogRead half size s
  | .folioOpen a r seq => Sys2Proof.Machine.execFolioOpen a r seq s
  | .folioClose a r seq => Sys2Proof.Machine.execFolioClose a r seq s
  | .folioLink a r seq => Sys2Proof.Machine.execFolioLink a r seq s
  | .appendKv a r seq => Sys2Proof.Machine.execAppendKv a r seq s
  | .attend a r seq => Sys2Proof.Machine.execAttend a r seq s
  | .folioOpUnblock a r seq => Sys2Proof.Machine.execFolioOpUnblock a r seq s
  | .partReq m => Sys2Proof.Machine.execPartReq m s
  | .partRsp reqSeq m => Sys2Proof.Machine.execPartRsp reqSeq m s
  | .folQuery req half value => Sys2Proof.Machine.execFolQuery req half value s
  | .portEnable req p => Sys2Proof.Machine.execPortEnable req p s
  | .portDisable req p => Sys2Proof.Machine.execPortDisable req p s
  | .portRetrain req p => Sys2Proof.Machine.execPortRetrain req p s
  | .trainingDone p laneOk inverted => Sys2Proof.Machine.execTrainingDone p laneOk inverted s
  | .trainingTimeout p noSignal => Sys2Proof.Machine.execTrainingTimeout p noSignal s
  | .laneFail p lanes => Sys2Proof.Machine.execLaneFail p lanes s
  | .fabricHello p h => Sys2Proof.Machine.execFabricHello p h s
  | .helloTimer p => Sys2Proof.Machine.execHelloTimer p s
  | .helloTimeout p => Sys2Proof.Machine.execHelloTimeout p s
  | .adaptStart p => Sys2Proof.Machine.execAdaptStart p s
  | .adaptDone p => Sys2Proof.Machine.execAdaptDone p s
  | .downRetry p => Sys2Proof.Machine.execDownRetry p s
  | .signalDetect p => Sys2Proof.Machine.execSignalDetect p s
  | .partnerRetrain p => Sys2Proof.Machine.execPartnerRetrain p s
  | .lossOfSignal p => Sys2Proof.Machine.execLossOfSignal p s
  | .linkWaitExpiry p => Sys2Proof.Machine.execLinkWaitExpiry p s
  | .fabricGrant p => Sys2Proof.Machine.execFabricGrant p s
  | .fabricData p pk => Sys2Proof.Machine.execFabricData p pk s
  | .fabricAck srcNode chan seq => Sys2Proof.Machine.execFabricAck srcNode chan seq s
  | .fabricNack srcNode chan seq => Sys2Proof.Machine.execFabricNack srcNode chan seq s
  | .ackTimer srcNode chan => Sys2Proof.Machine.execAckTimer srcNode chan s
  | .rtoExpiry dstNode chan => Sys2Proof.Machine.execRtoExpiry dstNode chan s
  | .pfcPause p prio quanta => Sys2Proof.Machine.execPfcPause p prio quanta s
  | .fabWrite a r seq => Sys2Proof.Machine.execFabWrite a r seq s
  | .fabRead a r seq => Sys2Proof.Machine.execFabRead a r seq s
  | .write srcNode msgSeq => Sys2Proof.Machine.execWrite srcNode msgSeq s
  | .readReq srcNode msgSeq => Sys2Proof.Machine.execReadReq srcNode msgSeq s
  | .readRsp srcNode msgSeq => Sys2Proof.Machine.execReadRsp srcNode msgSeq s
  | .writeDone srcNode msgSeq => Sys2Proof.Machine.execWriteDone srcNode msgSeq s
  | .control srcNode msgSeq => Sys2Proof.Machine.execControl srcNode msgSeq s
  | .fabricReqTimeout a r seq => Sys2Proof.Machine.execFabricReqTimeout a r seq s
  | .syncTimer p pdelay => Sys2Proof.Machine.execSyncTimer p pdelay s
  | .sync offset => Sys2Proof.Machine.execSync offset s
  | .pdelay delay => Sys2Proof.Machine.execPdelay delay s
  | .announce synced => Sys2Proof.Machine.execAnnounce synced s
  | .syncMiss => Sys2Proof.Machine.execSyncMiss s
  | .tsyStep req ns => Sys2Proof.Machine.execTsyStep req ns s
  | .tsyRate req rate => Sys2Proof.Machine.execTsyRate req rate s
  | .timeSet a p m wr => Sys2Proof.Machine.execTimeSet a p m wr s
  | .fabricStatus a p m wr => Sys2Proof.Machine.execFabricStatus a p m wr s
  | .allReduce a r seq => Sys2Proof.Machine.execAllReduce a r seq s
  | .reduceScatter a r seq => Sys2Proof.Machine.execReduceScatter a r seq s
  | .allGather a r seq => Sys2Proof.Machine.execAllGather a r seq s
  | .broadcast a r seq => Sys2Proof.Machine.execBroadcast a r seq s
  | .allToAll a r seq => Sys2Proof.Machine.execAllToAll a r seq s
  | .collIssueUnblock a r seq => Sys2Proof.Machine.execCollIssueUnblock a r seq s
  | .collReady m => Sys2Proof.Machine.execCollReady m s
  | .rosterDecide a r seq => Sys2Proof.Machine.execRosterDecide a r seq s
  | .collRoster m => Sys2Proof.Machine.execCollRoster m s
  | .collExp m => Sys2Proof.Machine.execCollExp m s
  | .collData m residueFails => Sys2Proof.Machine.execCollData m residueFails s
  | .collClose m residueFails => Sys2Proof.Machine.execCollClose m residueFails s
  | .collError m => Sys2Proof.Machine.execCollError m s
  | .collTimeout a r seq => Sys2Proof.Machine.execCollTimeout a r seq s
  | .earlyArrivalExpiry half => Sys2Proof.Machine.execEarlyArrivalExpiry half s
  | .groupDefine a p m wr => Sys2Proof.Machine.execGroupDefine a p m wr s
  | .groupPromote a p m wr => Sys2Proof.Machine.execGroupPromote a p m wr s
  | .groupRelease a p m wr => Sys2Proof.Machine.execGroupRelease a p m wr s
  | .groupQuery a p m wr => Sys2Proof.Machine.execGroupQuery a p m wr s
  | .mint a r seq => Sys2Proof.Machine.execMint a r seq s
  | .stepClose a r seq => Sys2Proof.Machine.execStepClose a r seq s
  | .update a r seq => Sys2Proof.Machine.execUpdate a r seq s
  | .mirror a r seq => Sys2Proof.Machine.execMirror a r seq s
  | .mirrorRestore a r seq => Sys2Proof.Machine.execMirrorRestore a r seq s
  | .commit a r seq => Sys2Proof.Machine.execCommit a r seq s
  | .commitWrite => Sys2Proof.Machine.execCommitWrite s
  | .vfEnable numVfs pfLog2 vfLog2 => Sys2Proof.Machine.execVfEnable numVfs pfLog2 vfLog2 s
  | .msixUnmask fn vector enable mask => Sys2Proof.Machine.execMsixUnmask fn vector enable mask s
  | .pcieLinkUp speed width => Sys2Proof.Machine.execPcieLinkUp speed width s
  | .tileEnable req tile on => Sys2Proof.Machine.execTileEnable req tile on s
  | .pfcPauseExpiry p prio => Sys2Proof.Machine.execPfcPauseExpiry p prio s
  | .rosterRetentionExpiry group epoch step => Sys2Proof.Machine.execRosterRetentionExpiry group epoch step s

end Sys2Proof.Machine
end

