-- ==== Sys2Proof/Safety.lean ====
section
/-!
DEFINITION. What claims about the block are stated in: the commands that complete, the canonical form of its memories, and the fuses that
a step may only set.
-/
namespace Sys2Proof

/-- Commands that may program fuse rows: the requests of R161-R166 and the end of the store that a lifecycle transition waits for. -/
def Instr.programs : Instr → Bool
  | .otpProgram .. | .otpSeal .. | .otpRevoke .. | .bmcOtpProgram .. | .bmcOtpSeal .. | .bmcOtpRevoke .. | .storeDone .. => true
  | _ => false

/-- Commands after which the device is in reset. -/
def Instr.resets : Instr → Bool
  | .perstNAssert | .deviceReset .. | .linkReset .. | .lostRestart .. | .vresetFall .. | .holdDomainOff => true
  | _ => false

/-- Commands that may set global time (R614-R618). -/
def Instr.setsTime : Instr → Bool
  | .timeSet .. | .tsyStep .. | .perstNDeassert .. => true
  | c => c.resets

end Sys2Proof

namespace Sys2Proof.Machine

/-- A command completes in a state of which `P` holds. -/
def Ends (i : Instr) (s : State) (P : State → Prop) : Prop := ∃ t, exec i s = .next t ∧ P t

/-- Device memory, the Vault's SRAM, its shadow and the snapshot of a running store are in their one canonical form. -/
def State.memoryWf (s : State) : Bool :=
  Memory.wf s.mem && Memory.wf s.vault.sram && Memory.wf s.vault.shadow && (match s.vault.run with | some r => Memory.wf r.snapshot | none => true)

/-- Every fuse bit that is 1 in `s` is 1 in `t` (R150: a row is programmed by turning bits to 1). -/
def FusesKept (s t : State) : Prop := ∀ p, s.fuseRow p &&& t.fuseRow p = s.fuseRow p

/-- Everything that no register shows is as before: the array, the memories, the ops and the queue. -/
def OnlyRegisters (s t : State) : Prop :=
  t.fuses = s.fuses ∧ t.mem = s.mem ∧ t.poisonLine = s.poisonLine ∧ t.poisonWord = s.poisonWord ∧ t.vault = s.vault ∧ t.ops = s.ops
    ∧ t.tallies = s.tallies ∧ t.pending = s.pending

/-- A requester's access of an offset acts now: the requester can issue it, and a hook's lies in its pages (R199). -/
def State.Acts (s : State) (q : Req) (off : Nat) : Prop := s.reqLive q ∧ (q = .hook → hookPage (off / 0x1000))

/-- SEC's running hook is over, and its component runs no more (R199, R296). -/
def State.hookOver (s : State) : State :=
  ({ s with boot := { s.boot with hook := none } } : State).setClerk 0 { s.clerk 0 with comp := 0 }

/-- The requester owns a serial port and reaches its registers (R223). -/
def State.OwnsPort (s : State) (u : Nat) (q : Req) : Prop :=
  u < 2 ∧ s.reqLive q ∧ (q.direct || q = .hook) ∧ s.spxOwner u q

/-- A fetched request of one type waits on a pair, SVC runs, and the request passes the checks of R310. -/
def State.Asked (s : State) (a p typ : Nat) (f : Fetch) (m : Jz) : Prop :=
  pairExists a p ∧ s.rd (Reg.MBX_STA.STATE a p) = 1 ∧ s.svcUp ∧ s.mbxCheck a p f = .good m ∧ m.typ = typ

/-- A good frame of one opcode waits at the board management server, is no repeat of the last request, and nothing excludes its opcode (R319,
R320, R322). -/
def State.Framed (s : State) (op : Nat) (f : Frame) : Prop :=
  s.bmcReady ∧ s.bmcRead.bmcFrame = some (f, true) ∧ f.op = op ∧ frameNeeds f
    ∧ ¬ (s.bmcRead.bmc.hasLast ∧ s.bmcRead.bmc.lastOp = f.op ∧ s.bmcRead.bmc.lastTag = f.tag) ∧ s.bmcRead.bmcRefusal op = Code.OK

/-- A function reaches a ring page of an account within its ring count (R409). -/
def State.RingTakes (s : State) (fn a r : Nat) : Prop := s.ringReq fn a ∧ r < 32 ∧ r < s.rd (Reg.ACT_RINGS.COUNT a)

/-- An op can issue now, under the rules it was admitted with, and the dispatcher of its half grants it (R416-R420, R427). -/
def State.Issues (s : State) (a r seq opcode : Nat) (o : Op) : Prop :=
  s.opAt a r seq = some o ∧ o.opcode = opcode ∧ s.canIssue o ∧ s.granted o ∧ o.epoch = s.epochOf a

/-- An op as it runs. -/
def Op.run (o : Op) : Op := { o with phase := .running }

/-- The state in which an op starts to run: it took its turn, is issued and counted. -/
def State.begun (s : State) (o : Op) : State :=
  ((s.tookTurn (s.opHalf o) (s.grantable (s.opHalf o)) o).setOp o.run).countWrap (Reg.DSP_ISSUED.COUNT (s.opHalf o)) 1

/-- The state in which an op with operands starts to run: the banks its extents lie on are ON, and the lines of the other half have crossed the
die link. -/
def State.begunMem (s : State) (o : Op) : State := (s.begun o).reachOperands o.run

end Sys2Proof.Machine
end

