-- ==== Sys2Proof/Certificates/Slice0/Obligations.lean ====
section
/-!
DEFINITION. What is claimed of the block, for the provers. Every completion names the state that the command answers, or what holds of it.
-/
open Sys2Proof Sys2Proof.Machine

/-- One step of the block (log entry 2): the command at the front of the queue runs on the state with the queue's rest, and on an empty queue one
nanosecond passes, which no register shows but the busy cycles of the tiles. -/
def Obligations.QueueStep : Prop :=
(∀ (c : Instr) (rest : List Instr) (s : State), step { s with pending := c :: rest } = exec c { s with pending := rest }) ∧
  (∀ s : State, s.pending = [] → step s = .next s.tick ∧ s.tick.uptime = s.uptime + 1 ∧ s.tick.mem = s.mem ∧ s.tick.ops = s.ops ∧ s.tick.fuses = s.fuses
    ∧ s.tick.vault = s.vault ∧ ∀ k, (∀ i, i < 48 → k ≠ (Reg.TIL_BUSY.CYCLES i).key) → s.tick.cell k = s.cell k)

/-- The machine right after reset (R15, R77, R440): every register at the value of its Reset column (a dash: log entry 1), the staged view equal to
it, no command waiting, every tally 0, and the memories in their canonical form. -/
def Obligations.ResetState : Prop :=
(∀ k, State.reset.cell k = regReset k ∧ State.reset.stagedCell k = regReset k) ∧ (∀ i, State.reset.tally i = 0) ∧
  State.reset.pending = [] ∧ State.reset.ops = [] ∧ State.reset.memoryWf = true ∧
  State.reset.rd Reg.CLK_HOST_DIV.DIV = 0 ∧ State.reset.rd Reg.CLK_PWR_DIV.DIV = 3 ∧ State.reset.stage = Stage.RESET

/-- R95: a counterfoil is valid when value XOR complement is all ones; the counterfoil of a value is valid and gives the value back. -/
def Obligations.Counterfoils : Prop :=
(∀ w : Nat, cfOk w = true ↔ (w % 2 ^ 32) ^^^ (w / 2 ^ 32 % 2 ^ 32) = 0xFFFFFFFF) ∧
  (∀ v, v < 2 ^ 32 → cfVal (cfOf v) = some v ∧ cfOf v % 2 ^ 32 = v ∧ cfOf v / 2 ^ 32 = 0xFFFFFFFF - v)

/-- R101: a write of a postable register at its live offset is ignored and sets STAGE_VIOLATION (event 24) on its page; the live value and the
staged view are unchanged. -/
def Obligations.PostableLiveWrite : Prop :=
∀ (s : State) (q : Req) (off size o key v : Nat) (k : PageKind) (i : Nat) (r : RegRow), s.Acts q off → hitOf q off = .page o →
    s.pageAbsent (o / 0x1000) = false → takesWrites q (o / 0x1000) → pageKind (o / 0x1000) = some (k, i) → k ≠ .ring → o % 0x1000 < 0x800 →
    regRowAt o = some (r, key) → r.posted → (size = 4 ∧ off % 4 = 0 ∨ size = 8 ∧ off % 8 = 0 ∧ r.bytes = 8 ∧ key = o) →
    Ends (.registerWrite q off size 0xFF v) s fun t =>
      bit (t.rd (Reg.EVT_RAW.RAW (o / 0x1000))) 24 ∧ t.staged = s.staged ∧ OnlyRegisters s t
        ∧ ∀ c, c ≠ 0x1000 * (o / 0x1000) + 0x10 → t.cell c = s.cell c

/-- Staged writes (R75, R76, R83, R96): a page of a running action is frozen; elsewhere the staged register takes the value and its cluster of
STAGE_DIRTY is set; a counterfoil whose halves disagree is ignored and sets CF_MISMATCH. The live registers never change. -/
def Obligations.StagedWrites : Prop :=
∀ (s : State) (q : Req) (off size o key v : Nat) (k : PageKind) (i : Nat) (r : RegRow), s.Acts q off → hitOf q off = .page o →
    s.pageAbsent (o / 0x1000) = false → takesWrites q (o / 0x1000) → pageKind (o / 0x1000) = some (k, i) → k ≠ .ring → s.stager q k i → 0x800 ≤ o % 0x1000 →
    regRowAt (o - 0x800) = some (r, key) → r.posted → key = o - 0x800 → off % size = 0 → size = r.bytes → (size = 4 ∨ size = 8) → v < 2 ^ (8 * size) →
    (s.frozen (o / 0x1000) → Ends (.stagedWrite q off size v) s fun t =>
      bit (t.rd (Reg.EVT_RAW.RAW (o / 0x1000))) 24 ∧ t.staged = s.staged ∧ ∀ c, c ≠ 0x1000 * (o / 0x1000) + 0x10 → t.cell c = s.cell c) ∧
    (s.frozen (o / 0x1000) = false → r.cf = false → Ends (.stagedWrite q off size v) s fun t =>
      (∀ b, b < 8 * size → r.rw.testBit b → (t.stagedCell key).toNat.testBit b = v.testBit b)
        ∧ (∀ b, r.rw.testBit b = false → (t.stagedCell key).toNat.testBit b = (s.stagedCell key).toNat.testBit b)
        ∧ bit (t.rd (Reg.STAGE_DIRTY.CLUSTER (o / 0x1000))) (key % 0x1000 / 64) ∧ (∀ c, c ≠ key → t.stagedCell c = s.stagedCell c)
        ∧ ∀ c, c ≠ 0x1000 * (o / 0x1000) + 0x24 → t.cell c = s.cell c) ∧
    (s.frozen (o / 0x1000) = false → r.cf → cfOk v = false → Ends (.cfWrite q off size v) s fun t =>
      bit (t.rd (Reg.EVT_RAW.RAW (o / 0x1000))) 25 ∧ t.staged = s.staged ∧ ∀ c, c ≠ 0x1000 * (o / 0x1000) + 0x10 → t.cell c = s.cell c) ∧
    (s.frozen (o / 0x1000) = false → r.cf → cfOk v → Ends (.cfWrite q off size v) s fun t =>
      (t.stagedCell key).toNat = v ∧ (∀ c, c ≠ key → t.stagedCell c = s.stagedCell c) ∧ ∀ c, c ≠ 0x1000 * (o / 0x1000) + 0x24 → t.cell c = s.cell c)

/-- The ACK of a start, and of a cancel that is not accepted, by the conditions of R79 in their order; an ACK other than OK changes nothing else. -/
def Obligations.PostAcks : Prop :=
∀ (s : State) (q : Req) (n mask token : Nat) (ack : Nat → State), n < 4 → token < 2 ^ 16 → s.ownsSlot q n →
    (∀ c, ack c = s.wr (Reg.GLB_POST_STA.ACK n) c) →
    (∀ c, c = .post q n mask token ∧ s.rd (Reg.GLB_POST_MODE.ACTION n) = 0 ∨ c = .checkOnly q n mask token ∧ s.rd (Reg.GLB_POST_MODE.ACTION n) = 1
        ∨ c = .discard q n mask token ∧ s.rd (Reg.GLB_POST_MODE.ACTION n) = 2 →
      (token = 0 → exec c s = .next (ack Code.FORMAT)) ∧
      (token ≠ 0 → s.postSt n = PostSt.CHECKING ∨ s.postSt n = PostSt.ARMED → exec c s = .next (ack Code.LIMIT)) ∧
      (token ≠ 0 → s.postSt n ≠ PostSt.CHECKING → s.postSt n ≠ PostSt.ARMED → token = s.rd (Reg.GLB_POST_STA.TOKEN n) →
        exec c s = .next (ack Code.DUPLICATE))) ∧
    (∀ c act, mask < 2 ^ 16 → act = s.rd (Reg.GLB_POST_MODE.ACTION n) → c = .post q n mask token ∧ act = 0 ∨ c = .checkOnly q n mask token ∧ act = 1
        ∨ c = .discard q n mask token ∧ act = 2 → token ≠ 0 → s.postSt n ≠ PostSt.CHECKING → s.postSt n ≠ PostSt.ARMED →
      token ≠ s.rd (Reg.GLB_POST_STA.TOKEN n) → exec c s = .next ((ack Code.OK).startAction n act mask token)) ∧
    (s.rd (Reg.GLB_POST_MODE.ACTION n) = 3 →
      (token = 0 → exec (.cancel q n mask token) s = .next (ack Code.FORMAT)) ∧
      (token ≠ 0 → token ≠ s.rd (Reg.GLB_POST_STA.TOKEN n) → exec (.cancel q n mask token) s = .next (ack Code.PERMISSION)) ∧
      (token ≠ 0 → token = s.rd (Reg.GLB_POST_STA.TOKEN n) → s.postSt n = PostSt.APPLIED → exec (.cancel q n mask token) s = .next (ack Code.TOO_LATE)) ∧
      (token ≠ 0 → token = s.rd (Reg.GLB_POST_STA.TOKEN n) → s.postSt n = PostSt.IDLE ∨ s.postSt n = PostSt.REJECTED ∨ s.postSt n = PostSt.CHECKED →
        exec (.cancel q n mask token) s = .next (ack Code.ALREADY_DONE)) ∧
      (token ≠ 0 → token = s.rd (Reg.GLB_POST_STA.TOKEN n) → s.postSt n = PostSt.CHECKING → (s.slot n).action = 2 →
        exec (.cancel q n mask token) s = .next (ack Code.TOO_LATE)))

/-- R93: a cancel before the strobe ends the post REJECTED with reason CANCELLED and applies nothing; one after it is TOO_LATE, and the post goes on
to its edge. -/
def Obligations.CancelAndStrobe : Prop :=
∀ (s : State) (q : Req) (n mask token : Nat), n < 4 → token < 2 ^ 16 → token ≠ 0 → s.ownsSlot q n → s.rd (Reg.GLB_POST_MODE.ACTION n) = 3 →
    token = s.rd (Reg.GLB_POST_STA.TOKEN n) → s.slotBusy n → (s.slot n).action ≠ 2 → (tblGet default s.postWait n).active = false →
    ((s.slot n).strobed = false → Ends (.cancel q n mask token) s fun t =>
      t.rd (Reg.GLB_POST_STA.ACK n) = Code.OK ∧ t.postSt n = PostSt.REJECTED ∧ t.rd (Reg.GLB_POST_STA.REASON n) = Reason.CANCELLED
        ∧ t.staged = s.staged ∧ (∀ k, 0x1000 ≤ k → t.cell k = s.cell k) ∧ OnlyRegisters s t) ∧
    ((s.slot n).strobed → Ends (.cancel q n mask token) s fun t =>
      t = s.wr (Reg.GLB_POST_STA.ACK n) Code.TOO_LATE ∧ t.postSt n = s.postSt n ∧
        (((s.slot n).timed = false ∨ (s.slot n).time ≤ s.now) → ∀ bad, exec (.postApply n bad) t = .next (t.applyEdge n bad)))

/-- The apply edge (R77, R88, R91): a page that takes its staged values takes all of them and its STAGE_DIRTY clears; a post that holds a
compute-die page while the compute dies are off is rejected and leaves both views as they are. -/
def Obligations.ApplyEdge : Prop :=
(∀ (s : State) (pg : Nat), pg < 0x4000 → (∀ key ∈ postedKeys pg, (s.copyPage pg).cell key = s.stagedCell key) ∧ (s.copyPage pg).staged = s.staged
    ∧ (s.copyPage pg).rd (Reg.STAGE_DIRTY.CLUSTER pg) = 0
    ∧ ∀ k, k ∉ postedKeys pg → k ≠ 0x1000 * pg + 0x24 → (s.copyPage pg).cell k = s.cell k) ∧
  (∀ (s : State) (n bad : Nat), n < 4 → s.slotBusy n → (s.slot n).strobed → (s.slot n).timed = false → (tblGet default s.postWait n).active = false →
    (s.pagesIn (s.slot n).mask).any computePage → s.on Reg.VLT_STA.COMPUTE_CUT → Ends (.postApply n bad) s fun t =>
      t.postSt n = PostSt.REJECTED ∧ t.rd (Reg.GLB_POST_STA.CODE n) = Code.POWER ∧ t.rd (Reg.GLB_POST_STA.REASON n) = Reason.COMPUTE_OFF
        ∧ t.staged = s.staged ∧ ∀ k, 0x1000 ≤ k → t.cell k = s.cell k)

/-- The CCLK divider (R42, R43): under a clamp the divider that the requests ask for is /6; else it is the slower of the two registers, and a write
of CLK_HOST_DIV leads to it. -/
def Obligations.EffectiveDivider : Prop :=
∀ (s : State) (q : Req) (div : Nat), div < 4 → s.direct q → s.clkChange = none →
    (s.clamped → Ends (.clkHostDiv q div) s fun t => (t.clkChange = some 3 ∨ t.rd Reg.CLK_STA.EFF_DIV = 3) ∧ OnlyRegisters s t) ∧
    (s.clamped = false → Ends (.clkHostDiv q div) s fun t => t.rd Reg.CLK_HOST_DIV.DIV = div ∧ OnlyRegisters s t ∧
      (t.clkChange = some (max div (s.rd Reg.CLK_PWR_DIV.DIV)) ∨ t.clkChange = none ∧ t.rd Reg.CLK_STA.EFF_DIV = max div (s.rd Reg.CLK_PWR_DIV.DIV)))

/-- What a function reads of the register pages (R38, R48, R50, R61, R70, R76): an absent page reads ID 0, STA.ABSENT 1 and else 0; a present one
its class, instance and revision, and EVT_PEND as EVT_RAW AND EVT_EN; the maps agree with the pages; a staged offset that holds no postable
register, and an offset that nothing is assigned to, read 0. -/
def Obligations.ReadsOfPages : Prop :=
∀ (s : State),
    (∀ pg o, (pageKind pg).isSome → s.pageAbsent pg → o < 0x1000 → o % 4 = 0 → s.pageWord (0x1000 * pg + o) = if o = 0x0C then 8 else 0) ∧
    (∀ pg k i, pageKind pg = some (k, i) → k ≠ .ring → s.pageAbsent pg = false →
      bits (s.pageWord (0x1000 * pg)) 0 16 = classCode k ∧ classCode k ≠ 0 ∧ bits (s.pageWord (0x1000 * pg)) 16 8 = i ∧ bits (s.pageWord (0x1000 * pg)) 24 8 = 1
        ∧ bit (s.pageWord (0x1000 * pg + 0x0C)) 3 = false
        ∧ s.pageWord (0x1000 * pg + 0x18) = s.rd (Reg.EVT_RAW.RAW pg) &&& s.rd (Reg.EVT_EN.EN pg)) ∧
    (∀ n, n < 8 → (bit (s.rd Reg.GLB_STACK_MAP.PRESENT) n ↔ bits (s.pageWord (0x180000 + 0x1000 * n)) 0 16 ≠ 0)) ∧
    (∀ p, p < 18 → (bit (s.rd Reg.GLB_PORT_MAP.PRESENT) p ↔ bits (s.pageWord (0x240000 + 0x1000 * p)) 0 16 ≠ 0)) ∧
    (∀ pg k i o, pageKind pg = some (k, i) → k ≠ .ring → 0x800 ≤ o → o < 0x1000 → o % 4 = 0 →
      (∀ r key, regRowAt (0x1000 * pg + o - 0x800) = some (r, key) → r.posted = false) → s.pageWord (0x1000 * pg + o) = 0) ∧
    (∀ fn off, hitOf (.fn fn) off = .unmapped → s.readWord fn off = 0)

/-- The ECC of a fuse row (R150): a read of an intact row gives its data; a read corrects any one bit in error and reports it; any two are reported
uncorrectable; and the blank row is intact. -/
def Obligations.FuseEcc : Prop :=
rowWord 0 = 0 ∧ ∀ d, d < 2 ^ 64 →
    decodeRow (BitVec.ofNat 72 (rowWord d)) = ⟨d, eccOf d, false, false⟩ ∧
    (∀ p, p < 72 → (decodeRow (BitVec.ofNat 72 (rowWord d ^^^ 2 ^ p))).data = d ∧ (decodeRow (BitVec.ofNat 72 (rowWord d ^^^ 2 ^ p))).corr = true
      ∧ (decodeRow (BitVec.ofNat 72 (rowWord d ^^^ 2 ^ p))).uncorr = false) ∧
    (∀ p r, p < r → r < 72 → (decodeRow (BitVec.ofNat 72 (rowWord d ^^^ 2 ^ p ^^^ 2 ^ r))).uncorr = true)

/-- Element formats (R454, R455, R459): converting the value of a code of FP32, BF16, E4M3 or E5M2 back gives the code, unless it is a NaN. -/
def Obligations.FormatRoundTrip : Prop :=
∀ f, f ∈ [Fmt.FP32, Fmt.BF16, Fmt.E4M3, Fmt.E5M2] → ∀ c, c < 2 ^ (8 * fmtUnit f) → ((floatFmt f).decode c).isNan = false →
    (convert f ((floatFmt f).decode c)).code = c ∧ (convert f ((floatFmt f).decode c)).sat = false

/-- The bits of a clearing sum depend on the contributions alone (R647, R668): a roster listed in another order, and contributions that arrived in
another order under their keys (R665), give the same elements and the same overflow marks, for a collective and for a MINT (R697). -/
def Obligations.ClearingOrderFree : Prop :=
∀ (st u : CollStep) (j : CollJob) (ranks others : List Nat) (c : Nat), j.clears → ranks.Perm others → st.got.Perm u.got →
    (st.got.map (·.1)).Nodup → u.reduced j others c = st.reduced j ranks c

/-- HBM writes touch one line (R496, R498): a whole write gives the line its 64 bytes and clears its poison; every byte outside the line, and the
poison of every other line, stay; a partial write of a line without poison or error changes the enabled bytes alone. -/
def Obligations.HbmLineFrame : Prop :=
∀ (s t : State) (a : Nat) (bs : List Byte), bs.length = 64 →
    (exec (.hbmFullWrite a bs) s = .next t →
      (∀ x, x < a / 64 * 64 ∨ a / 64 * 64 + 64 ≤ x → byteAt t.mem x = byteAt s.mem x)
        ∧ (∀ l, l ≠ a / 64 → tblGet false t.poisonLine l = tblGet false s.poisonLine l) ∧ t.regs = s.regs ∧ t.fuses = s.fuses ∧ t.vault = s.vault
        ∧ t.ops = s.ops ∧ t.tallies = s.tallies) ∧
    (∀ src acct be, exec (.hbmPartialWrite a src acct 0 bs be) s = .next t →
      (∀ x, x < a / 64 * 64 ∨ a / 64 * 64 + 64 ≤ x → byteAt t.mem x = byteAt s.mem x)
        ∧ (∀ i, be.getD i false = false → byteAt t.mem (a / 64 * 64 + i) = byteAt s.mem (a / 64 * 64 + i)) ∧ t.poisonLine = s.poisonLine
        ∧ t.fuses = s.fuses ∧ t.vault = s.vault ∧ t.ops = s.ops ∧ t.tallies = s.tallies)

/-- Isolation through BAR 2 (R376): a write changes no byte of device memory outside the range it addresses, and none at all when its check fails. -/
def Obligations.Bar2Isolation : Prop :=
∀ (s t : State) (a off : Nat) (bytes : List Byte) (be : List Bool), exec (.bar2Write a off bytes be) s = .next t →
    (∀ x, x < s.aperture a off ∨ s.aperture a off + bytes.length ≤ x → byteAt t.mem x = byteAt s.mem x) ∧
    (s.bar2Code a off bytes.length true ≠ Code.OK → t.mem = s.mem) ∧ t.fuses = s.fuses ∧ t.vault = s.vault ∧ t.tallies = s.tallies ∧ t.ops = s.ops

/-- Isolation of register pages (R69, R70, R308): a write of a virtual function changes no register of another account's mailbox, account or ring
pages, no tally outside its own range, no fuse, and no byte of memory. A write into its tally window may end the watch that a ring has on the tally
(R439); no other register of another account changes. -/
def Obligations.VfIsolation : Prop :=
∀ (s t : State) (a b off size be v k : Nat), 0 < a → a < 32 → b < 32 → a ≠ b → exec (.registerWrite (.fn a) off size be v) s = .next t →
    (k / 0x1000 = 0x20 + b ∨ k / 0x1000 = 0x40 + b ∨ 0x3000 + 32 * b ≤ k / 0x1000 ∧ k / 0x1000 < 0x3020 + 32 * b) →
    (hitOf (.fn a) off ≠ .tally ∨ k % 0x1000 ≠ 0x60 → t.cell k = s.cell k) ∧ (∀ j, s.ownsTally a j = false → t.tally j = s.tally j)
      ∧ (hitOf (.fn a) off ≠ .tally → t.tallies = s.tallies) ∧ t.fuses = s.fuses ∧ t.mem = s.mem ∧ t.vault = s.vault

/-- What only some commands change: fuse rows change by programming alone; global time by its setters and the resets; SESSIONs by packets and the
resets; and no command touches the queue or the local clock. -/
def Obligations.SpecialWriters : Prop :=
∀ (c : Instr) (s t : State), exec c s = .next t →
    (c.programs = false → t.fuses = s.fuses ∧ t.weak = s.weak) ∧ (c.setsTime = false → t.timeFine = s.timeFine) ∧
    (c.resets = false → (∀ p k, c ≠ .fabricData p k) → t.sessions = s.sessions) ∧ t.pending = s.pending ∧ t.uptime = s.uptime

/-- Fuses only ever turn to 1 (R150, R167): every step keeps every fuse bit that is set. -/
def Obligations.FusesOnlySet : Prop :=
∀ s t : State, step s = .next t → FusesKept s t

/-- The canonical form of the memories is kept by every step. Where the spec leaves a choice, the clauses follow log entry 3. -/
def Obligations.MemoriesStayCanonical : Prop :=
∀ s t : State, s.memoryWf = true → step s = .next t → t.memoryWf = true

/-- PERST_N and the start of the boot (R185, R776, R395). The boot stages (R185-R190): each ends in the next one. The halt frame on FAULT_N
(R174): 400 ms low, 100 ms high, the eight bits of the reason from the highest down, 100 ms each, low for 1, and 700 ms high; nothing else changes. -/
def Obligations.ResetAndBootStages : Prop :=
  ((∀ s : State, exec .perstNAssert s = .next (s.enterReset false)) ∧
  (∀ (s : State) (env : BootEnv), s.stage = Stage.RESET → s.boot.waitOff = false →
    exec (.perstNDeassert env) s = .next (({ s with timeFine := 0 } : State).bootStart { env with strap := env.strap % 4 } true))) ∧
  (∀ s : State, s.boot.hook = none →
    (s.stage = Stage.RAILS → s.rd Reg.SUP_STA.SEQ = Seq.ON → s.bootGoes → Ends .bootRailsOn s fun t => t = s.railsOn ∧ t.stage = Stage.MARCH) ∧
    (s.stage = Stage.RAILS → s.rd Reg.SUP_STA.SEQ ≠ Seq.ON →
      Ends .bootRailsTimeout s fun t => t.stage = Stage.PCIE ∧ t.on Reg.BOOT_STA.RAILS_FAULT) ∧
    (∀ tiles a b engines log, s.stage = Stage.MARCH → s.bootGoes → Ends (.marchDone tiles a b engines log) s fun t =>
      t = s.marchDone tiles a b engines log ∧ t.stage = Stage.HBM_TRAIN) ∧
    (∀ failed, s.stage = Stage.HBM_TRAIN → s.bootGoes → Ends (.hbmTrainDone failed) s fun t => t = s.hbmTrained failed ∧ t.stage = Stage.PCIE) ∧
    (s.stage = Stage.PCIE → Ends .pcieReady s fun t => t.stage = Stage.AWAIT_FIRMWARE)) ∧
  (∀ s : State, s.stage = Stage.HALTED →
    exec .haltFaultFrame s = .next (s.emit (.faultFrame
      ([(false, 400), (true, 100)] ++ (List.range 8).map (fun i => (!(s.rd Reg.OTP_STA.HALT_REASON).testBit (7 - i), 100)) ++ [(true, 700)]))))

/-- Hooks end (R199, R200): a return of 0 leaves no fault; any other, and a timeout, sets HOOK_FAULT, and the hook is not called again; after each
the boot goes on behind the hook. Loading and unloading firmware (R203, R204, R208, R209): a LOAD that passes its first checks enters LOADING; a
staged copy that passes all enters LOADED, and a host read that fails leaves what it brought and ends the load at check 3; an UNLOAD enters UNLOADING, and with every op gone
ends in AWAIT_FIRMWARE. -/
def Obligations.HooksAndFirmware : Prop :=
  (∀ (s : State) (h : Nat), s.boot.hook = some h →
    exec (.hookReturn 0) s = .next (s.hookOver.afterHook h) ∧
    (∀ code, 0 < code → code < 2 ^ 32 → exec (.hookReturn code) s = .next ((s.hookOver.hookFailed h (.returned code)).afterHook h)) ∧
    exec .hookTimeout s = .next ((s.hookOver.hookFailed h .timeout).afterHook h) ∧
    (∀ cause, (s.hookOver.hookFailed h cause).on Reg.BOOT_STA.HOOK_FAULT ∧ (s.hookOver.hookFailed h cause).boot.hook = none
      ∧ bit (s.hookOver.hookFailed h cause).boot.hooksFailed h)) ∧
  (∀ (s : State), s.secUp →
    (∀ q, s.pf q → s.resetting 4 = false → s.stage = Stage.AWAIT_FIRMWARE ∨ s.stage = Stage.LOADED_REFUSED → s.on Reg.BOOT_STA.RAILS_FAULT = false →
      s.rd Reg.BOOT_FW_ADDR.ADDR % 4096 = 0 → 0x200 ≤ s.rd Reg.BOOT_FW_LEN.LEN → s.rd Reg.BOOT_FW_LEN.LEN ≤ 0x2000000 →
      Ends (.bootLoad q) s fun t => t.stage = Stage.LOADING ∧ t.boot.loadFrom = s.stage) ∧
    (∀ bytes, s.stage = Stage.LOADING → ((s.stageImage bytes).imageCode (s.stageImage bytes).stagedCopy).1 = Code.OK →
      Ends (.loadComplete .ok bytes) s fun t => t.stage = Stage.LOADED ∧ t.rd Reg.BOOT_LOAD_STA.CODE = Code.OK) ∧
    (∀ dma bytes, s.stage = Stage.LOADING → dma ≠ .ok → exec (.loadComplete dma bytes) s = .next ((s.stagePart bytes).loadFailed (dmaCode dma) 3)) ∧
    (∀ q, s.pf q → s.resetting 4 = false → s.stage = Stage.LOADED ∨ s.stage = Stage.RUNNING ∨ s.stage = Stage.LOADED_REFUSED →
      Ends (.bootUnload q) s fun t => t.stage = Stage.UNLOADING) ∧
    (s.stage = Stage.UNLOADING → s.ops = [] → s.ringsInUse = [] →
      Ends .unloadComplete s fun t => t.stage = Stage.AWAIT_FIRMWARE ∧ t.rd Reg.BOOT_LOAD_STA.CODE = Code.OK))

/-- Plain, staged and counterfoil writes (R14, R66, R68, R75, R76, R96): each is one access of its requester at its offset. A write to an absent
page (R38, R56): it is ignored, GLB_ABSENT_LOG takes the page and counts, and ABSENT is raised. A read of the low half of a 64-bit register latches
its high half for the function, whose next read of that half returns the latched value (R67); a read of GLB_TIME latches the fraction (R78). -/
def Obligations.RegisterAccesses : Prop :=
  (∀ (s : State) (q : Req) (off size v : Nat),
    (∀ be, exec (.registerWrite q off size be v) s = .next (s.pageWrite q off size be v)) ∧
    exec (.stagedWrite q off size v) s = .next (s.pageWrite q off size 0xFF v) ∧
    exec (.cfWrite q off size v) s = .next (s.pageWrite q off size 0xFF v)) ∧
  (∀ (s : State) (q : Req) (off pg : Nat), s.Acts q off → hitOf q off = .page (0x1000 * pg) → s.pageAbsent pg → pg < 2 ^ 14 →
    Ends (.absentPageWrite q off) s fun t =>
      t.rd Reg.GLB_ABSENT_LOG.PAGE = pg ∧ t.rd Reg.GLB_ABSENT_LOG.COUNT = min (s.rd Reg.GLB_ABSENT_LOG.COUNT + 1) 65535
        ∧ bit (t.rd (Reg.EVT_RAW.RAW 0)) 0 ∧ ∀ k, k ≠ 0x5C → k ≠ 0x10 → t.cell k = s.cell k) ∧
  (∀ (s : State) (fn off v : Nat), s.fnLive fn → s.wideRead fn off = some v →
    (Ends (.splitReadLatch fn off) s fun t =>
      t.out = .regRead off (v % 2 ^ 32) :: s.out ∧ tblGet none t.split fn = some (off, BitVec.ofNat 32 (v / 2 ^ 32))
        ∧ (∀ j, j ≠ fn → tblGet none t.split j = tblGet none s.split j)
        ∧ (fn = 0 → off = 0x100 → t.rd Reg.GLB_TIME_FRAC.FRAC = s.timeFine % 2 ^ 56 / 2 ^ 40) ∧ ∀ k, k ≠ 0x108 → t.cell k = s.cell k) ∧
    (∀ h, off % 8 = 0 → s.wideRead fn (off + 4) = none → s.beyond fn (off + 4) = false →
      hitOf (.fn fn) (off + 4) ≠ .page Reg.VLT_VMAIN.NOW.key → tblGet none s.split fn = some (off, h) → Ends (.splitReadLatch fn (off + 4)) s fun t =>
      t.out = .regRead (off + 4) h.toNat :: s.out ∧ tblGet none t.split fn = none ∧ t.regs = s.regs))

/-- EVT_RAW, EVT_EN and EVT_FORCE (R61-R63, R378): a 1 written to EVT_RAW clears its bit, but for the events of a serial port that last (R248);
EVT_EN takes the value, EVT_FORCE sets bits; no other register changes. CTL.SOFT_RESET of a unit page (R64, R259): it reads 1 and ENABLE 0 at once; when the unit's work is over every register of the
page takes its value after a soft reset. Where the spec leaves a choice, the clauses follow log entry 13. -/
def Obligations.PageRegisters : Prop :=
  (∀ (s : State) (q : Req) (pg i : Nat) (k : PageKind), s.Acts q (pg * 0x1000) → s.pageAbsent pg = false → takesWrites q pg →
    pageKind pg = some (k, i) → k ≠ .ring → (∀ a, q = .fn a → a = 0 ∨ pg = 0x20 + a) →
    (∀ v, v < 2 ^ 32 → k ≠ .spx → Ends (.evtRawClear q pg v) s fun t =>
      t.rd (Reg.EVT_RAW.RAW pg) = s.rd (Reg.EVT_RAW.RAW pg) &&& (2 ^ 32 - 1 - v) ∧ ∀ c, c ≠ 0x1000 * pg + 0x10 → t.cell c = s.cell c) ∧
    (∀ v, v < 2 ^ 32 → k = .spx → exec (.evtRawClear q pg v) s =
      .next (((s.wr (Reg.EVT_RAW.RAW pg) (s.rd (Reg.EVT_RAW.RAW pg) &&& (2 ^ 32 - 1 - v))).reRaise pg).fifoEvents i)) ∧
    (∀ v, v < 2 ^ 32 → Ends (.evtEnWrite q pg v) s fun t =>
      t.rd (Reg.EVT_EN.EN pg) = v ∧ ∀ c, c ≠ 0x1000 * pg + 0x14 → t.cell c = s.cell c) ∧
    (∀ v, v < 2 ^ 32 → q.direct → Ends (.evtForce q pg v) s fun t =>
      t.rd (Reg.EVT_RAW.RAW pg) = s.rd (Reg.EVT_RAW.RAW pg) ||| v ∧ ∀ c, c ≠ 0x1000 * pg + 0x10 → t.cell c = s.cell c)) ∧
  (∀ (s : State) (q : Req) (pg i : Nat) (k : PageKind), pageKind pg = some (k, i) → k ≠ .ring →
    (noSoftReset k = false → ctlTaker q k → (∀ a, q = .fn a → a = 0 ∨ pg = 0x20 + a) → s.Acts q (pg * 0x1000) → takesWrites q pg → s.pageAbsent pg = false → s.resetting pg = false →
      exec (.softReset q pg) s = .next (s.softReset pg)) ∧
    (s.resetting pg → s.unitIdle pg → exec (.softResetDone pg) s = .next ((s.resetUnit k i).resetRegs k pg)))

/-- OTP_READ_ROW (R176): the read registers show the row as the remap and the ECC give it. -/
def Obligations.OtpReadRow : Prop :=
∀ (s : State) (q : Req) (row : Nat), s.pf q → row < 2048 →
    Ends (.otpReadRow q row) s fun t =>
      t.rd Reg.OTP_READ_ROW.ROW = row ∧ t.rd Reg.OTP_READ_DATA.DATA = (s.readRow row).data % 2 ^ 64 ∧ t.on Reg.OTP_READ_STA.VALID
        ∧ t.on Reg.OTP_READ_STA.CORR = (s.readRow row).corr ∧ t.on Reg.OTP_READ_STA.UNCORR = (s.readRow row).uncorr
        ∧ t.on Reg.OTP_READ_STA.REMAPPED = (s.spareOf row).isSome ∧ t.fuses = s.fuses

/-- Starting and cancelling an action (R79-R81): the owner of a slot writes GLB_POST_CTL with GLB_POST_MODE at the action; the start's ACK is that
of R79, and one that is not OK changes nothing else. A post's course (R82, R84, R87, R88, R90): the end of checking, the strobe 48 SCLK cycles
ahead, the apply edge, the second check, and the end of a DISCARD. -/
def Obligations.Posts : Prop :=
  (∀ (s : State) (q : Req) (n mask token : Nat), n < 4 → mask < 2 ^ 16 → token < 2 ^ 16 → s.ownsSlot q n →
    (s.rd (Reg.GLB_POST_MODE.ACTION n) = 0 → s.startAck n token = Code.OK →
      exec (.post q n mask token) s = .next ((s.wr (Reg.GLB_POST_STA.ACK n) Code.OK).startAction n 0 mask token)) ∧
    (s.rd (Reg.GLB_POST_MODE.ACTION n) = 1 → s.startAck n token = Code.OK →
      exec (.checkOnly q n mask token) s = .next ((s.wr (Reg.GLB_POST_STA.ACK n) Code.OK).startAction n 1 mask token)) ∧
    (s.rd (Reg.GLB_POST_MODE.ACTION n) = 2 → s.startAck n token = Code.OK →
      exec (.discard q n mask token) s = .next ((s.wr (Reg.GLB_POST_STA.ACK n) Code.OK).startAction n 2 mask token)) ∧
    (s.rd (Reg.GLB_POST_MODE.ACTION n) = 3 → exec (.cancel q n mask token) s = .next (s.cancel n mask token)) ∧
    (s.rd (Reg.GLB_POST_MODE.ACTION n) = 0 → s.startAck n token ≠ Code.OK →
      exec (.post q n mask token) s = .next (s.wr (Reg.GLB_POST_STA.ACK n) (s.startAck n token)))) ∧
  (∀ (s : State) (n : Nat), n < 4 →
    (s.postSt n = PostSt.CHECKING → (s.slot n).action ≠ 2 → (s.slot n).strobed = false → exec (.postCheckDone n) s = .next (s.checked n)) ∧
    (s.postSt n = PostSt.ARMED → (s.slot n).strobed = false → (s.slot n).recheck = false → (s.slot n).time ≤ s.now + 80 →
      exec (.postStrobe n) s = .next (s.setSlot n { s.slot n with strobed := true })) ∧
    (∀ bad, s.slotBusy n → (s.slot n).strobed → (s.slot n).timed = false → exec (.postApply n bad) s = .next (s.applyEdge n bad)) ∧
    (∀ ok, s.postSt n = PostSt.ARMED → (s.slot n).recheck → exec (.postRecheckDone n ok) s = .next (s.rechecked n ok)) ∧
    (s.postSt n = PostSt.CHECKING → (s.slot n).action = 2 →
      exec (.discardDone n) s = .next (((s.pagesIn (s.slot n).mask).foldl State.discardPage s).postEnd n PostSt.IDLE Code.OK 0 0)))

/-- CCLK (R42, R43, R45, R51): the two divider registers take what their owners write and a change starts; a change that ends shows in EFF_DIV and
counts. CLOCK_GLITCH (R46, R47): the clocks stop, ROOT_LOCK and REF_OK fall, the secure banks are wiped, and the device raises FATAL. The die link
(R30, R59): replays are counted; beyond 8 the link retrains on both halves; a retrain that succeeds brings it UP; the third failure in a row ends in
FAILED and FATAL. -/
def Obligations.ClocksAndDieLink : Prop :=
  (∀ (s : State) (div : Nat), div < 4 →
    (∀ q, s.direct q → exec (.clkHostDiv q div) s = .next (s.wr Reg.CLK_HOST_DIV.DIV div).retarget) ∧
    (s.clerkSt 2 = ClerkSt.RUNNING → exec (.clkPwrDiv .pwr div) s = .next (s.pwrDiv div)) ∧
    (s.clkChange = some div → Ends .cclkChangeDone s fun t =>
      t.rd Reg.CLK_STA.EFF_DIV = div ∧ t.rd Reg.CLK_STEP_CNT.COUNT = (s.rd Reg.CLK_STEP_CNT.COUNT + 1) % 2 ^ 32 ∧ OnlyRegisters s t)) ∧
  (∀ s : State, s.on Reg.CLK_STA.GLITCH = false →
    ∀ (pll : Bool) (khz : Nat),
      (pll = true ∨ khz < 99900 ∨ 100100 < khz → exec (.clockGlitch ⟨pll, khz⟩) s = .next ((s.refMeasured khz).clockLost pll)) ∧
      (pll = false → 99900 ≤ khz → khz ≤ 100100 → Ends (.clockGlitch ⟨pll, khz⟩) s fun t =>
        t.rd Reg.CLK_REF_MON.REF_KHZ = khz ∧ t.on Reg.CLK_REF_MON.REF_OK ∧ t.clkStopped = s.clkStopped ∧ OnlyRegisters s t)) ∧
  (∀ (s : State),
    (∀ half n, half < 2 → s.on (Reg.DLK_STA.UP half) → s.clkStopped = false → 1 ≤ n → n ≤ 8 → Ends (.dlkFlitCrcFail half n) s fun t =>
      t.rd (Reg.DLK_REPLAY_CNT.COUNT half) = min (s.rd (Reg.DLK_REPLAY_CNT.COUNT half) + n) (2 ^ 32 - 1) ∧ t.on (Reg.DLK_STA.UP half) ∧ OnlyRegisters s t) ∧
    (∀ half n, half < 2 → s.on (Reg.DLK_STA.UP half) → s.clkStopped = false → 8 < n → Ends (.dlkFlitCrcFail half n) s fun t =>
      t.on (Reg.DLK_STA.UP 0) = false ∧ t.on (Reg.DLK_STA.UP 1) = false ∧ t.on (Reg.DLK_STA.RETRAINING 0) ∧ t.on (Reg.DLK_STA.RETRAINING 1) ∧ OnlyRegisters s t) ∧
    (s.on (Reg.DLK_STA.RETRAINING 0) → s.clkStopped = false → exec (.dlkRetrainDone true) s =
      .next ((({ s with dlkAttempts := 0 } : State).dlkBoth Reg.DLK_STA.RETRAINING false |>.dlkBoth Reg.DLK_STA.UP true).dlkResume)) ∧
    (s.on (Reg.DLK_STA.RETRAINING 0) → s.clkStopped = false → s.dlkAttempts + 1 < 3 → exec (.dlkRetrainDone false) s =
      .next ({ s with dlkAttempts := s.dlkAttempts + 1 } : State).dlkRetrain))

/-- SUP_CMD and SUP_GROUP_CMD (R135, R136): PF, SEC and PWR command the sequencer. Sampling, trips and PMBus (R111, R127, R130-R133): a sample
period, THERMTRIP_N, a reversed VHOLD, poll and alert transactions, and a set-point within its range, which reaches the regulator. Where the spec
leaves a choice, the clauses follow log entry 60. -/
def Obligations.SupplyControl : Prop :=
  (∀ (s : State) (q : Req), s.supTakes q →
    (s.upBlocked = false → s.usedMask ≠ 0 → exec (.supPowerUp q) s = .next (s.powerUp s.usedMask)) ∧
    (s.enMask ≠ 0 → exec (.supPowerDown q) s = .next (s.powerDown s.usedMask)) ∧
    (∀ g, g < 256 → exec (.supGroupOn q g) s = .next (s.supGroupOn g)) ∧
    (∀ g, g < 256 → exec (.supGroupOff q g) s = .next (s.powerDown (s.groupMask g)))) ∧
  (∀ (s : State),
    (∀ samples pg, exec (.railSample samples pg) s = .next ((State.romSetPoints s (s.sampleRails samples pg)).bootWaits)) ∧
    (s.on Reg.SUP_STA.THERMTRIP = false → exec .thermtrip s = .next s.thermTrip.bootWaits) ∧
    (s.on Reg.SUP_HOLD_STA.REVERSED = false → Ends .holdReversed s fun t =>
      32768 ≤ t.rd Reg.SUP_HOLD_STA.VHOLD ∧ t.rd Reg.SUP_HOLD_STA.VHOLD < 65486 ∧ t.on Reg.SUP_HOLD_STA.REVERSED ∧ t.on Reg.VLT_STA.REFUSED ∧ t.on Reg.VLT_STA.CHARGING = false ∧ t.on Reg.VLT_STA.ARMED = false) ∧
    (∀ (n vout iout temp status : Nat), n < 20 → s.on (Reg.RAIL_PMB.BOUND n) → (s.rail n).held = none →
      Ends (.pmbPoll [⟨n, false, vout, iout, temp, status⟩]) s fun t =>
        t.rd (Reg.RAIL_TELEM.VOUT n) = vout % 65536 ∧ t.rd (Reg.RAIL_TELEM.IOUT n) = iout % 65536 ∧ !t.on (Reg.RAIL_STA.PMB_STALE n)
          ∧ (t.rail n).temp = temp ∧ (t.rail n).status = status) ∧
    (∀ (n vout iout temp status : Nat), n < 20 → s.on (Reg.RAIL_PMB.BOUND n) → (s.rail n).held = none →
      Ends (.pmbAlert [⟨n, false, vout, iout, temp, status⟩]) s fun t =>
        (t.rail n).status = status ∧ !t.on (Reg.RAIL_STA.PMB_STALE n) ∧ t.rd (Reg.RAIL_TELEM.VOUT n) = s.rd (Reg.RAIL_TELEM.VOUT n)) ∧
    (∀ n mv, n < 20 → s.reqLive .pwr → s.rd (Reg.RAIL_VOUT.VMIN n) ≤ mv → mv ≤ s.rd (Reg.RAIL_VOUT.VMAX n) → s.on (Reg.RAIL_PMB.BOUND n) →
      s.on (Reg.RAIL_STA.PMB_FORMAT n) = false → s.on (Reg.RAIL_STA.PMB_STALE n) = false →
      exec (.railSetWrite .pwr n mv) s = .next ((s.wr (Reg.RAIL_SET.VOUT n) mv).emit (.vout n mv))) ∧
    (∀ n mv, n < 20 → s.reqLive .pwr → s.rd (Reg.RAIL_VOUT.VMAX n) < mv →
      exec (.railSetWrite .pwr n mv) s = .next ((s.raise 2 9).lastStatus 2 Code.BOUNDS)))

/-- A rail's own steps (R110-R117, R121-R126, R141): the sense check, the start and stop delays, the soft-start timeout, the discharge timeout, the
backoff and the retry counter. -/
def Obligations.RailSteps : Prop :=
∀ (s : State) (n : Nat), n < 20 →
    (∀ mv : Int, -50 ≤ mv → mv ≤ 1000 → s.railSt n = RailSt.SENSE_CHECK →
      exec (.senseCheckDone n mv) s = .next (((s.setRail n { s.rail n with sensed := true }).setRailSt n RailSt.WAIT_DEPS).settleRails)) ∧
    (∀ mv : Int, 1000 < mv → s.checking n → exec (.senseCheckDone n mv) s = .next (s.senseFault n Cause.SENSE_OPEN 1).settleRails) ∧
    (∀ mv : Int, mv < -50 → s.checking n → exec (.senseCheckDone n mv) s = .next (s.senseFault n Cause.SENSE_REVERSED 2).settleRails) ∧
    (s.railSt n = RailSt.START_DELAY → s.checksDue = false →
      exec (.railStartDelayDone n) s = .next (((s.setRailSt n RailSt.SOFT_START).setRail n { s.rail n with en := true, shown := 0 }).settleRails)) ∧
    (∀ uv ov, s.railSt n = RailSt.SOFT_START → s.railWindow n = some (uv, ov) → s.rd (Reg.RAIL_STA.SENSE n) < uv →
      exec (.ssTimeout n) s = .next (s.railFaults [(n, Cause.SHORT_SUSPECT)]).settleRails) ∧
    (∀ uv ov, s.railSt n = RailSt.SOFT_START → s.railWindow n = some (uv, ov) → uv < s.rd (Reg.RAIL_STA.SENSE n) → s.rd (Reg.RAIL_STA.SENSE n) < ov →
      exec (.ssTimeout n) s = .next (s.railFaults [(n, Cause.PG_MISSING)]).settleRails) ∧
    (s.railSt n = RailSt.STOP_WAIT → (s.rail n).waitOn = 0 →
      exec (.railStopDelayDone n) s = .next ((s.dropRail n RailSt.OFF false).settleRails).bootWaits) ∧
    (s.railSt n = RailSt.DISCHARGE → exec (.dischargeTimeout n) s = .next (((s.confirmOff n).raise 2 10).settleRails).bootWaits) ∧
    (s.railSt n = RailSt.BACKOFF →
      exec (.railBackoffDone n) s = .next ((s.setRailSt n RailSt.WAIT_DEPS).count (Reg.RAIL_STA.RETRY_N n) 1).settleRails) ∧
    (s.railSt n = RailSt.ON → exec (.retryCounterReset n) s = .next (s.wr (Reg.RAIL_STA.RETRY_N n) 0))

/-- Serial FIFOs and transfers (R231, R232, R238, R246): the owner of a port pushes and pops words, starts and flushes; the free port grants a
demand fetch before a transfer; a transfer ends. The windows of SPX0 (R234-R236): a write and an access outside are a bus error; a read is served
line by line; a fetched line enters the buffer as the most recently used one. Where the spec leaves a choice, the clauses follow log entry 58. -/
def Obligations.SerialPorts : Prop :=
  (∀ (s : State) (u : Nat) (q : Req), s.OwnsPort u q →
    (∀ w, (s.port u).tx.length < 64 → exec (.spxTxdPush u q w) s = .next (s.setFifo u { s.port u with tx := (s.port u).tx ++ [w] })) ∧
    (∀ w rest, (s.port u).rx = w :: rest →
      exec (.spxRxdPop u q) s = .next ((s.setFifo u { s.port u with rx := rest }).emit (.regRead (0x50E4 + 0x1000 * u) w.toNat))) ∧
    (s.resetting (5 + u) = false → s.xferCode u = Code.OK → exec (.xferStart u q) s = .next (s.wr (Reg.SPX_XFER_STA.STATE u) 1)) ∧
    (s.rd (Reg.SPX_XFER_STA.STATE u) ≠ 1 → s.rd (Reg.SPX_XFER_STA.STATE u) ≠ 2 →
      exec (.xferFlush u q) s = .next (s.setFifo u { s.port u with tx := [], rx := [] })) ∧
    (∀ sel a rest, s.controller u → s.rd (Reg.SPX_PORT_STA.OP u) = 0 → (s.port u).demand = (sel, a) :: rest →
      exec (.spxPortGrant u) s = .next ((s.setPort u { s.port u with demand := rest }).beginFetch sel a true)) ∧
    (s.resetting (5 + u) = false → s.controller u → s.rd (Reg.SPX_PORT_STA.OP u) = 0 → (s.port u).demand = [] →
      s.rd (Reg.SPX_XFER_STA.STATE u) = 1 → exec (.spxPortGrant u) s = .next (s.beginXfer u)) ∧
    (∀ sel n rx, s.rd (Reg.SPX_PORT_STA.OP u) = 1 → (s.port u).xfer = some (sel, n, true) →
      exec (.xferDone u rx) s = .next ((((((s.setFifo u { s.port u with rx := (s.port u).rx ++ toWords (wordsFor n) (padTo n rx), xfer := none }).wr
        (Reg.SPX_XFER_STA.STATE u) 3).wr (Reg.SPX_XFER_STA.CODE u) Code.OK).raise (5 + u) 0).lastStatus (5 + u) Code.OK).dropLines u sel |>.portFree u))) ∧
  (∀ (s : State) (q : Req) (sel off n : Nat), sel < 4 → off < 0x4000000 → n = 1 ∨ n = 2 ∨ n = 4 ∨ n = 8 → q = .sec ∨ q = .hook → s.reqLive q →
    exec (.xipRead q (0x60000000 + 0x4000000 * sel + off) n true) s = .next ((s.emit (.xipError sel off)).raise 5 7) ∧
    (s.xipServed sel off → s.xipServed sel (off + n - 1) → s.resetting 5 = false → off % 64 + n ≤ 64 →
      exec (.xipRead q (0x60000000 + 0x4000000 * sel + off) n false) s = .next (s.xipLine sel (off / 64 * 64) (off - off / 64 * 64) n)) ∧
    (∀ bytes, s.rd (Reg.SPX_PORT_STA.OP 0) = 2 → (s.port 0).fetch.isSome → exec (.xipFetchDone bytes) s = .next (s.xipFetchDone bytes)))

/-- SPX1 as a slave (R244-R246, R251): its select starts a word, the head of the TX FIFO or SPX_SLV_IDLE; bits of a word show in SPX_SLV_STA.BIT; the
end of a transaction drops a partial word. A word exchanged (R244, R246): the word that was sent shows on DQ1 bit 31 first, from the select in mode
0 and from the first falling edge in mode 3; one of the TX FIFO leaves it while the received one enters the RX FIFO; SPX_SLV_IDLE counts UNDERRUN; a
full RX FIFO drops the word and counts OVERRUN. -/
def Obligations.SlaveWords : Prop :=
  (∀ (s : State),
    (∀ hi, s.controller 1 = false → s.on (Reg.SPX_SLV_STA.SELECTED 1) = false → Ends (.slaveSelect hi) s fun t =>
      t.on (Reg.SPX_SLV_STA.SELECTED 1) ∧ t.on (Reg.SPX_SLV_STA.MODE3 1) = hi ∧ t.rd (Reg.SPX_SLV_STA.BIT 1) = 0 ∧ OnlyRegisters s t ∧
        (t.port 1).word = some (match (s.port 1).tx with | h :: _ => (h, true) | [] => (BitVec.ofNat 32 (s.rd (Reg.SPX_SLV_IDLE.WORD 1)), false))) ∧
    (∀ n w, s.slaveOn → n < 32 → exec (.slaveWord ⟨n, w⟩) s = .next (s.wr (Reg.SPX_SLV_STA.BIT 1) (max n (s.rd (Reg.SPX_SLV_STA.BIT 1))))) ∧
    (∀ n w, s.slaveOn → 32 ≤ n → exec (.slaveWord ⟨n, w⟩) s = .next (s.slaveWord w)) ∧
    (∀ n, s.slaveOn → exec (.slaveDeselect n) s = .next (s.endWord 1 (max n (s.rd (Reg.SPX_SLV_STA.BIT 1)))))) ∧
  (∀ (s : State) (v w : Word), s.slaveOn → s.stage ≠ Stage.HALTED → s.bmc.due = [] →
    (∀ rest, (s.port 1).word = some (v, true) → (s.port 1).tx = v :: rest → (s.port 1).rx.length < 64 → Ends (.slaveWord ⟨32, w⟩) s fun t =>
      (t.port 1).tx = rest ∧ (t.port 1).rx = (s.port 1).rx ++ [w] ∧
        Out.spiWord v ((List.range 32).map fun i => v.toNat.testBit (31 - i)) (!s.on (Reg.SPX_SLV_STA.MODE3 1)) ∈ t.out) ∧
    ((s.port 1).word = some (v, false) → (s.port 1).rx.length < 64 → Ends (.slaveWord ⟨32, w⟩) s fun t =>
      (t.port 1).tx = (s.port 1).tx ∧ (t.port 1).rx = (s.port 1).rx ++ [w] ∧
        t.rd (Reg.SPX_SLV_UNDER.UNDERRUN 1) = min (s.rd (Reg.SPX_SLV_UNDER.UNDERRUN 1) + 1) 0xFFFF) ∧
    ((s.port 1).word = some (v, true) → 64 ≤ (s.port 1).rx.length → Ends (.slaveWord ⟨32, w⟩) s fun t =>
      (t.port 1).rx = (s.port 1).rx ∧ t.rd (Reg.SPX_SLV_CNT.OVERRUN 1) = min (s.rd (Reg.SPX_SLV_CNT.OVERRUN 1) + 1) 0xFFFF))

/-- The doorbell of a pair (R308): an IDLE or REPLIED pair takes SEQ and enters FETCH. Requests that fail a check of R310: the reply of the failing
check; a repeat gets the stored reply with DUPLICATE (R311). -/
def Obligations.DoorbellsAndBadMessages : Prop :=
  (∀ (s : State) (a p seq : Nat), pairExists a p → s.fnLive a → s.resetting (0x20 + a) = false → seq < 2 ^ 32 →
    ((s.rd (Reg.MBX_STA.STATE a p) = 0 ∨ s.rd (Reg.MBX_STA.STATE a p) = 3) →
      Ends (.mbxDoorbell a a p seq) s fun t =>
        t.rd (Reg.MBX_STA.STATE a p) = 1 ∧ (t.pair a p).seq = seq ∧ t.fuses = s.fuses ∧ t.mem = s.mem ∧ t.vault = s.vault ∧ t.ops = s.ops) ∧
    ((s.rd (Reg.MBX_STA.STATE a p) = 1 ∨ s.rd (Reg.MBX_STA.STATE a p) = 2) →
      Ends (.mbxDoorbell a a p seq) s fun t =>
        t.rd (Reg.MBX_STA.STATE a p) = s.rd (Reg.MBX_STA.STATE a p) ∧ t.pairs = s.pairs ∧ t.rd (Reg.LAST_STATUS.CODE (0x20 + a)) = Code.LIMIT
          ∧ t.rd (Reg.MBX_CNT.REFUSED a p) = min (s.rd (Reg.MBX_CNT.REFUSED a p) + 1) 0xFFFF)) ∧
  (∀ (s : State) (a p : Nat) (f : Fetch) (wr : DmaEnd), pairExists a p → s.rd (Reg.MBX_STA.STATE a p) = 1 → s.svcUp →
    (∀ code, s.mbxCheck a p f = .early code → exec (.mbxBadMessage a p f wr) s = .next (s.replyEarly a p 0 code wr)) ∧
    (∀ typ code, s.mbxCheck a p f = .failed typ code → exec (.mbxBadMessage a p f wr) s = .next ((s.speak a p f).refuseRequest a p typ code wr)) ∧
    (∀ t code, (s.refuseRequest a p 0x0010 code wr) = s.reply a p 0x0010 code [] wr ∧ (t = 0x0001 ∨ t = 0x0004 →
      s.refuseRequest a p t code wr = s.reply a p 0x0003 code s.protoBytes wr)) ∧
    (s.mbxCheck a p f = .repeated → exec (.mbxBadMessage a p f wr) s =
      .next ((s.count (Reg.MBX_CNT.DUPLICATES a p) 1).deliver a p (fieldAt (s.pair a p).reply 0xB 1) (duplicateReply (s.pair a p).reply) wr)))

/-- HELLO and ATTACH (R205, R312): WELCOME, REFUSE, ATTACH_OK. Reads of stored data and the trace and dump requests (R215, R316, R328, R331). -/
def Obligations.SessionsAndServices : Prop :=
  (∀ (s : State) (a p : Nat) (f : Fetch) (m : Jz) (wr : DmaEnd),
    (s.Asked a p 0x0001 f m → m.payload.length = 8 → fieldAt m.payload 4 4 = 0 → (s.speak a p f).stage ≠ Stage.LOADED_REFUSED →
      (s.speak a p f).serves m → exec (.hello a p f wr) s = .next ((s.speak a p f).welcome m wr)) ∧
    (s.Asked a p 0x0001 f m → m.payload.length = 8 → fieldAt m.payload 4 4 = 0 → (s.speak a p f).serves m = false →
      exec (.hello a p f wr) s = .next ((s.speak a p f).refuseHello wr)) ∧
    (s.Asked a p 0x0001 f m → m.payload.length = 8 → fieldAt m.payload 4 4 = 0 → (s.speak a p f).stage = Stage.LOADED_REFUSED →
      exec (.hello a p f wr) s = .next ((s.speak a p f).refuseHello wr)) ∧
    (s.Asked a p 0x0004 f m → m.payload = [] → (s.speak a p f).serves m → exec (.attach a p f wr) s =
      .next (((((s.speak a p f).setPair a p { (s.speak a p f).pair a p with major := m.major, minor := m.minor }).wrb (Reg.MBX_STA.ATTACHED a p) true).reply a p
        0x0005 Code.OK (s.speak a p f).protoBytes wr)))) ∧
  (∀ (s : State) (a p : Nat) (f : Fetch) (m : Jz) (wr : DmaEnd),
    (s.Asked a p 0x0010 f m → m.payload.length = 8 → fieldAt m.payload 4 4 ≤ 4056 → exec (.vpdRead a p f wr) s =
      .next ((s.speak a p f).reply a p 0x0010 Code.OK
        (leBytes 4 (s.speak a p f).vpd.length ++ zeros 4 ++ ((s.speak a p f).vpd.drop (fieldAt m.payload 0 4)).take (fieldAt m.payload 4 4)) wr)) ∧
    (s.Asked a p 0x0011 f m → m.payload.length = 8 → fieldAt m.payload 4 4 ≤ 4056 → exec (.manifestRead a p f wr) s =
      .next ((s.speak a p f).reply a p 0x0011 Code.OK
        (leBytes 4 (s.speak a p f).boot.manifest.length ++ zeros 4 ++ ((s.speak a p f).boot.manifest.drop (fieldAt m.payload 0 4)).take (fieldAt m.payload 4 4)) wr)) ∧
    (s.Asked a p 0x0012 f m → m.payload.length = 44 → fieldAt m.payload 8 4 < 2 → fieldAt m.payload 0 8 % 0x4000000 = 0 →
      View.inWindow (s.speak a p f).rd 0 (fieldAt m.payload 0 8) 0x4000000 false false → (s.speak a p f).meetsFw (fieldAt m.payload 0 8) 0x4000000 = false →
      exec (.traceCfg a p f wr) s = .next (((({ s.speak a p f with
        trace := ⟨fieldAt m.payload 0 8, fieldAt m.payload 8 4 = 1, fieldAt m.payload 12 32, 0, 0⟩ } : State).zeroRange (fieldAt m.payload 0 8) 4096)).reply a p
          0x0012 Code.OK [] wr)) ∧
    (∀ d, d < 8 → s.Asked a p 0x0013 f m → m.payload.length = 4 → fieldAt m.payload 0 4 = d → exec (.dumpClear a p f wr) s =
      .next ((((s.speak a p f).readyHeader (dumpRegion d)).setPtr (dumpRegion d) 0x10 0).reply a p 0x0013 Code.OK [] wr)) ∧
    (s.Asked a p 0x0013 f m → m.payload.length = 4 → fieldAt m.payload 0 4 = 0xFF → exec (.dumpClear a p f wr) s =
      .next (((List.range 8).foldl (fun t d => (t.readyHeader (dumpRegion d)).setPtr (dumpRegion d) 0x10 0) (s.speak a p f)).reply a p 0x0013 Code.OK [] wr)))

/-- The account areas of the Vault (R264, R316): a read returns the bytes at OFFSET, a write writes DATA and then VALID, unless VALID is
0xFFFF_FFFF; FLAGS 1 asks for a store, and the request stays BUSY until it is done. -/
def Obligations.AccountAreas : Prop :=
∀ (s : State) (a p : Nat) (f : Fetch) (m : Jz) (wr : DmaEnd),
    (s.Asked a p 0x0020 f m → m.payload.length = 8 → (s.speak a p f).areaCode a (fieldAt m.payload 0 4) (fieldAt m.payload 4 4) 4064 = Code.OK →
      exec (.vaultRead a p f wr) s = .next ((s.speak a p f).reply a p 0x0020 Code.OK
        (bytesAt (s.speak a p f).vault.sram ((accountRegion a).base + 0x40 + fieldAt m.payload 0 4) (fieldAt m.payload 4 4)) wr)) ∧
    (∀ t u, s.Asked a p 0x0021 f m → m.payload.length = 16 + fieldAt m.payload 4 4 →
      (s.speak a p f).areaCode a (fieldAt m.payload 0 4) (fieldAt m.payload 4 4) 4048 = Code.OK →
      t = ((s.speak a p f).readyHeader (accountRegion a)).vaultWrite ((accountRegion a).base + 0x40 + fieldAt m.payload 0 4) (m.payload.drop 16) →
      u = (if fieldAt m.payload 8 4 = 0xFFFFFFFF then t else t.setPtr (accountRegion a) 0x10 (fieldAt m.payload 8 4)) →
      (fieldAt m.payload 12 4 = 0 → exec (.vaultWrite a p f wr) s = .next (u.reply a p 0x0021 Code.OK [] wr)) ∧
      (fieldAt m.payload 12 4 = 1 → exec (.vaultWrite a p f wr) s = .next ((u.busy a p 0x0021 wr).requestStore 1 [.vaultWrite a p]).1))

/-- Fuse requests of the admin pair (R161, R164, R166, R167): programming, sealing and revoking by SEC. Fuse and lifecycle opcodes (R161-R166,
R320): as the requests of the same names, by frame. Where the spec leaves a choice, the clauses follow log entries 34, 35. -/
def Obligations.FuseProgramming : Prop :=
  (∀ (s : State) (a p : Nat) (f : Fetch) (m : Jz) (wr : DmaEnd) (burns : List Burn), s.secUp → s.lcRun.phase = .none →
    (s.Asked a p 0x0030 f m → m.payload.length = 16 → fieldAt m.payload 0 4 < 2048 → fieldAt m.payload 4 4 = 0 →
      (s.speak a p f).rowPermitted (fieldAt m.payload 0 4) →
      (appendContent (fieldAt m.payload 0 4) = some (fieldAt m.payload 8 8) → (s.speak a p f).lastKey (fieldAt m.payload 0 4 - 88) = false) →
      exec (.otpProgram a p f wr burns) s =
        .next ((((s.speak a p f).programRow (fieldAt m.payload 0 4) (fieldAt m.payload 8 8) burns).served (fieldAt m.payload 0 4)).respond a p m wr)) ∧
    (s.Asked a p 0x0030 f m → m.payload.length = 16 → fieldAt m.payload 0 4 < 2048 → fieldAt m.payload 4 4 = 0 →
      (s.speak a p f).rowPermitted (fieldAt m.payload 0 4) = false →
      exec (.otpProgram a p f wr burns) s = .next (((s.speak a p f).refuseRow (fieldAt m.payload 0 4) Code.LIFECYCLE).respond a p m wr)) ∧
    (s.Asked a p 0x0031 f m → m.payload.length = 4 → fieldAt m.payload 0 4 < 9 → (s.speak a p f).sealed (fieldAt m.payload 0 4) = false →
      (s.speak a p f).sealPermitted (fieldAt m.payload 0 4) → (s.speak a p f).regionUnretired (fieldAt m.payload 0 4) = false →
      exec (.otpSeal a p f wr burns) s =
        .next (Served.respond { ((s.speak a p f).programRow (regionRows (fieldAt m.payload 0 4)).2.2 (cfOf ((s.speak a p f).regionCrc (fieldAt m.payload 0 4))) burns).served
          (regionRows (fieldAt m.payload 0 4)).2.2 with payload := leBytes 4 ((s.speak a p f).regionCrc (fieldAt m.payload 0 4)) } a p m wr)) ∧
    (s.Asked a p 0x0032 f m → m.payload.length = 4 → fieldAt m.payload 0 4 < 3 → (s.speak a p f).rowPermitted (88 + fieldAt m.payload 0 4) →
      (s.speak a p f).lastKey (fieldAt m.payload 0 4) = false →
      exec (.otpRevoke a p f wr burns) s =
        .next (Served.respond { ((s.speak a p f).programRow (88 + fieldAt m.payload 0 4) (cfOf (0x5A00 + fieldAt m.payload 0 4)) burns).served
          (88 + fieldAt m.payload 0 4) with payload := [] } a p m wr)) ∧
    (∀ target, s.Asked a p 0x0033 f m → (s.speak a p f).lcRefusal m.payload = Code.OK → cfVal (fieldAt m.payload 0 8) = some target →
      exec (.lcTransition a p f wr burns) s = .next (((s.speak a p f).busy a p 0x0033 wr).lcStart target false burns))) ∧
  (∀ (s : State) (f : Frame) (burns : List Burn), s.secUp → s.lcRun.phase = .none →
    (s.Framed 0x07 f → (ofWords f.payload).length = 16 → fieldAt (ofWords f.payload) 0 4 < 2048 → fieldAt (ofWords f.payload) 4 4 = 0 →
      s.bmcRead.rowPermitted (fieldAt (ofWords f.payload) 0 4) →
      (appendContent (fieldAt (ofWords f.payload) 0 4) = some (fieldAt (ofWords f.payload) 8 8) →
        s.bmcRead.lastKey (fieldAt (ofWords f.payload) 0 4 - 88) = false) →
      ∀ r, (s.bmcRead.programRow (fieldAt (ofWords f.payload) 0 4) (fieldAt (ofWords f.payload) 8 8) burns).served (fieldAt (ofWords f.payload) 0 4) = r →
      exec (.bmcOtpProgram burns) s = .next (r.st.bmcReply f r.code (toWords (wordsFor r.payload.length) r.payload))) ∧
    (∀ g, s.Framed 0x08 f → (ofWords f.payload).length = 4 → fieldAt (ofWords f.payload) 0 4 = g → g < 9 → s.bmcRead.sealed g = false → s.bmcRead.sealPermitted g →
      s.bmcRead.regionUnretired g = false → ∀ r, (s.bmcRead.programRow (regionRows g).2.2 (cfOf (s.bmcRead.regionCrc g)) burns).served (regionRows g).2.2 = r →
      exec (.bmcOtpSeal burns) s = .next (r.st.bmcReply f r.code (toWords 1 (leBytes 4 (s.bmcRead.regionCrc g))))) ∧
    (∀ k, s.Framed 0x09 f → (ofWords f.payload).length = 4 → fieldAt (ofWords f.payload) 0 4 = k → k < 3 → s.bmcRead.rowPermitted (88 + k) →
      s.bmcRead.lastKey k = false → ∀ r, (s.bmcRead.programRow (88 + k) (cfOf (0x5A00 + k)) burns).served (88 + k) = r →
      exec (.bmcOtpRevoke burns) s = .next (r.st.bmcReply f r.code [])) ∧
    (∀ target, s.Framed 0x0A f → s.bmcRead.lcRefusal (ofWords f.payload) = Code.OK → cfVal (fieldAt (ofWords f.payload) 0 8) = some target →
      exec (.bmcLcTransition burns) s =
        .next ((({ s.bmcRead with bmc := { s.bmcRead.bmc with busy := some (f.op, f.tag), frame := [] } } : State).bmcIdle).lcStart target true burns)))

/-- VLT_CMD, VLT_SAFE_INTERVAL and the end of a store (R266-R269, R274). A store that ends with nobody waiting (R268): the shadow takes the
snapshot, the seal closes, the SRAM stays as it is, VLT_STORE_CNT advances and VLT_LAST_STORE takes the time of the snapshot. Where the spec leaves
a choice, the clauses follow log entry 36. -/
def Obligations.VaultStores : Prop :=
  (∀ (s : State) (q : Req) (us : Nat),
    (s.vltTakes q → s.vault.run = none → s.vault.clean = false → exec (.vltCmdStore q) s = .next (s.startStore 1 [])) ∧
    (s.svcUp → s.on Reg.VLT_STA.ARMED = false → s.vault.run = none → s.vault.clean = false → exec .safeIntervalStore s = .next (s.startStore 1 [])) ∧
    (∀ r, s.vault.run = some r → exec (.storeDone us) s = .next ((r.waiters.foldl State.storeWaiter (s.finishStore us)).startPending)) ∧
    (s.vltTakes q → s.vault.run = none → s.vault.clean → Ends (.vltCmdStore q) s fun t =>
      t.rd Reg.VLT_STORE_INFO.CODE = Code.ALREADY_DONE ∧ t.rd (Reg.LAST_STATUS.CODE 7) = Code.ALREADY_DONE ∧ OnlyRegisters s t)) ∧
  (∀ (s : State) (r : StoreRun) (us : Nat), s.vault.run = some r → r.waiters = [] → s.vault.nextSources = [] → r.source ≠ 0 → r.auto = false →
    s.vault.autoStore = false → r.time < 2 ^ 64 → s.supply ≠ 2 → Ends (.storeDone us) s fun t =>
      t.vault.shadow = r.snapshot ∧ t.vault.sealOpen = false ∧ t.vault.run = none ∧ t.vault.sram = s.vault.sram
        ∧ t.rd Reg.VLT_STORE_CNT.COUNT = (s.rd Reg.VLT_STORE_CNT.COUNT + 1) % 2 ^ 64 ∧ t.rd Reg.VLT_LAST_STORE.NS = r.time
        ∧ t.on Reg.VLT_STA.STORING = false ∧ t.rd Reg.VLT_STORE_INFO.DURATION = min us 65535)

/-- The supply thresholds and the compute cut (R276, R277, R279, R284). LOST (R279, R281, R289): the rise over VRESET starts the count, 10 ms later
the device restarts, and below 6.0 V the hold domain turns off. Where the spec leaves a choice, the clauses follow log entry 37. -/
def Obligations.SupplyLoss : Prop :=
  (∀ (s : State) (v : Nat), s.lost = false → v < 1024 →
    (v < s.vWarn → exec (.vwarnFall v) s = .next ((s.vmain v).warn)) ∧
    (s.vWarn + 20 ≤ v → Ends (.vwarnRise v) s fun t => t.on Reg.CLK_STA.CLAMP_VWARN = false ∧ t.rd Reg.VLT_VMAIN.NOW = v
      ∧ (s.supply = 1 → t.supply = 0) ∧ t.mem = s.mem ∧ t.ops = s.ops ∧ t.vault.sram = s.vault.sram ∧ t.vault.run = s.vault.run) ∧
    (v < s.vStore → exec (.vstoreFall v) s = .next ((s.vmain v).belowStore)) ∧
    (s.vStore + 20 ≤ v → s.vault.storeRise = none → Ends (.vstoreRise v) s fun t =>
      t.vault = { s.vault with storeRise := some s.uptime } ∧ t.rd Reg.VLT_VMAIN.NOW = v) ∧
    (v < s.vReset → (s.vmain v).supply = 0 ∨ (s.vmain v).supply = 1 → exec (.vresetFall v) s = .next ((s.vmain v).belowStore.lose)) ∧
    (v < s.vReset → (s.vmain v).supply = 2 ∨ (s.vmain v).supply = 3 → exec (.vresetFall v) s = .next ((s.vmain v).lose)) ∧
    (∀ q, s.resumeReady → s.upBlocked = false → s.pf q → s.resetting 7 = false → exec (.vltCmdResume q) s =
      .next (({ s with vault := { s.vault with resumeDue := true } } : State).resume)) ∧
    (s.resumeReady → s.upBlocked = false → s.on Reg.SUP_AUTO_RESUME.ENABLE → exec .computeResume s = .next s.resume)) ∧
  (∀ (s : State) (v : Nat), s.lost → v < 1024 →
    (s.vReset + 20 ≤ v → s.vault.resetRise = none → Ends (.vresetRise v) s fun t =>
      t.vault = { s.vault with onHold := false, resetRise := some s.uptime } ∧ t.rd Reg.VLT_VMAIN.NOW = v) ∧
    (∀ env r, s.vault.resetRise = some r → r + 10000000 ≤ s.uptime → exec (.lostRestart env) s =
      .next (({ s.enterReset false with timeFine := 0 } : State).bootStart { env with strap := env.strap % 4 } true)) ∧
    (s.vault.run = none → Ends .holdDomainOff s fun t =>
      t.vault = { State.reset.vault with shadow := s.vault.shadow, sealOpen := s.vault.sealOpen } ∧ t.supply = 4
        ∧ t.rd Reg.VLT_STORE_CNT.COUNT = s.rd Reg.VLT_STORE_CNT.COUNT ∧ t.fuses = s.fuses))

/-- The hold-up capacitor (R272, R273, R282): the health test and CAP_LOST. Where the spec leaves a choice, the clauses follow log entry 38. -/
def Obligations.HoldUp : Prop :=
∀ s : State,
    (∀ q, s.vltTakes q → exec (.vltCmdHealthTest q) s = .next (({ s with vault := { s.vault with testDue := true, reached := false } } : State).refreshArmed)) ∧
    (s.charges → s.vault.testRunning = false → s.vault.onHold = false →
      (s.vault.testDue = false → exec .vholdFull s = .next ((s.wr Reg.SUP_HOLD_STA.VHOLD 1600).wrb Reg.VLT_STA.CHARGING false)) ∧
      (s.vault.testDue → exec .vholdFull s = .next ((s.wr Reg.SUP_HOLD_STA.VHOLD 1600).wrb Reg.VLT_STA.CHARGING false).dueTest)) ∧
    (∀ cap esr, s.vault.testRunning → Ends (.healthTestDone cap esr) s fun t =>
      t.vault.tested = (decide (1000 ≤ cap) && decide (cap ≤ 10000) && decide (esr ≤ 100)) ∧ t.vault.testRunning = false ∧ t.vault.reached = false
        ∧ t.rd Reg.VLT_CAP.CAP_UF = min cap 65535 ∧ t.rd Reg.VLT_CAP.ESR_MOHM = min esr 65535) ∧
    (s.vault.tested = false → s.vault.testDue = false → s.vault.testRunning = false → s.vault.testRetry = false → s.charges →
      (s.on Reg.CLK_STA.CLAMP_VWARN = false → exec .healthRetest s = .next s.startTest) ∧
      (s.on Reg.CLK_STA.CLAMP_VWARN → exec .healthRetest s = .next { s with vault := { s.vault with testDue := false, testRetry := true } })) ∧
    (s.vault.tested → s.vault.testRunning = false → s.vault.testDue = false → exec .vholdArm s =
      .next (({ s.wr Reg.SUP_HOLD_STA.VHOLD 1440 with vault := { s.vault with reached := true } } : State).refreshArmed.armedInCut)) ∧
    (s.vault.run = none → exec .vholdLow s =
      .next (({ (s.wr Reg.SUP_HOLD_STA.VHOLD 1399).recharge with vault := { s.vault with reached := false } } : State).refreshArmed)) ∧
    (s.on Reg.VLT_STA.CHARGING → s.charges → exec .capLost s = .next s.capLost) ∧
    (∀ d, 1000 < d → s.vholdHeld → exec (.capCheckSink d) s = .next s.capLost) ∧
    (s.on Reg.VLT_STA.CAP_LOST → Ends .chargerResume s fun t =>
      t.vault = { s.vault with testDue := true } ∧ t.on Reg.VLT_STA.CAP_LOST = false
        ∧ t.on Reg.VLT_STA.CHARGING = (!s.on Reg.SUP_HOLD_STA.REVERSED && !s.vault.testRunning && !s.vault.onHold))

/-- Watchdogs and halts (R299-R301): a kick of the clerk itself restarts its watchdog; a kick before MIN, expiry, a refused access and a double
fault halt the clerk. A halted clerk (R300, R301): FWP_STA shows HALTED and the cause, FWP_HALT_TIME the time, and its dump is due; no other clerk's
state changes. -/
def Obligations.ClerkHalts : Prop :=
  (∀ (s : State) (n : Nat), n < 6 → s.clerkUp n →
    (∀ q, q.clerk = some n → (s.clerk n).lastKick + s.rd (Reg.FWP_WD.MIN n) * 1000000 ≤ s.uptime →
      exec (.fwpKick n q) s = .next (s.setClerk n { s.clerk n with lastKick := s.uptime })) ∧
    (∀ q, q.clerk = some n → s.uptime < (s.clerk n).lastKick + s.rd (Reg.FWP_WD.MIN n) * 1000000 →
      exec (.fwpKick n q) s = .next (s.haltClerk n Halt.WD_EARLY 0)) ∧
    ((s.clerk n).lastKick + s.rd (Reg.FWP_WD.MAX n) * 1000000 ≤ s.uptime → exec (.watchdogExpiry n) s = .next (s.haltClerk n Halt.WD_LATE 0)) ∧
    (∀ addr kind, addr < 2 ^ 32 → regionPermits (s.clerk n).regions (s.clerk n).comp addr kind = false →
      exec (.protectionFault n addr kind false) s = .next (s.haltClerk n Halt.PROTECTION addr)) ∧
    exec (.doubleFault n) s = .next (s.haltClerk n Halt.DOUBLE_FAULT 0)) ∧
  (∀ (s : State) (n : Nat), 0 < n → n < 6 → s.clerkUp n → Ends (.doubleFault n) s fun t =>
    t.rd (Reg.FWP_STA.STATE n) = ClerkSt.HALTED ∧ t.rd (Reg.FWP_STA.CAUSE n) = Halt.DOUBLE_FAULT ∧ t.dumps = s.dumps ++ [n]
      ∧ t.rd (Reg.FWP_HALT_TIME.NS n) = s.now ∧ (∀ k, k < 6 → k ≠ n → t.clerk k = s.clerk k ∧ t.clerkSt k = s.clerkSt k)
      ∧ t.fuses = s.fuses ∧ t.mem = s.mem ∧ t.vault = s.vault ∧ t.ops = s.ops)

/-- Dumps, restarts, message ports, the log port and trace points (R298, R302-R304, R324-R329). Where the spec leaves a choice, the clauses follow
log entry 22. -/
def Obligations.ClerkService : Prop :=
∀ (s : State),
    (∀ n rest, s.dumps = n :: rest → exec (.dumpDone n) s = .next ((({ s with dumps := rest } : State).writeDump n).decideRestart n)) ∧
    (∀ n, 0 < n → n < 6 → s.clerkSt n = ClerkSt.RESTARTING → s.secUp → exec (.clerkRestartDone n) s = .next (s.restartClerk n)) ∧
    (∀ n port taken msg runs, n < 6 → s.clerkUp n → ((tblGet [] s.ports port).drop taken).length < 32 → Ends (.portSend n ⟨port, taken, runs⟩ msg) s fun t =>
      tblGet [] t.ports port = (tblGet [] s.ports port).drop taken ++ [((s.clerk n).comp, padTo 64 msg)]
        ∧ (∀ j, j ≠ port → tblGet [] t.ports j = tblGet [] s.ports j)
        ∧ (t.clerk n).comp = (match runs with | some c => 256 * n + c % 256 | none => (s.clerk n).comp)
        ∧ t.rd (Reg.LAST_STATUS.CODE (0x10 + n)) = Code.OK ∧ OnlyRegisters s t) ∧
    (∀ n port taken msg runs, n < 6 → s.clerkUp n → 32 ≤ ((tblGet [] s.ports port).drop taken).length → Ends (.portSend n ⟨port, taken, runs⟩ msg) s fun t =>
      tblGet [] t.ports port = (tblGet [] s.ports port).drop taken ∧ t.clerks = s.clerks
        ∧ t.rd (Reg.LAST_STATUS.CODE (0x10 + n)) = Code.LIMIT ∧ OnlyRegisters s t) ∧
    (∀ n comp level code a b c, n < 6 → s.clerkUp n → level ≤ s.rd (Reg.FWP_LOG_LEVEL.LEVEL n) → comp < 256 → s.logQueue.length < 64 →
      exec (.logAppend n comp level code a b c) s =
        .next { s with logQueue := s.logQueue ++ [⟨s.now, 256 * n + comp, level, code, a, b, c⟩] }) ∧
    (∀ e rest, s.logQueue = e :: rest → s.logLost = 0 → s.headerOk logRegion → Ends .logPortWrite s fun t =>
      t = ({ s with logQueue := rest } : State).ringAppend logRegion e.bytes ∧ t.logQueue = rest ∧ t.logLost = 0
        ∧ t.vault.clean = false ∧ t.regs = s.regs ∧ t.mem = s.mem ∧ t.fuses = s.fuses ∧ t.vault.shadow = s.vault.shadow) ∧
    (∀ id src a b, s.trace.on → id < 256 → bit s.trace.mask id → s.computeOn → Ends (.tracePoint id src a b true) s fun t =>
      t.trace = { s.trace with written := s.trace.written + 1 }) ∧
    (∀ id src a b, s.trace.on → id < 256 → bit s.trace.mask id → s.computeOn → Ends (.tracePoint id src a b false) s fun t =>
      t.trace = { s.trace with dropped := s.trace.dropped + 1 })

/-- Temperatures and current (R344, R347-R352): a sample of the sensors, a readout of a stack, and the releases of the two clamps. PWR's control
cycle and the bandwidth caps (R348, R356-R360): PWR alone writes a cap, from 4 to 16 sixteenths. Where the spec leaves a choice, the clauses follow
log entries 42, 44. -/
def Obligations.ThermalAndPower : Prop :=
  (∀ (s : State), s.stage ≠ Stage.RESET →
    (∀ temps, exec (.thmSample temps) s = .next (s.thmSample temps)) ∧
    (∀ k t, k < 8 → s.stackPresent k → exec (.hbmTempReadout k (some t)) s = .next (s.hbmReadout k (some t))) ∧
    (∀ c, s.coolSince = some c → c + 1000000 ≤ s.uptime → Ends .thermalClampRelease s fun t =>
      t.on Reg.CLK_STA.CLAMP_THERMAL = false ∧ OnlyRegisters s t) ∧
    (∀ c, s.currentHigh = false → s.currentSince = some c → c + 100000 ≤ s.uptime → Ends .currentClampRelease s fun t =>
      t.on Reg.CLK_STA.CLAMP_CURRENT = false ∧ OnlyRegisters s t) ∧
    (∀ a b, a < 2 ^ 16 → b < 2 ^ 16 → a < s.rd Reg.THM_ICC_MAX.A → b < s.rd Reg.THM_ICC_MAX.B → Ends (.iccEstimate a b) s fun t =>
      t.rd Reg.THM_ICC_EST.A = a ∧ t.rd Reg.THM_ICC_EST.B = b ∧ t.iccHigh = (0, 0)) ∧
    (Ends (.alertN true) s fun t => t.alertLow = true ∧ t.on Reg.CLK_STA.CLAMP_CURRENT = true) ∧
    (Ends (.alertN false) s fun t => t.alertLow = false)) ∧
  (∀ (s : State),
    (∀ late stale, s.clerkSt 2 = ClerkSt.RUNNING → exec (.pwrCycle late stale) s = .next (s.pwrCycle late stale)) ∧
    (∀ late stale, s.clerkSt 2 = ClerkSt.ROM → exec (.pwrCycle late stale) s = .next s.romCycle) ∧
    (∀ k cap, k < 8 → s.reqLive .pwr → 4 ≤ cap → cap ≤ 16 → Ends (.hbmCapWrite .pwr k cap) s fun t =>
      t.rd (Reg.THM_HBM_CAP.SIXTEENTHS k) = cap ∧ OnlyRegisters s t) ∧
    (∀ q k cap, k < 8 → s.direct q → q ≠ .pwr → Ends (.hbmCapWrite q k cap) s fun t =>
      t.rd (Reg.THM_HBM_CAP.SIXTEENTHS k) = s.rd (Reg.THM_HBM_CAP.SIXTEENTHS k) ∧ OnlyRegisters s t))

/-- BAR 2 (R376): a read and a write that pass their checks, and one that does not: it is counted and logged, and moves no data. PCIe (R374, R378,
R394, R395, R399): SR-IOV, MSI-X, the link and the device resets. Where the spec leaves a choice, the clauses follow log entry 45. -/
def Obligations.HostPort : Prop :=
  (∀ (s : State) (a off : Nat),
    (∀ n, s.bar2Hit a off n → s.bar2Code a off n false = Code.OK → s.computeOn → exec (.bar2Read a off n) s = .next (s.bar2Read a (s.aperture a off) n)) ∧
    (∀ bytes be, s.bar2Hit a off bytes.length → s.bar2Code a off bytes.length true = Code.OK → s.computeOn →
      exec (.bar2Write a off bytes be) s = .next (s.bar2Write a (s.aperture a off) bytes be)) ∧
    (∀ bytes be, s.bar2Hit a off bytes.length → s.bar2Code a off bytes.length true ≠ Code.OK → Ends (.bar2Write a off bytes be) s fun t =>
      t.rd (Reg.ACT_PERM_CNT.COUNT a) = min (s.rd (Reg.ACT_PERM_CNT.COUNT a) + 1) 0xFFFFFFFF ∧ t.rd Reg.PCX_UR_LOG.FUNCTION = a
        ∧ t.rd Reg.PCX_UR_LOG.CODE = s.bar2Code a off bytes.length true ∧ OnlyRegisters s t)) ∧
  (∀ (s : State),
    (∀ n, s.hostReady → n ≤ 31 → s.on Reg.PCX_VF_STA.VF_ENABLE = false → Ends (.vfEnable n 38 32) s fun t =>
      t.on Reg.PCX_VF_STA.VF_ENABLE ∧ t.rd Reg.PCX_VF_STA.NUM_VFS = n ∧ t.rd Reg.PCX_BAR2.PF_LOG2 = 38 ∧ t.rd Reg.PCX_BAR2.VF_LOG2 = 32 ∧ OnlyRegisters s t) ∧
    (∀ n, s.hostReady → s.on Reg.PCX_VF_STA.VF_ENABLE → n ≤ 31 → exec (.vfDisable n false) s =
      .next ((((((List.range 32).filter fun a => decide (0 < a) && s.fnExists a).foldl State.flrAccount s).wrb Reg.PCX_VF_STA.VF_ENABLE false).wr
        Reg.PCX_VF_STA.NUM_VFS n))) ∧
    (∀ fn v on acc, s.hostReady → s.fnExists fn → v < (if fn = 0 then 2048 else 64) → (acc.any fun x => badAccess x.1 x.2.1 x.2.2) = false →
      exec (.msixUnmask fn v on ⟨false, acc⟩) s = .next (s.msixUnmask fn v false on)) ∧
    (∀ sp w, s.stage ≠ Stage.RESET → s.stage ≠ Stage.HALTED → s.stage ≠ Stage.RECOVERY → 1 ≤ sp → sp ≤ 6 → w ∈ [1, 2, 4, 8, 16] →
      Ends (.pcieLinkUp sp w) s fun t => t.on Reg.PCX_LINK_STA.UP ∧ t.rd Reg.PCX_LINK_STA.SPEED = sp ∧ t.on Reg.PCX_LINK_STA.FLIT = decide (sp = 6)
        ∧ t.rd Reg.PCX_LINK_STA.WIDTH = w ∧ t.on Reg.PCX_LINK_STA.DEGRADED = (decide (sp < 6) || decide (w < 16)) ∧ OnlyRegisters s t) ∧
    (∀ env, s.on Reg.PCX_LINK_STA.UP → s.stage ≠ Stage.HALTED → s.stage ≠ Stage.RECOVERY →
      exec (.linkReset env) s = .next ((s.enterReset false).bootStart { env with strap := s.rd Reg.BOOT_STA.STRAP } false)) ∧
    (∀ q env, s.pf q →
      exec (.deviceReset q (cfOf 1) env) s = .next ((s.enterReset true).bootStart { env with strap := s.rd Reg.BOOT_STA.STRAP } false)) ∧
    (∀ q env v, s.pf q → v ≠ 1 → v < 2 ^ 32 → exec (.deviceReset q (cfOf v) env) s = .next (s.lastStatus 9 Code.FORMAT)) ∧
    (∀ q env v, s.pf q → cfOk v = false → v < 2 ^ 64 → exec (.deviceReset q v env) s = .next (s.raise 9 25)))

/-- The life of an account (R389-R395): enabling, drain, scrub, function-level reset. Where the spec leaves a choice, the clauses follow log entry
46. -/
def Obligations.AccountLife : Prop :=
∀ (s : State) (a : Nat), a < 32 →
    (∀ q, s.pf q → s.on (Reg.CTL.SOFT_RESET (0x40 + a)) = false → s.enableRefusal a = Code.OK →
      exec (.accountEnable q a true) s = .next (s.wrb (Reg.CTL.ENABLE (0x40 + a)) true)) ∧
    (∀ q, s.pf q → s.on (Reg.CTL.SOFT_RESET (0x40 + a)) = false → exec (.accountEnable q a false) s = .next (s.wrb (Reg.CTL.ENABLE (0x40 + a)) false)) ∧
    (s.on (Reg.ACT_STA.DRAINED a) = false → s.oldOps a = [] → s.oldHeld a = 0 → s.oldReqs a = [] →
      exec (.drained a) s = .next ((s.checkEpoch a).drainedNow a)) ∧
    (s.on (Reg.ACT_STA.SCRUBBING a) → s.on (Reg.ACT_STA.DRAINED a) → s.scrubOver a → Ends (.scrubDone a) s fun t =>
      t.on (Reg.ACT_STA.SCRUBBING a) = false ∧ bit (t.rd (Reg.EVT_RAW.RAW (0x40 + a))) 3 ∧ OnlyRegisters s t) ∧
    (s.on (Reg.ACT_STA.FLR a) → exec (.flrDone a) s = .next (s.flrDone a)) ∧
    (0 < a → s.hostReady → s.fnExists a → exec (.flr a) s = .next (s.flrAccount a))

/-- Administration by SVC and FAB (R396, R618). An ACCT_RULES that names a well-formed image (R396): SVC stages it and posts group 3 through slot 1;
the request stays BUSY. -/
def Obligations.Administration : Prop :=
  (∀ (s : State) (a p : Nat) (f : Fetch) (m : Jz) (wr : DmaEnd),
    (s.Asked a p 0x0040 f m → exec (.acctRules a p f wr) s = .next ((s.speak a p f).acctRules a p m wr)) ∧
    (s.Asked a p 0x0041 f m → s.zeroRun = none → (s.speak a p f).hbmZeroCode m.payload = Code.OK → exec (.hbmZero a p f wr) s =
      .next { ((s.speak a p f).busy a p 0x0041 wr) with zeroRun := some (a, p, fieldAt m.payload 0 8, fieldAt m.payload 8 4 * 0x200000) }) ∧
    (∀ t base n, s.zeroRun = some (a, p, base, n) → t = ({ s with zeroRun := none } : State).zeroRange base n →
      (32 ≤ a → exec (.hbmZeroDone wr) s = .next t) ∧
      (a < 32 → exec (.hbmZeroDone wr) s = .next ((t.setPair a p { t.pair a p with wr := wr }).answer a p Code.OK []))) ∧
    (s.Asked a p 0x0060 f m → s.clerkSt 3 = ClerkSt.RUNNING → m.payload = [] → exec (.fabricStatus a p f wr) s =
      .next ((s.speak a p f).reply a p 0x0060 Code.OK (leBytes 4 ((s.speak a p f).rd Reg.XPT_NODE.NODE) ++ (List.range 18).flatMap fun i =>
        (s.speak a p f).regBytes (0x240054 + 0x1000 * i) ++ (s.speak a p f).regBytes (0x240058 + 0x1000 * i)) wr)) ∧
    (s.Asked a p 0x0061 f m → s.clerkSt 3 = ClerkSt.RUNNING → m.payload.length = 8 → (s.speak a p f).role = Role.ROOT →
      (s.speak a p f).on Reg.TSY_STA.TIME_SET = false → (s.speak a p f).postArmed = false → exec (.timeSet a p f wr) s =
      .next ((((({ s.speak a p f with timeFine := fieldAt m.payload 0 8 * 2 ^ 56 } : State).wrb Reg.TSY_STA.TIME_SET true).setSynced true).reply a p
        0x0061 Code.OK [] wr)))) ∧
  (∀ (s : State) (a p : Nat) (m : Jz) (wr : DmaEnd), m.payload.length = 400 → fieldAt m.payload 4 4 < 4 → rulesReservedOk (m.payload.drop 16) →
    fieldAt m.payload 0 4 < 32 → s.postGroup (0x40 + fieldAt m.payload 0 4) = 3 →
    ((s.pagesIn 8).all fun q => q = 0x40 + fieldAt m.payload 0 4 || s.rd (Reg.STAGE_DIRTY.CLUSTER q) = 0) → s.slotBusy 1 = false →
    bit (s.rd Reg.GLB_POST_BUSY.GROUPS) 3 = false →
    s.acctRules a p m wr = (((s.stageRules (fieldAt m.payload 0 4) (m.payload.drop 16)).busy a p m.typ wr).clerkPost .svc 1 8 (bit (fieldAt m.payload 4 4) 0)
      (fieldAt m.payload 8 8) ⟨a, p, true, false, fieldAt m.payload 0 4, bit (fieldAt m.payload 4 4) 1, []⟩))

/-- Group administration by FAB (R634-R637, R669-R671). Where the spec leaves a choice, the clauses follow log entry 56. -/
def Obligations.GroupAdministration : Prop :=
∀ (s : State) (a p : Nat) (f : Fetch) (m : Jz) (wr : DmaEnd), s.clerkSt 3 = ClerkSt.RUNNING →
    (s.Asked a p 0x0070 f m → (s.speak a p f).groupFields a m.payload = Code.OK →
      (s.speak a p f).groupCode (fieldAt m.payload 0 2) ((s.speak a p f).groupDescriptor m.payload) = Code.OK → exec (.groupDefine a p f wr) s =
      .next (({ s.speak a p f with groups := tblSet default (s.speak a p f).groups (fieldAt m.payload 0 2) { (s.speak a p f).group (fieldAt m.payload 0 2) with pending := some ((s.speak a p f).groupDescriptor m.payload) } } : State).reply a p 0x0070 Code.OK
        (leBytes 4 ((s.speak a p f).groupDescriptor m.payload).rank ++ zeros 4) wr)) ∧
    (∀ gs, s.Asked a p 0x0071 f m → m.payload.length = 48 → fieldAt m.payload 0 4 < 2 → 1 ≤ fieldAt m.payload 4 4 → fieldAt m.payload 4 4 ≤ 16 →
      gs = (List.range (fieldAt m.payload 4 4)).map (fun i => fieldAt m.payload (16 + 2 * i) 2) → gs.all ((s.speak a p f).groupAllowed a) →
      (gs.all fun g => ((s.speak a p f).group g).pending.isSome) → (s.speak a p f).postGroup 0x280 = 9 →
      (s.speak a p f).slotBusy 3 = false → bit ((s.speak a p f).rd Reg.GLB_POST_BUSY.GROUPS) 9 = false → exec (.groupPromote a p f wr) s =
      .next ((((s.speak a p f).stagePromotes gs).busy a p 0x0071 wr).clerkPost .fab 3 512 (bit (fieldAt m.payload 0 4) 0) (fieldAt m.payload 8 8)
        ⟨a, p, true, true, 0, false, gs⟩)) ∧
    (∀ g, s.Asked a p 0x0072 f m → m.payload.length = 8 → fieldAt m.payload 2 6 = 0 → fieldAt m.payload 0 2 = g → (s.speak a p f).groupAllowed a g →
      (s.speak a p f).groupInUse g = false → (s.speak a p f).promoting g = false → exec (.groupRelease a p f wr) s =
      .next (({ s.speak a p f with groups := tblSet default (s.speak a p f).groups g default, rosters := (s.speak a p f).rosters.filter fun k => k.group ≠ g } : State).refreshGroups.reply a p 0x0072 Code.OK [] wr)) ∧
    (s.Asked a p 0x0073 f m → m.payload.length = 8 → fieldAt m.payload 2 6 = 0 → (s.speak a p f).groupAllowed a (fieldAt m.payload 0 2) →
      exec (.groupQuery a p f wr) s = .next ((s.speak a p f).groupQuery a p m wr))

/-- Board management frames (R318-R322): a bad frame is answered FORMAT, and a frame not finished in 10 ms is discarded and counted. Board
management reads (R320): status, log, dumps, telemetry, product data and echo; each ends in its reply frame. Where the spec leaves a choice, the
clauses follow log entry 23. -/
def Obligations.BoardManagement : Prop :=
  (∀ (s : State),
    (∀ f good, s.bmcReady → s.bmcRead.bmcFrame = some (f, good) → good = false ∨ frameNeeds f = false →
      exec .bmcBadFrame s = .next ((s.bmcRead.bmcSend (replyFrame false f Code.FORMAT [])).bmcIdle)) ∧
    (∀ w l, s.bmcUp → s.bmcRead.bmc.frame = w :: l → frameWhole (w :: l) = false → exec .frameTimeout s =
      .next { s.bmcRead with bmc := { s.bmcRead.bmc with frame := [], discarded := s.bmcRead.bmc.discarded + (w :: l).length } })) ∧
  (∀ (s : State) (f : Frame),
    (s.Framed 0x01 f → exec .status s = .next (s.bmcRead.bmcReply f Code.OK
      [s.bmcRead.regWord 0x4040, s.bmcRead.regWord 0x3040, s.bmcRead.regWord 0x7040,
        BitVec.ofNat 32 ((List.range 6).foldl (fun a n => a + s.bmcRead.clerkSt n * 16 ^ n) 0), s.bmcRead.regWord Reg.GLB_PART.PART_CODE.key, s.bmcRead.hottest,
        BitVec.ofNat 32 s.bmcRead.bmc.discarded])) ∧
    (∀ t es, s.Framed 0x02 f → t = s.bmcRead.readyHeader logRegion → 1 ≤ f.arg 1 → f.arg 1 ≤ 7 → f.arg 0 + f.arg 1 ≤ t.ringCount logRegion →
      es = ((List.range (f.arg 1)).map fun i => t.ringEntry logRegion (f.arg 0 + i)).filter entryOk → exec .logRead s =
      .next (t.bmcReply f Code.OK ([BitVec.ofNat 32 (t.ringCount logRegion), BitVec.ofNat 32 (t.ptr logRegion 0x20)] ++ toWords (8 * es.length) es.flatten))) ∧
    (s.Framed 0x03 f → f.arg 0 < 8 → 1 ≤ f.arg 2 → f.arg 2 ≤ 59 → f.arg 1 + 4 * f.arg 2 ≤ 0x7FFC0 → f.arg 1 % 4 = 0 → exec .dumpRead s =
      .next ((s.bmcRead.readyHeader (dumpRegion (f.arg 0))).bmcReply f Code.OK
        (BitVec.ofNat 32 ((s.bmcRead.readyHeader (dumpRegion (f.arg 0))).ptr (dumpRegion (f.arg 0)) 0x10) ::
          toWords (f.arg 2) (bytesAt (s.bmcRead.readyHeader (dumpRegion (f.arg 0))).vault.sram ((dumpRegion (f.arg 0)).base + 0x40 + f.arg 1) (4 * f.arg 2))))) ∧
    (s.Framed 0x0B f → exec .telemetry s = .next (s.bmcRead.bmcReply f Code.OK
      ([s.bmcRead.regWord Reg.THM_STA.TJ.key, s.bmcRead.regWord Reg.PWR_LOOP_STA.LEVEL.key, s.bmcRead.regWord Reg.PWR_POWER.W.key,
        s.bmcRead.regWord Reg.THM_PCAP.W.key, s.bmcRead.regWord Reg.CLK_STA.ROOT_LOCK.key, s.bmcRead.regWord Reg.THM_ICC_EST.A.key]
        ++ (List.range 8).map (fun k => s.bmcRead.regWord (Reg.THM_HBM.TEMP k).key) ++ [s.bmcRead.regWord Reg.THM_CNT.HARD.key]))) ∧
    (s.Framed 0x0C f → 1 ≤ f.arg 1 → f.arg 1 ≤ 59 → exec .bmcVpdRead s = .next (s.bmcRead.bmcReply f Code.OK
      (BitVec.ofNat 32 s.bmcRead.vpd.length :: toWords (wordsFor ((s.bmcRead.vpd.drop (f.arg 0)).take (4 * f.arg 1)).length)
        ((s.bmcRead.vpd.drop (f.arg 0)).take (4 * f.arg 1))))) ∧
    (s.Framed 0x0D f → exec .echo s = .next (s.bmcRead.bmcReply f Code.OK f.payload)))

/-- The flash opcodes (R323): with SPX0 free and the select's density known, each runs its transfers and replies. Where the spec leaves a choice,
the clauses follow log entry 24. -/
def Obligations.FlashOpcodes : Prop :=
∀ (s t : State) (f : Frame) (l : FlashLines) (c : List Byte), s.rd (Reg.SPX_PORT_STA.OP 0) = 0 → s.rd (Reg.SPX_XFER_STA.STATE 0) = 0 → f.arg 0 < 4 →
    t = s.bmcRead.flashLearn (f.arg 0) ⟨l, c⟩ →
    (∀ data, s.Framed 0x04 f → 1 ≤ f.arg 2 → f.arg 2 ≤ 60 → t.flashCode (f.arg 0) (f.arg 1) (4 * f.arg 2) (sfdpHas4 (t.sfdpOf (f.arg 0)) 0) = Code.OK →
      (f.arg 1 + 4 * f.arg 2 ≤ 0x1000000 → exec (.flashRead data l c) s =
        .next ((t.flashXfer (f.arg 0) 0x03 1 (f.arg 1) true (4 * f.arg 2) []).bmcReply f Code.OK ((List.range (f.arg 2)).map fun i => data.getD i 0))) ∧
      (f.arg 1 < 0x1000000 → 0x1000000 < f.arg 1 + 4 * f.arg 2 → exec (.flashRead data l c) s =
        .next (((t.flashXfer (f.arg 0) 0x03 1 (f.arg 1) true (0x1000000 - f.arg 1) []).flashXfer (f.arg 0) 0x13 2 0x1000000 true
          (f.arg 1 + 4 * f.arg 2 - 0x1000000) []).bmcReply f Code.OK ((List.range (f.arg 2)).map fun i => data.getD i 0))) ∧
      (0x1000000 ≤ f.arg 1 → exec (.flashRead data l c) s =
        .next ((t.flashXfer (f.arg 0) 0x13 2 (f.arg 1) true (4 * f.arg 2) []).bmcReply f Code.OK ((List.range (f.arg 2)).map fun i => data.getD i 0)))) ∧
    (∀ polls last, s.Framed 0x05 f → 1 ≤ f.arg 2 → f.arg 2 ≤ 59 → t.flashCode (f.arg 0) (f.arg 1) (4 * f.arg 2) (sfdpHas4 (t.sfdpOf (f.arg 0)) 6) = Code.OK →
      f.arg 1 % 256 + 4 * f.arg 2 ≤ 256 → exec (.flashWrite (polls ++ [last]) l c) s =
      .next (t.flashChange f (f.arg 0) (if f.arg 1 < 0x1000000 then 0x02 else 0x12) (f.arg 1) (ofWords (f.payload.drop 3)) (polls.length + 1) last)) ∧
    (∀ polls last cmd, s.Framed 0x06 f → t.flashCode (f.arg 0) (f.arg 1) 0x10000 true = Code.OK → f.arg 1 % 0x10000 = 0 →
      eraseInstr (t.sfdpOf (f.arg 0)) (decide (0x1000000 ≤ f.arg 1)) = some cmd →
      exec (.flashErase polls last l c) s = .next (t.flashChange f (f.arg 0) cmd (f.arg 1) [] polls last))

/-- The registers of a ring page (R409-R411, R432, R439, R441): doorbell, enable, disable, reset, acknowledge and watch. Aborts (R429-R431):
ABORT_ALL, the abort of a sequence, and the end of BUSY. Where the spec leaves a choice, the clauses follow log entry 47. -/
def Obligations.RingControl : Prop :=
  (∀ (s : State) (fn a r : Nat), s.RingTakes fn a r →
    (∀ t, t < 2 ^ 32 → s.acctOn (ringIx a r / 32) → s.ringsBarred = false →
      0 < (t + 2 ^ 32 - s.rd (Reg.RING_TAIL.COUNT (ringIx a r))) % 2 ^ 32 → (t + 2 ^ 32 - s.rd (Reg.RING_TAIL.COUNT (ringIx a r))) % 2 ^ 32 < 2 ^ 31 →
      (t + 2 ^ 32 - s.rd (Reg.RING_HEAD.COUNT (ringIx a r))) % 2 ^ 32 ≤ s.ringSize (ringIx a r) →
      exec (.ringDoorbell fn a r t) s = .next (s.wr (Reg.RING_TAIL.COUNT (ringIx a r)) t)) ∧
    (s.enableCode (ringIx a r) = Code.OK → exec (.ringEnable fn a r) s = .next (s.startRing (ringIx a r))) ∧
    (s.enableCode (ringIx a r) ≠ Code.OK → exec (.ringEnable fn a r) s = .next (s.lastCode (ringIx a r) (s.enableCode (ringIx a r)))) ∧
    (exec (.ringDisable fn a r) s = .next (s.stopRing (ringIx a r))) ∧
    (s.ringSt (ringIx a r) = RingSt.DISABLED ∨ s.ringSt (ringIx a r) = RingSt.FAULT → s.ringOps (ringIx a r) = [] → (s.ringX (ringIx a r)).held = [] → Ends (.ringReset fn a r) s fun t =>
      t.rd (Reg.RING_HEAD.COUNT (ringIx a r)) = 0 ∧ t.rd (Reg.RING_TAIL.COUNT (ringIx a r)) = 0 ∧ t.rd (Reg.RING_CPL_CNT.COUNT (ringIx a r)) = 0
        ∧ t.rd (Reg.RING_CPL_ACK.COUNT (ringIx a r)) = 0 ∧ t.rd (Reg.RING_SEQ_ADM.SEQ (ringIx a r)) = 0 ∧ t.rd (Reg.RING_SEQ_DONE.SEQ (ringIx a r)) = 0
        ∧ t.ringSt (ringIx a r) = RingSt.DISABLED ∧ OnlyRegisters s t) ∧
    (∀ c, c < 2 ^ 32 → exec (.ringCplAck fn a r c) s = .next (s.wr (Reg.RING_CPL_ACK.COUNT (ringIx a r)) c)) ∧
    (∀ t v (on : Bool), t < 2 ^ 18 → (on → s.ownsTally a t) →
      (2 ≤ v % 64 → exec (.ringWatch fn a r t v on) s = .next ((((s.wr (Reg.RING_WATCH.TALLY (ringIx a r)) t).wrb (Reg.RING_WATCH.VALID (ringIx a r))
        on).wr (Reg.RING_WATCH.VECTOR (ringIx a r)) v).fireWatch (ringIx a r))) ∧
      (v % 64 < 2 → exec (.ringWatch fn a r t v on) s = .next (((s.wr (Reg.RING_WATCH.TALLY (ringIx a r)) t).wrb (Reg.RING_WATCH.VALID (ringIx a r))
        on).fireWatch (ringIx a r)))) ∧
    (∀ t v, t < 2 ^ 18 → s.ownsTally a t = false → exec (.ringWatch fn a r t v true) s = .next (s.lastCode (ringIx a r) Code.PERMISSION))) ∧
  (∀ (s : State) (fn a r : Nat), s.RingTakes fn a r → a < 32 →
    (s.on (Reg.RING_ABORT_STA.BUSY (ringIx a r)) = false → exec (.abortAll fn a r) s = .next (s.abortRing (ringIx a r))) ∧
    (∀ seq, seq < 2 ^ 48 → s.on (Reg.RING_ABORT_STA.BUSY (ringIx a r)) = false → exec (.ringAbort fn a r seq) s =
      .next ((((s.wrb (Reg.RING_ABORT_STA.BUSY (ringIx a r)) true).abortSeq (ringIx a r) seq).1.wr (Reg.RING_ABORT_STA.CODE (ringIx a r))
        ((s.wrb (Reg.RING_ABORT_STA.BUSY (ringIx a r)) true).abortSeq (ringIx a r) seq).2).refreshRing (ringIx a r))) ∧
    (s.computeOn → s.on (Reg.RING_ABORT_STA.BUSY (ringIx a r)) → exec (.abortDone a r) s = .next (s.abortDone (ringIx a r))))

/-- Fetch and admission (R412, R416, R425, R433): a descriptor fetched from host or device memory is admitted; a fetch that fails faults the ring.
The end of an op (R421, R422, R428, R434). -/
def Obligations.AdmissionAndEnds : Prop :=
  (∀ (s : State) (a r : Nat) (wr : DmaEnd), a < 32 → r < 32 → s.canFetch (ringIx a r) → s.acctOn (ringIx a r / 32) →
    (∀ bytes, s.on (Reg.RING_BASE.LOC (ringIx a r)) = false → exec (.descriptorAdmit a r (.ok bytes) wr) s = .next (s.admitDescriptor (ringIx a r) bytes wr)) ∧
    (∀ f, s.on (Reg.RING_BASE.LOC (ringIx a r)) → s.linkHolds (s.ringHalf (ringIx a r)) (s.headAddr (ringIx a r)) = false →
      s.ringAccess (ringIx a r) (s.headAddr (ringIx a r)) 128 false = none → exec (.descriptorAdmit a r f wr) s =
      .next ((s.linkAccess (s.ringHalf (ringIx a r)) (s.headAddr (ringIx a r)) 128 true false).admitDescriptor (ringIx a r) (s.load (s.headAddr (ringIx a r)) 128)
        wr)) ∧
    (∀ f, f = .timeout ∨ f = .poison ∨ f = .refused → s.on (Reg.RING_BASE.LOC (ringIx a r)) = false →
      exec (.descriptorAdmit a r f wr) s = .next (s.faultRing (ringIx a r) 1 (fetchCode f)))) ∧
  (∀ (s : State) (a r seq : Nat) (o : Op), s.opAt a r seq = some o →
    (s.computeOn → s.waitOver o → exec (.waitTimeout a r seq) s = .next (s.completeOp { o with code := Code.TIMEOUT } .ok)) ∧
    (s.computeOn → o.phase = .done → s.signalsHeld o = false → exec (.opComplete a r seq) s = .next (s.completeOp o .ok)) ∧
    (∀ how, s.computeOn → how ≠ .ok ∨ s.on (Reg.RING_CPL_BASE.LOC (ringIx a r)) → o.phase = .done → s.signalsHeld o = false →
      exec (.cplWriteFail a r seq how) s = .next (s.completeOp o how)) ∧
    (∀ code, s.computeOn → codeListed code → code < 256 → o.phase = .paused → s.clerkUp (4 + s.opHalf o) →
      (o.abort = false → exec (.exceptionResolve a r seq true code) s = .next ((s.setOp o.run).refreshRing o.u)) ∧
      (code ≠ Code.OK → exec (.exceptionResolve a r seq false code) s = .next (s.cutOp o ⟨code, 0, 15⟩)) ∧
      (code = Code.OK → exec (.exceptionResolve a r seq false code) s = .next (s.endOk o 0))))

/-- Tallies (R436): a 64-bit write of the window adds modulo 2^64 and changes no other tally; a 32-bit write adds nothing. NOP and TALLY_CAS (R415,
R438): the swap happens where the tally holds the expected value, and DETAIL bit 12 tells it. -/
def Obligations.TalliesAndPlainOps : Prop :=
  (∀ (s : State) (fn idx v : Nat), s.fnLive fn → idx < 262144 → v < 2 ^ 64 → (fn = 0 ∨ s.ownsTally fn idx) →
    (Ends (.tallyWrite fn idx 8 v) s fun t =>
      t.tally idx = (s.tally idx + v) % 2 ^ 64 ∧ (∀ j, j ≠ idx → t.tally j = s.tally j) ∧ t.fuses = s.fuses ∧ t.mem = s.mem ∧ t.vault = s.vault ∧ t.ops = s.ops) ∧
    exec (.tallyWrite fn idx 4 v) s = .next (s.raise 0 2)) ∧
  (∀ (s : State) (a r seq : Nat) (o : Op),
    (s.Issues a r seq 0x0001 o → exec (.nop a r seq) s = .next (((s.begun o).endOk o.run 0).refreshRing o.u)) ∧
    (s.Issues a r seq 0x0002 o → ∀ (i old want : Nat) (t u : State), t = s.begun o → i = descAt o.desc 0x40 4 → old = t.tally i → want = descAt o.desc 0x48 8 →
      u = (if tallyHome i = t.opHalf o.run then t else t.linkMessage (tallyHome i)) →
      (tallyHome i = t.opHalf o.run ∨ t.dlkUp → old = want → exec (.tallyCas a r seq) s =
        .next (((u.setTally i (descAt o.desc 0x50 8)).endOp o.run ⟨Code.OK, old, 15⟩ 4096).refreshRing o.u)) ∧
      (tallyHome i = t.opHalf o.run ∨ t.dlkUp → old ≠ want → exec (.tallyCas a r seq) s = .next ((u.endOp o.run ⟨Code.OK, old, 15⟩ 0).refreshRing o.u)) ∧
      (tallyHome i ≠ t.opHalf o.run → t.dlkUp = false → exec (.tallyCas a r seq) s = .next ((t.endCode o.run Code.LINK_NOT_READY).refreshRing o.u))))

/-- The tile ops (R462-R469): one that issues with its extents readable and writable decides its outcome and writes its output. Tiles (R471-R480): a
slice boundary, a scratch error, power requests, the end of a wake, and CTL.ENABLE. Where the spec leaves a choice, the clauses follow log entry 48. -/
def Obligations.TileOpsAndTiles : Prop :=
  (∀ (s : State) (a r seq opcode : Nat) (o : Op), s.Issues a r seq opcode o →
    (s.begunMem o).usesFault ((s.begunMem o).opHalf o.run) ((s.begunMem o).opUses o.run) = none →
    (opcode = 0x0100 → exec (.copy a r seq) s = .next (((((s.begunMem o).tileCopy o.run).st.decideOp o.run passed 0)).refreshRing o.u)) ∧
    (opcode = 0x0101 → exec (.fill a r seq) s = .next (((((s.begunMem o).tileFill o.run).st.decideOp o.run passed 0)).refreshRing o.u)) ∧
    (opcode = 0x0102 → exec (.quantise a r seq) s = .next (((((s.begunMem o).tileQuantise o.run).st.decideOp o.run
      ((s.begunMem o).tileQuantise o.run).fail ((s.begunMem o).tileQuantise o.run).detail)).refreshRing o.u)) ∧
    (opcode = 0x0103 → exec (.gather a r seq) s = .next (((((s.begunMem o).tileGather o.run).st.decideOp o.run
      ((s.begunMem o).tileGather o.run).fail ((s.begunMem o).tileGather o.run).detail)).refreshRing o.u)) ∧
    (opcode = 0x0110 → exec (.gemm a r seq) s = .next (((((s.begunMem o).tileGemm o.run).st.decideOp o.run
      ((s.begunMem o).tileGemm o.run).fail ((s.begunMem o).tileGemm o.run).detail)).refreshRing o.u)) ∧
    (opcode = 0x0120 → exec (.eltwise a r seq) s = .next (((((s.begunMem o).tileEltwise o.run).st.decideOp o.run
      ((s.begunMem o).tileEltwise o.run).fail ((s.begunMem o).tileEltwise o.run).detail)).refreshRing o.u)) ∧
    (opcode = 0x0130 → exec (.norm a r seq) s = .next (((((s.begunMem o).tileNorm o.run).st.decideOp o.run
      ((s.begunMem o).tileNorm o.run).fail ((s.begunMem o).tileNorm o.run).detail)).refreshRing o.u)) ∧
    (opcode = 0x0131 → exec (.softmax a r seq) s = .next (((((s.begunMem o).tileSoftmax o.run).st.decideOp o.run
      ((s.begunMem o).tileSoftmax o.run).fail ((s.begunMem o).tileSoftmax o.run).detail)).refreshRing o.u))) ∧
  (∀ (s : State) (i : Nat), i < 48 →
    (∀ exc, s.computeOn → s.tileWaits i = false → exec (.sliceBoundary i exc) s = .next (s.sliceBoundary i exc)) ∧
    (s.computeOn → s.on (Reg.STA.FAULT (0x100 + i)) = false → exec (.tileScratchError i) s = .next (s.scratchError i)) ∧
    (∀ q v, s.pf q → v < 3 → s.on (Reg.TIL_STA.URGENT_ONLY i) = false → exec (.tilePwrReq q i v) s = .next ((s.wr (Reg.TIL_PWR_REQ.REQ i) v).tileSettle i)) ∧
    (s.rd (Reg.TIL_STA.STATE i) = 3 → exec (.tileWakeDone i) s = .next (((s.wr (Reg.TIL_STA.STATE i) 0).raise (0x100 + i) 0).tileSettle i)) ∧
    (∀ q on, s.pf q → s.resetting (0x100 + i) = false → s.on (Reg.STA.FAULT (0x100 + i)) = false →
      exec (.tileEnable q i on) s = .next ((s.wrb (Reg.CTL.ENABLE (0x100 + i)) on).tileSettle i)))

/-- Accesses of HBM lines (R493, R496-R498): a clean read returns the line; a whole write replaces it and clears its poison; a partial write changes
the enabled bytes; a poisoned line gives POISON and stays poisoned. HBM stacks (R487-R491, R502): retries and retrains, faults, refresh, scrub, the
on-die counter. Where the spec leaves a choice, the clauses follow log entry 50. -/
def Obligations.HbmAccesses : Prop :=
  (∀ (s : State) (a src acct k : Nat), s.computeOn → s.stackAt a = some k → s.stackFaulted k = false → s.stackBusy a = false →
    (s.poisoned (a / 64 * 64) = false → exec (.hbmRead a src acct 0) s = .next (s.emit (.memData (a / 64 * 64) (s.load (a / 64 * 64) 64)))) ∧
    (∀ bs, exec (.hbmFullWrite a bs) s = .next ((s.store (a / 64 * 64) (padTo 64 bs)).setPoison (a / 64 * 64) false)) ∧
    (∀ bs be, s.poisoned (a / 64 * 64) = false → exec (.hbmPartialWrite a src acct 0 bs be) s =
      .next { s with mem := storeMasked s.mem (a / 64 * 64) (bs.take 64) be }) ∧
    (∀ e, s.poisoned (a / 64 * 64) → Ends (.hbmRead a src acct e) s fun t =>
      Out.memFail (a / 64 * 64) Code.POISON ∈ t.out ∧ t.mem = s.mem ∧ t.poisonLine = s.poisonLine
        ∧ t.rd (Reg.HMC_POISON_CNT.READS k) = min (s.rd (Reg.HMC_POISON_CNT.READS k) + 1) 0xFFFF)) ∧
  (∀ (s : State) (k : Nat), s.stackPresent k → s.computeOn →
    (∀ tries, tries < 3 → s.stackFaulted k = false → s.on (Reg.HMC_STA.RETRAINING k) = false →
      exec (.hbmXferRetry k tries) s = .next (s.count (Reg.HMC_XFER_CNT.RETRIES k) 1)) ∧
    (∀ tries, 3 ≤ tries → s.stackFaulted k = false → s.on (Reg.HMC_STA.RETRAINING k) = false →
      exec (.hbmXferRetry k tries) s = .next (((s.wrb (Reg.HMC_STA.RETRAINING k) true).count (Reg.HMC_XFER_CNT.RETRAINS k) 1).raise (0x180 + k) 2)) ∧
    (s.on (Reg.HMC_STA.RETRAINING k) → exec (.hbmRetrainDone k true) s = .next ((s.wrb (Reg.HMC_STA.RETRAINING k) false).releaseHbm k)) ∧
    (s.on (Reg.HMC_STA.RETRAINING k) → exec (.hbmRetrainDone k false) s = .next ((s.faultStack k 2).releaseHbm k)) ∧
    (s.stackFaulted k = false → exec (.stackFault k) s = .next ((s.faultStack k 3).releaseHbm k)) ∧
    (exec (.hbmRefresh k) s = .next s) ∧
    (∀ n, s.stackFaulted k = false → exec (.odeccPoll k n) s = .next (s.countWrap (Reg.HMC_ODECC.COUNT k) n)) ∧
    (s.stackFaulted k = false → s.on (Reg.HMC_STA.RETRAINING k) = false → s.rd (Reg.HMC_SCRUB_CFG.PERIOD_H k) ≠ 0 →
      s.poisoned (s.scrubAddr k (tblGet 0 s.scrubPos k)) = false → tblGet 0 s.scrubPos k + 1 < stackLines →
      exec (.scrubLine k 0) s = .next (({ s with scrubPos := tblSet 0 s.scrubPos k (tblGet 0 s.scrubPos k + 1) } : State).wr (Reg.HMC_SCRUB_STA.PERMILLE k)
        ((tblGet 0 s.scrubPos k + 1) * 1000 / stackLines))))

/-- Bank words and bank power (R508-R510): a word of a bank that is ON, a bank that an access wakes, requests and the states they reach. Where the
spec leaves a choice, the clauses follow log entry 50. -/
def Obligations.BanksAndPower : Prop :=
∀ (s : State) (h b : Nat), h < 2 → b < 48 → s.computeOn →
    (∀ a o src acct bs, placeOf a = .bank h b o → s.bankFaulted h b = false → (s.isSecure h b && s.on (Reg.BNK_TAMPER.LATCHED h)) = false →
      s.bankWiping h b = false → s.bankOffline h b = false → s.bankSta h b = 0 →
      exec (.bankAccess h a src acct 0 (some (bs, List.replicate 8 true))) s = .next ((s.store (a / 8 * 8) (padTo 8 bs)).setPoison (a / 8 * 8) false)) ∧
    (∀ a o src acct, placeOf a = .bank h b o → s.bankFaulted h b = false → (s.isSecure h b && s.on (Reg.BNK_TAMPER.LATCHED h)) = false →
      s.bankWiping h b = false → s.bankOffline h b = false → s.bankSta h b = 0 → s.poisoned (a / 8 * 8) = false →
      exec (.bankAccess h a src acct 0 none) s = .next (s.emit (.memData (a / 8 * 8) (s.load (a / 8 * 8) 8)))) ∧
    (∀ q i v, s.direct q → i < 3 → exec (.bankPwrReq q h i v) s = .next (s.bankPwrReq h i v)) ∧
    (s.bankReq h b ≠ 0 → s.bankSta h b = 0 → tblGet false s.woken (48 * h + b) = false → (s.bankWait.any fun x => x.isFor h b) = false →
      exec (.bankPwrReached h b) s = .next (s.setBankSta h b (s.bankReq h b))) ∧
    (s.bankSta h b = 3 → exec (.bankWakeDone h b) s = .next ((s.bankOn h b).releaseBank h b)) ∧
    (tblGet false s.woken (48 * h + b) = true → s.bankSta h b = 0 → exec (.bankIdleReturn h b) s =
      .next (({ s with woken := tblSet false s.woken (48 * h + b) false } : State).setBankSta h b (s.bankReq h b))) ∧
    (∀ q m, s.direct q → exec (.bankOfflineReq q h m) s = .next ((s.wr (Reg.BNK_OFFLINE_REQ.MASK h) m).returnBanks h)) ∧
    (bit (s.rd (Reg.BNK_OFFLINE_REQ.MASK h)) b → s.bankOffline h b = false → (s.bankWait.any fun x => x.isFor h b) = false →
      exec (.bankOffline h b) s = .next ((s.wr (Reg.BNK_OFFLINE.MASK h) (setBit (s.rd (Reg.BNK_OFFLINE.MASK h)) b true)).raise (0x140 + h) 7))

/-- The error FIFO and the repair log (R504, R523): a read removes the oldest entry. Wipes and the march test (R513-R516, R522): tamper and a supply
glitch wipe the secure banks of both halves. Where the spec leaves a choice, the clauses follow log entry 51. -/
def Obligations.WipesTestsAndLogs : Prop :=
  (∀ (s : State),
    (∀ pg e rest, (0x180 ≤ pg ∧ pg < 0x188) ∨ pg = 0x140 ∨ pg = 0x141 → s.pageAbsent pg = false → tblGet [] s.errFifo pg = e :: rest →
      Ends (.errEntryRead pg 8) s fun t => tblGet [] t.errFifo pg = rest ∧ (∃ off, t.out = .regRead off e.toNat :: s.out) ∧ OnlyRegisters s t) ∧
    (∀ h e rest, h < 2 → e < 2 ^ 32 → tblGet [] s.mteLog h = e :: rest → Ends (.repairLogRead h 8) s fun t =>
      tblGet [] t.mteLog h = rest ∧ t.out = .regRead (0x142050 + 0x1000 * h) (e + 2 ^ 63) :: s.out ∧ t.regs = s.regs ∧ OnlyRegisters s t) ∧
    (∀ h, h < 2 → tblGet [] s.mteLog h = [] → exec (.repairLogRead h 8) s = .next (s.emit (.regRead (0x142050 + 0x1000 * h) 0)))) ∧
  (∀ (s : State) (h : Nat), h < 2 →
    (Ends .tamper s fun t => t.on (Reg.BNK_TAMPER.LATCHED 0) ∧ t.on (Reg.BNK_TAMPER.LATCHED 1) ∧ t.on (Reg.BNK_TAMPER.LEVEL 0) = false
      ∧ t.on (Reg.BNK_TAMPER.LEVEL 1) = false ∧ t.fuses = s.fuses ∧ t.vault = s.vault ∧ t.tallies = s.tallies) ∧
    (exec (.supplyGlitch h) s = .next ((((s.wipeSecure).count (Reg.BNK_TAMPER.GLITCH_V h) 1).raise (0x140 + h) 3).logSec Level.ERROR SecLog.TAMPER 1 h 0)) ∧
    (∀ bad, s.wiping h ≠ 0 → exec (.wipeDone h bad) s = .next (s.wipeDone h bad)) ∧
    (∀ q v, s.pf q ∨ q = .sec → s.reqLive q → s.resetting (0x142 + h) = false →
      (bit v 31 = false → exec (.mteStart q h v) s = .next (s.mteFields h v)) ∧
      (s.rd (Reg.MTE_STA.STATE h) ≠ 1 → bit v 31 → (s.mteFields h v).mteRefusal h (bits v 0 2) (bits v 8 6) (bit v 16) = Code.OK →
        Ends (.mteStart q h v) s fun t =>
        t.rd (Reg.MTE_STA.STATE h) = 1 ∧ t.rd (Reg.MTE_STA.CODE h) = 0 ∧ tblGet [] t.mteLog h = [] ∧ OnlyRegisters s t) ∧
      (s.rd (Reg.MTE_STA.STATE h) = 1 → bit v 31 → exec (.mteStart q h v) s = .next ((((s.mteFields h v).wr (Reg.MTE_STA.CODE h) Code.LIMIT).lastStatus
        (0x142 + h) Code.LIMIT).raise (0x142 + h) 2))) ∧
    (∀ rows free words log, s.computeOn → s.rd (Reg.MTE_STA.STATE h) = 1 → exec (.mteDone h rows free words log) s = .next (s.mteDone h rows free words log)))

/-- Folio ops (R540-R567): one that issues with no op before it that excludes it runs; one that waited runs when nothing excludes it any more.
Partial attention and FOL_QUERY (R565, R566, R568): a request that fails its checks is refused and counted; a response answers the run whose request
it names; a clerk or the PF reads a folio's registers. Where the spec leaves a choice, the clauses follow log entry 52. -/
def Obligations.FolioOps : Prop :=
  (∀ (s : State) (a r seq opcode : Nat) (o : Op),
    (s.Issues a r seq opcode o → (s.begunMem o).folioBlocked o.run (s.begunMem o).ops = false →
      (opcode = 0x0200 → exec (.folioOpen a r seq) s = .next (((s.begunMem o).folioOpen o.run).refreshRing o.u)) ∧
      (opcode = 0x0201 → exec (.folioClose a r seq) s = .next (((s.begunMem o).folioClose o.run).refreshRing o.u)) ∧
      (opcode = 0x0202 → exec (.appendKv a r seq) s = .next (((s.begunMem o).appendKv o.run).refreshRing o.u)) ∧
      (opcode = 0x0203 → exec (.attend a r seq) s = .next (((s.begunMem o).attend o.run).refreshRing o.u)) ∧
      (opcode = 0x0204 → exec (.folioLink a r seq) s = .next (((s.begunMem o).folioLink o.run).refreshRing o.u))) ∧
    (s.opAt a r seq = some o → s.computeOn → o.phase = .held → s.folioBlocked o (s.ops.takeWhile fun x => !x.is o.acct o.ring o.seq) = false →
      ((s.opUses o).any fun u => s.extentBusy (s.opHalf o) u.opd) = false →
      (o.opcode = 0x0200 → exec (.folioOpUnblock a r seq) s = .next (((s.setOp o.run).folioOpen o.run).refreshRing o.u)) ∧
      (o.opcode = 0x0201 → exec (.folioOpUnblock a r seq) s = .next (((s.setOp o.run).folioClose o.run).refreshRing o.u)) ∧
      (o.opcode = 0x0202 → exec (.folioOpUnblock a r seq) s = .next (((s.setOp o.run).appendKv o.run).refreshRing o.u)) ∧
      (o.opcode = 0x0203 → exec (.folioOpUnblock a r seq) s = .next (((s.setOp o.run).attend o.run).refreshRing o.u)) ∧
      (o.opcode = 0x0204 → exec (.folioOpUnblock a r seq) s = .next (((s.setOp o.run).folioLink o.run).refreshRing o.u)))) ∧
  (∀ (s : State), s.computeOn →
    (∀ (m : PartReq) (p : PartRsp) (half : Nat) (t : State) (r : FabMsg), m.peer → m.ref < 1024 → half = m.ref / 512 → p = s.servePart m →
      t = (s.countWrap (Reg.FOL_PART_RX.COUNT half) 1).noteFault (p.code, p.info) false Source.FABRIC (s.folio m.ref).acct →
      r = { fabMsg m.srcNode 6 Kind.PART_RSP (s.folio m.ref).acct 0 (partRspBytes p) none with
          status := p.code, reqSeq := m.reqSeq, value := p.info, half := some half } →
      (p.code = Code.OK → exec (.partReq m) s = .next (t.sendMsg r)) ∧
      (p.code ≠ Code.OK → exec (.partReq m) s = .next (((t.count (Reg.FOL_REFUSED.COUNT half) 1).raise (0x1C0 + half) 2).sendMsg r))) ∧
    (∀ n m, (s.requests.any fun r => r.chan = 1 && r.seq = n && s.rspHeld r) = false → exec (.partRsp n m) s = .next (s.partRsp n m)) ∧
    (∀ q h v, s.direct q → h < 2 → exec (.folQuery q h v) s = .next (s.folQuery h v)))

/-- Fabric transfers (R606, R607, R612): one that issues with its extents readable runs in the transport. Whole messages at their target, and
responses at their requester (R607-R613). Where the spec leaves a choice, the clauses follow log entry 54. -/
def Obligations.FabricMessages : Prop :=
  (∀ (s : State) (a r seq : Nat) (o : Op),
    (s.Issues a r seq 0x0300 o → exec (.fabWrite a r seq) s = .next (((s.begunMem o).fabWrite o.run).refreshRing o.u)) ∧
    (s.Issues a r seq 0x0301 o → exec (.fabRead a r seq) s = .next (((s.begunMem o).fabRead o.run).refreshRing o.u))) ∧
  (∀ (s t : State) (src first : Nat) (m : RxMsg), s.computeOn →
    (s.takeMsg Kind.WRITE src first = some (m, t) → exec (.write src first) s = .next (t.writeWhole m)) ∧
    (s.takeMsg Kind.READ_REQ src first = some (m, t) → s.readHeld m = false → exec (.readReq src first) s = .next (t.readWhole m)) ∧
    (∀ q u, s.takeMsg Kind.READ_RSP src first = some (m, t) → t.takeRequest m = some (q, u) → s.rspHeld q = false → exec (.readRsp src first) s = .next (u.readDone q m)) ∧
    (s.takeMsg Kind.READ_RSP src first = some (m, t) → t.takeRequest m = none → exec (.readRsp src first) s = .next t.lateResponse) ∧
    (∀ q u, s.takeMsg Kind.WRITE_DONE src first = some (m, t) → t.takeRequest m = some (q, u) → exec (.writeDone src first) s = .next (u.writeEnded q m)) ∧
    (s.clerkUp 3 → s.takeMsg Kind.CONTROL src first = some (m, t) → exec (.control src first) s = .next t) ∧
    (∀ (a r seq : Nat) (q : FabReq), s.queuedOf (a, r, seq) = [] → s.requests = [q] → q.owner = (a, r, seq) → q.entered + s.reqTimeout ≤ s.uptime →
      exec (.fabricReqTimeout a r seq) s = .next ((((({ s with requests := [] } : State).count Reg.XPT_TIMEOUT.COUNT 1).raise 0x260 0).failOwner (a, r, seq) q.tag
        Code.PEER_LOST (peerInfo q.dst q.port) q.retx))))

/-- Ports (R581-R589): CTL.ENABLE, RETRAIN, and what training, lanes, signals and their limits do. Mesh verification (R588, R589): HELLOs that come,
go and stay away. Where the spec leaves a choice, the clauses follow log entry 53. -/
def Obligations.FabricPorts : Prop :=
  (∀ (s : State) (p : Nat), s.portPresent p → s.computeOn →
    (∀ q, s.direct q → s.resetting (0x240 + p) = false → s.portSt p ≠ PortSt.DISABLED →
      exec (.portEnable q p) s = .next (s.wrb (Reg.CTL.ENABLE (0x240 + p)) true)) ∧
    (∀ q, s.direct q → s.resetting (0x240 + p) = false → s.portSt p = PortSt.DISABLED →
      exec (.portEnable q p) s = .next ((s.wrb (Reg.CTL.ENABLE (0x240 + p)) true).trainMax p)) ∧
    (∀ q, s.direct q → s.resetting (0x240 + p) = false →
      exec (.portDisable q p) s = .next ((s.wrb (Reg.CTL.ENABLE (0x240 + p)) false).portGo p PortSt.DISABLED 0)) ∧
    (∀ q, s.direct q → s.portSt p ≠ PortSt.DISABLED → exec (.portRetrain q p) s = .next (s.trainMax p)) ∧
    (s.portSt p = PortSt.TRAINING → s.bringUpWaits = false → (∀ ok inv, exec (.trainingDone p ok inv) s = .next (s.trainingDone p ok inv)) ∧
      exec (.trainingTimeout p true) s = .next (s.portGo p PortSt.DOWN PortCause.NO_SIGNAL) ∧
      exec (.trainingTimeout p false) s = .next (s.portGo p PortSt.DOWN PortCause.TRAIN_FAIL)) ∧
    (s.portSt p = PortSt.UP → (∀ l, exec (.laneFail p l) s = .next (s.laneFail p l)) ∧ exec (.adaptStart p) s = .next (s.portGo p PortSt.ADAPTING 0) ∧
      exec (.partnerRetrain p) s = .next (s.trainMax p) ∧ exec (.lossOfSignal p) s = .next (s.portGo p PortSt.DOWN PortCause.NO_SIGNAL)) ∧
    (s.portSt p = PortSt.ADAPTING → exec (.adaptDone p) s = .next (s.portGo p PortSt.UP 0)) ∧
    (s.portSt p = PortSt.DOWN → exec (.signalDetect p) s = .next (s.trainMax p) ∧
      ((s.fport p).downAt + 1000000000 ≤ s.uptime → exec (.downRetry p) s = .next (s.trainMax p)))) ∧
  (∀ (s : State) (p : Nat) (h : Hello), s.portPresent p → s.computeOn → s.isMesh p →
    (s.portSt p = PortSt.VERIFY → s.bringUpWaits = false → exec (.fabricHello p h) s = .next (s.hello p h)) ∧
    (s.portSt p = PortSt.UP → exec (.helloTimer p) s = .next (s.sendFrame p Frame.HELLO (b2n ((s.fport p).selfOk)) 0)) ∧
    (s.portSt p = PortSt.UP → (s.fport p).heard + 1000000000 ≤ s.uptime →
      exec (.helloTimeout p) s = .next (s.portGo p PortSt.MISWIRED PortCause.NO_HELLO)))

/-- Links, packets and acknowledgements (R590, R597-R605). A packet that fails a check of R597 is dropped: XPT_DROPPED counts it, and no stream,
message or memory changes. Where the spec leaves a choice, the clauses follow log entry 53. -/
def Obligations.FabricTransport : Prop :=
  (∀ (s : State) (p : Nat), s.portPresent p → s.computeOn →
    (exec (.linkWaitExpiry p) s = .next (s.failQueued fun m => m.port = p && (s.linkCuts m.half p || (!s.portUp p && decide (s.holdUntil m ≤ s.uptime))))) ∧
    (∀ m, s.portUp p → s.nextGrant p = some m → exec (.fabricGrant p) s = .next (s.grant m)) ∧
    (∀ k : Packet, k.chan < 7 → s.portSt p = PortSt.UP → exec (.fabricData p k) s = .next (s.packet p k)) ∧
    (∀ n c q, exec (.fabricAck n c q) s = .next (s.advanceTx n c q)) ∧
    (∀ n c q, exec (.fabricNack n c q) s = .next ((s.advanceTx n c q).resend n c)) ∧
    (∀ n c, 0 < (s.rx n c).unacked → exec (.ackTimer n c) s = .next (s.sendAck (s.routePort n c) n c)) ∧
    (∀ n c, exec (.rtoExpiry n c) s = .next (s.resend n c)) ∧
    (∀ prio quanta, prio < 8 → bit (s.rd (Reg.FPT_PFC.PRIO_EN p)) prio → 0 < quanta →
      exec (.pfcPause p prio quanta) s = .next ((s.count (Reg.FPT_PFC_CNT.RX p) 1).setPaused p prio true)) ∧
    (∀ prio, prio < 8 → exec (.pfcPauseExpiry p prio) s = .next (s.setPaused p prio false))) ∧
  (∀ (s : State) (p : Nat) (k : Packet), p < 18 → s.portPresent p → s.computeOn → s.portSt p = PortSt.UP → k.chan < 7 → s.packetDropped p k → Ends (.fabricData p k) s fun t =>
    t.rd Reg.XPT_DROPPED.COUNT = min (s.rd Reg.XPT_DROPPED.COUNT + 1) 0xFFFFFFFF ∧ t.rxStreams = s.rxStreams ∧ t.txStreams = s.txStreams ∧ t.inbox = s.inbox
      ∧ t.sessions = s.sessions ∧ t.out = s.out ∧ OnlyRegisters s t)

/-- Global time (R614-R617): Sync, Pdelay and Announce on a node with a master, the loss of Syncs, and FAB's step and rate. Where the spec leaves a
choice, the clauses follow log entry 55. -/
def Obligations.GlobalTime : Prop :=
∀ (s : State),
    (∀ off, s.slaved → exec (.sync off) s = .next (s.syncOffset off)) ∧
    (∀ d, s.slaved → d < 2 ^ 32 → exec (.pdelay d) s = .next (s.wr Reg.TSY_DELAY.DELAY d)) ∧
    (s.slaved → exec (.announce true) s = .next (s.wrb Reg.TSY_STA.MASTER_SYNCED true)) ∧
    (s.slaved → exec (.announce false) s = .next ((s.wrb Reg.TSY_STA.MASTER_SYNCED false).setSynced false)) ∧
    (s.role ≠ Role.ROOT → Ends .syncMiss s fun t => t.on Reg.TSY_STA.SYNCED = false ∧ t.on Reg.TSY_STA.HOLDOVER ∧ t.goodOffsets = 0
      ∧ t.rd Reg.TSY_CNT.SYNC_MISS = min (s.rd Reg.TSY_CNT.SYNC_MISS + 8) 0xFFFF ∧ t.timeFine = s.timeFine ∧ OnlyRegisters s t) ∧
    (∀ p, s.portPresent p → s.computeOn → s.portUp p → s.masterPort p → exec (.syncTimer p false) s = .next (s.sendFrame p Frame.SYNC s.now 0)) ∧
    (∀ ns : Int, s.reqLive .fab → s.everSynced = false → exec (.tsyStep .fab ns) s = .next ((s.stepTime ns).wrb Reg.TSY_STA.TIME_SET true)) ∧
    (∀ ns : Int, s.reqLive .fab → s.everSynced → ns < 0 → exec (.tsyStep .fab ns) s = .next s) ∧
    (∀ rate : Int, s.reqLive .fab → rate.natAbs ≤ 549755813 → exec (.tsyRate .fab rate) s = .next (s.wr Reg.TSY_RATE.RATE (rate % 2 ^ 32).toNat))

/-- Collective and MINT ops (R642, R643, R690): one that issues while its group has an issue slot starts its step; one that waited starts when a
slot comes free. COLL messages (R665-R668): one that passes the checks of R666 reaches its step; one that fails a check is answered with an ERROR.
Rosters and timeouts of steps (R656, R657, R660, R667). Where the spec leaves a choice, the clauses follow log entries 40, 41, 56. -/
def Obligations.Collectives : Prop :=
  (∀ (s : State) (a r seq opcode : Nat) (o : Op),
    (s.Issues a r seq opcode o → (s.begunMem o).groupFull o.run (s.begunMem o).ops = false →
      (opcode = 0x0400 → exec (.allReduce a r seq) s = .next (((s.begunMem o).collStart o.run).refreshRing o.u)) ∧
      (opcode = 0x0401 → exec (.reduceScatter a r seq) s = .next (((s.begunMem o).collStart o.run).refreshRing o.u)) ∧
      (opcode = 0x0402 → exec (.allGather a r seq) s = .next (((s.begunMem o).collStart o.run).refreshRing o.u)) ∧
      (opcode = 0x0403 → exec (.broadcast a r seq) s = .next (((s.begunMem o).collStart o.run).refreshRing o.u)) ∧
      (opcode = 0x0404 → exec (.allToAll a r seq) s = .next (((s.begunMem o).collStart o.run).refreshRing o.u)) ∧
      (opcode = 0x0500 → exec (.mint a r seq) s = .next (((s.begunMem o).collStart o.run).refreshRing o.u))) ∧
    (s.opAt a r seq = some o → o.phase = .held → o.group.isSome → s.groupFull o (s.ops.takeWhile fun x => !x.is o.acct o.ring o.seq) = false → s.computeOn →
      exec (.collIssueUnblock a r seq) s = .next (((s.setOp o.run).collStart o.run).refreshRing o.u))) ∧
  (∀ (s : State) (m : CollMsg) (n : Nat), s.computeOn →
    (∀ st, s.collCheck m = Code.OK → s.collStepOf m = some st →
      (m.stage = Stage.READY → exec (.collReady m) s = .next ((s.collTake st m 0 s.uptime).collSettle)) ∧
      (m.stage = Stage.ROSTER → exec (.collRoster m) s = .next ((s.collTake st m 0 s.uptime).collSettle)) ∧
      (m.stage = Stage.EXP → exec (.collExp m) s = .next ((s.collTake st m 0 s.uptime).collSettle)) ∧
      (m.stage = Stage.DATA → exec (.collData m n) s = .next ((s.collTake st m n s.uptime).collSettle)) ∧
      (m.stage = Stage.CLOSE → exec (.collClose m n) s = .next ((s.collTake st m n s.uptime).collSettle)) ∧
      (m.stage = Stage.ERROR → exec (.collError m) s = .next ((s.collTake st m 0 s.uptime).collSettle))) ∧
    (m.stage = Stage.DATA → s.collCheck m ≠ Code.OK → exec (.collData m n) s = .next (s.collAnswer m (s.collCheck m)))) ∧
  (∀ (s : State) (a r seq : Nat) (st : CollStep),
    (s.stepAt a r seq = some st → s.computeOn → exec (.rosterDecide a r seq) s = .next ((s.collDecide st).collSettle)) ∧
    (s.stepAt a r seq = some st → s.computeOn → st.issued + st.ver.timeout * 1000000 ≤ s.uptime →
      exec (.collTimeout a r seq) s = .next (s.collFail st Code.TIMEOUT 0)) ∧
    (∀ m at_ rf v, s.early = [(m, at_, rf)] → s.msgVersion m = some v → at_ + v.timeout * 1000000 ≤ s.uptime →
      exec (.earlyArrivalExpiry (m.group % 2)) s = .next ({ s with early := [] } : State).refreshEarly) ∧
    (∀ k d, s.rosters = [k] → k.doneAt = some d → d + k.timeout * 1000000 ≤ s.uptime →
      exec (.rosterRetentionExpiry k.group k.epoch k.step) s = .next { s with rosters := [] }))

/-- The ops that end a step (R722-R741): STEP_CLOSE, UPDATE, MIRROR and its restore, COMMIT, and the entry SVC writes. Where the spec leaves a
choice, the clauses follow log entries 43, 57. -/
def Obligations.StepOps : Prop :=
∀ (s : State) (a r seq : Nat) (o : Op),
    (s.Issues a r seq 0x0601 o → exec (.stepClose a r seq) s = .next (((s.begunMem o).stepClose o.run).refreshRing o.u)) ∧
    (s.Issues a r seq 0x0600 o → exec (.update a r seq) s = .next (((s.begunMem o).update o.run).refreshRing o.u)) ∧
    (s.Issues a r seq 0x0602 o → bit (descAt o.desc 0x58 1) 0 = false → exec (.mirror a r seq) s = .next (((s.begunMem o).mirror o.run).refreshRing o.u)) ∧
    (s.Issues a r seq 0x0602 o → bit (descAt o.desc 0x58 1) 0 = true →
      exec (.mirrorRestore a r seq) s = .next (((s.begunMem o).mirrorRestore o.run).refreshRing o.u)) ∧
    (s.Issues a r seq 0x0603 o → exec (.commit a r seq) s = .next (((s.begunMem o).commitOp o.run).refreshRing o.u)) ∧
    (∀ c rest, s.commits = c :: rest → s.svcUp → exec .commitWrite s = .next (s.writeCommit c))
end

