-- ==== Sys2Proof/Laws/Issue.lean ====
section
/-!
SUPPORT. What issuing an op does: the op runs in the state that counts it, and its ring's registers follow.
-/
namespace Sys2Proof.Machine

theorem State.issue_of_issues {s : State} {a r seq opcode : Nat} {o : Op} (h : s.Issues a r seq opcode o) (run : State → Op → State) :
    s.issue a r seq opcode run = (run (s.begun o) o.run).refreshRing o.u := by
  obtain ⟨h1, h2, h3, h4, h5⟩ := h
  simp [State.issue, h1, h2, h3, h4, ← h5, passed, State.begun, Op.run]

theorem State.issueMem_of_issues {s : State} {a r seq opcode : Nat} {o : Op} (h : s.Issues a r seq opcode o) (run : State → Op → State) :
    s.issueMem a r seq opcode run = (run (s.begunMem o) o.run).refreshRing o.u := by
  simp only [State.issueMem, State.issue_of_issues h, State.begunMem]

theorem State.tileOp_of_issues {s : State} {a r seq opcode : Nat} {o : Op} (h : s.Issues a r seq opcode o)
    (hf : (s.begunMem o).usesFault ((s.begunMem o).opHalf o.run) ((s.begunMem o).opUses o.run) = none) (body : State → Op → TileEnd) :
    s.tileOp a r seq opcode body
      = ((body (s.begunMem o) o.run).st.decideOp o.run (body (s.begunMem o) o.run).fail (body (s.begunMem o) o.run).detail).refreshRing o.u := by
  simp [State.tileOp, State.issueMem_of_issues h, hf]

theorem State.folioOp_of_issues {s : State} {a r seq opcode : Nat} {o : Op} (h : s.Issues a r seq opcode o)
    (hb : (s.begunMem o).folioBlocked o.run (s.begunMem o).ops = false) (run : State → Op → State) :
    s.folioOp a r seq opcode run = (run (s.begunMem o) o.run).refreshRing o.u := by
  simp [State.folioOp, State.issueMem_of_issues h, hb]

theorem State.ringWrite_of_takes {s : State} {fn a r : Nat} (h : s.RingTakes fn a r) (run : State → Nat → State) :
    s.ringWrite fn a r run = run s (ringIx a r) := by
  obtain ⟨h1, h2, h3⟩ := h
  have hl : s.fnLive fn := by unfold State.ringReq at h1; simp_all
  unfold State.ringWrite
  rw [if_neg (by simp [hl]), if_neg (by simp [h1]; omega), if_neg (by omega)]

end Sys2Proof.Machine
end

