-- ==== Sys2Proof/Laws/Table.lean ====
section
/-!
SUPPORT. Tables: reading what was written, and the canonical form under every operation on tables and sparse memories.
-/
namespace Sys2Proof.Machine

variable {β : Type} [DecidableEq β]

/-! Reading. -/

theorem tblGet_erase_same {β : Type} (d : β) (t : Tbl β) (k : Nat) : tblGet d (tblErase t k) k = d := by
  induction t with
  | nil => rfl
  | cons e t ih => obtain ⟨k', v⟩ := e; by_cases h : k = k' <;> simp [tblErase, tblGet, h] <;> simpa [h] using ih

theorem tblGet_erase_ne {β : Type} (d : β) (t : Tbl β) {k j : Nat} (h : j ≠ k) : tblGet d (tblErase t k) j = tblGet d t j := by
  induction t with
  | nil => rfl
  | cons e t ih =>
    obtain ⟨k', v⟩ := e
    by_cases hk : k = k'
    · subst hk; simp [tblErase, tblGet, h, ih]
    · simp [tblErase, hk, tblGet, ih]

theorem tblGet_insert_same {β : Type} (d : β) (t : Tbl β) (k : Nat) (v : β) (h : ∀ e ∈ t, e.1 ≠ k) : tblGet d (tblInsert t k v) k = v := by
  induction t with
  | nil => simp [tblInsert, tblGet]
  | cons e t ih =>
    obtain ⟨k', v'⟩ := e
    have h1 : k' ≠ k := h (k', v') (by simp)
    unfold tblInsert
    split
    · simp [tblGet]
    · simp only [tblGet, if_neg (Ne.symm h1)]
      exact ih fun e he => h e (by simp [he])

theorem tblGet_insert_ne {β : Type} (d : β) (t : Tbl β) {k j : Nat} (v : β) (h : j ≠ k) : tblGet d (tblInsert t k v) j = tblGet d t j := by
  induction t with
  | nil => simp [tblInsert, tblGet, h]
  | cons e t ih =>
    obtain ⟨k', v'⟩ := e
    unfold tblInsert
    split
    · simp [tblGet, h]
    · simp only [tblGet, ih]

theorem tblErase_ne {β : Type} (t : Tbl β) (k : Nat) : ∀ e ∈ tblErase t k, e.1 ≠ k := by
  induction t with
  | nil => intro e he; cases he
  | cons e t ih =>
    obtain ⟨k', v⟩ := e
    intro x hx
    by_cases h : k = k'
    · simp only [tblErase, h, if_true] at hx; subst h; exact ih x hx
    · simp only [tblErase, if_neg h, List.mem_cons] at hx
      rcases hx with rfl | hx
      · exact fun hh => h hh.symm
      · exact ih x hx

/-- A key reads the value set. -/
@[simp] theorem tblGet_set_same (d : β) (t : Tbl β) (k : Nat) (v : β) : tblGet d (tblSet d t k v) k = v := by
  unfold tblSet
  split
  · rename_i h; rw [tblGet_erase_same, h]
  · exact tblGet_insert_same d _ k v (tblErase_ne t k)

/-- Setting a key leaves every other key alone. -/
theorem tblGet_set_ne (d : β) (t : Tbl β) {k j : Nat} (v : β) (h : j ≠ k) : tblGet d (tblSet d t k v) j = tblGet d t j := by
  unfold tblSet
  split
  · exact tblGet_erase_ne d t h
  · rw [tblGet_insert_ne d _ v h, tblGet_erase_ne d t h]

/-- The same under another unlisted value for the key read. -/
theorem tblGet_set_other (d d' : β) (t : Tbl β) {k j : Nat} (v : β) (h : j ≠ k) : tblGet d' (tblSet d t k v) j = tblGet d' t j := by
  unfold tblSet
  split
  · exact tblGet_erase_ne d' t h
  · rw [tblGet_insert_ne d' _ v h, tblGet_erase_ne d' t h]

/-- Reading any key after one was set. -/
theorem tblGet_set (d : β) (t : Tbl β) (k j : Nat) (v : β) : tblGet d (tblSet d t k v) j = if j = k then v else tblGet d t j := by
  split
  · rename_i h; subst h; simp
  · rename_i h; exact tblGet_set_ne d t v h

/-! The canonical form. -/

theorem tblWfFrom_mono (d : β) {a b : Nat} (h : a ≤ b) : ∀ t : Tbl β, tblWfFrom d b t = true → tblWfFrom d a t = true := by
  intro t
  cases t with
  | nil => simp [tblWfFrom]
  | cons e t => obtain ⟨k, v⟩ := e; simp only [tblWfFrom, Bool.and_eq_true, decide_eq_true_eq]; rintro ⟨⟨h1, h2⟩, h3⟩; exact ⟨⟨by omega, h2⟩, h3⟩

theorem tblWfFrom_filter (d : β) (p : Nat × β → Bool) : ∀ (t : Tbl β) (b : Nat), tblWfFrom d b t = true → tblWfFrom d b (t.filter p) = true := by
  intro t
  induction t with
  | nil => intro b h; simpa using h
  | cons e t ih =>
    obtain ⟨k, v⟩ := e
    intro b h
    simp only [tblWfFrom, Bool.and_eq_true, decide_eq_true_eq] at h
    obtain ⟨⟨h1, h2⟩, h3⟩ := h
    have h4 := ih (k + 1) h3
    rw [List.filter_cons]
    split
    · simp only [tblWfFrom, Bool.and_eq_true, decide_eq_true_eq]; exact ⟨⟨h1, h2⟩, h4⟩
    · exact tblWfFrom_mono d (by omega) _ h4

theorem tblErase_eq_filter {β : Type} (t : Tbl β) (k : Nat) : tblErase t k = t.filter fun e => decide (e.1 ≠ k) := by
  induction t with
  | nil => rfl
  | cons e t ih =>
    obtain ⟨k', v⟩ := e
    by_cases h : k = k'
    · subst h; simp [tblErase, ih]
    · have h' : k' ≠ k := fun e => h e.symm
      simp [tblErase, h, h', ih]

theorem tblWfFrom_insert (d : β) (k : Nat) (v : β) (hv : v ≠ d) : ∀ (t : Tbl β) (b : Nat), b ≤ k → (∀ e ∈ t, e.1 ≠ k) → tblWfFrom d b t = true →
    tblWfFrom d b (tblInsert t k v) = true := by
  intro t
  induction t with
  | nil => intro b hb _ _; simp [tblInsert, tblWfFrom, hb, hv]
  | cons e t ih =>
    obtain ⟨k', v'⟩ := e
    intro b hb hk h
    simp only [tblWfFrom, Bool.and_eq_true, decide_eq_true_eq] at h
    obtain ⟨⟨h1, h2⟩, h3⟩ := h
    have hne : k' ≠ k := hk (k', v') (by simp)
    unfold tblInsert
    split
    · simp only [tblWfFrom, Bool.and_eq_true, decide_eq_true_eq]; exact ⟨⟨hb, hv⟩, ⟨by omega, h2⟩, h3⟩
    · simp only [tblWfFrom, Bool.and_eq_true, decide_eq_true_eq]
      exact ⟨⟨h1, h2⟩, ih (k' + 1) (by omega) (fun e he => hk e (by simp [he])) h3⟩

/-- Dropping entries keeps the canonical form. -/
theorem tblWf_filter (d : β) (t : Tbl β) (p : Nat × β → Bool) (h : tblWf d t = true) : tblWf d (t.filter p) = true := tblWfFrom_filter d p t 0 h

/-- Setting a key keeps the canonical form. -/
theorem tblWf_set (d : β) (t : Tbl β) (k : Nat) (v : β) (h : tblWf d t = true) : tblWf d (tblSet d t k v) = true := by
  have he : tblWf d (tblErase t k) = true := by rw [tblErase_eq_filter]; exact tblWf_filter d t _ h
  unfold tblSet
  split
  · exact he
  · rename_i hv; exact tblWfFrom_insert d k v hv _ 0 (by omega) (tblErase_ne t k) he

/-- Changing the value of a key keeps the canonical form. -/
theorem tblWf_mod (d : β) (t : Tbl β) (k : Nat) (f : β → β) (h : tblWf d t = true) : tblWf d (tblMod d t k f) = true := tblWf_set d t k _ h

/-! Sparse memories. -/

theorem Memory.wf_nil : Memory.wf [] = true := rfl

theorem Memory.wf_set (m : Tbl Byte) (a : Nat) (b : Byte) (h : Memory.wf m = true) : Memory.wf (tblSet 0 m a b) = true := tblWf_set 0 m a b h

/-- Storing bytes keeps the canonical form. -/
theorem Memory.wf_store (bs : List Byte) : ∀ (m : Tbl Byte) (a : Nat), Memory.wf m = true → Memory.wf (storeBytes m a bs) = true := by
  induction bs with
  | nil => intro m a h; exact h
  | cons b bs ih => intro m a h; exact ih _ _ (Memory.wf_set m a b h)

/-- Storing enabled bytes keeps the canonical form. -/
theorem Memory.wf_storeMasked (bs : List Byte) : ∀ (es : List Bool) (m : Tbl Byte) (a : Nat), Memory.wf m = true → Memory.wf (storeMasked m a bs es) = true := by
  induction bs with
  | nil => intro es m a h; cases es <;> exact h
  | cons b bs ih =>
    intro es m a h
    cases es with
    | nil => exact h
    | cons e es =>
      unfold storeMasked
      split
      · exact ih _ _ _ (Memory.wf_set m a b h)
      · exact ih _ _ _ h

/-- Zeroing a range keeps the canonical form. -/
theorem Memory.wf_zero (m : Tbl Byte) (a n : Nat) (h : Memory.wf m = true) : Memory.wf (zeroBytes m a n) = true := tblWf_filter 0 m _ h

/-- A byte outside the stored ones reads as before. -/
theorem byteAt_store_outside (bs : List Byte) : ∀ (m : Tbl Byte) (a x : Nat), x < a ∨ a + bs.length ≤ x → byteAt (storeBytes m a bs) x = byteAt m x := by
  induction bs with
  | nil => intro m a x _; rfl
  | cons b bs ih =>
    intro m a x hx
    simp only [List.length_cons] at hx
    rw [storeBytes, ih _ _ _ (by omega)]
    exact tblGet_set_ne 0 m b (by omega)

/-- A stored byte reads as stored. -/
theorem byteAt_store_inside (bs : List Byte) : ∀ (m : Tbl Byte) (a i : Nat), i < bs.length → byteAt (storeBytes m a bs) (a + i) = bs.getD i 0 := by
  induction bs with
  | nil => intro m a i h; simp at h
  | cons b bs ih =>
    intro m a i h
    rw [storeBytes]
    cases i with
    | zero => rw [byteAt_store_outside bs _ _ _ (by omega)]; simp [byteAt]
    | succ i =>
      have := ih (tblSet 0 m a b) (a + 1) i (by simpa using h)
      rw [show a + (i + 1) = a + 1 + i by omega, this]; simp

/-- `n` bytes read back are the bytes stored. -/
theorem bytesAt_store (bs : List Byte) : ∀ (m : Tbl Byte) (a : Nat), bytesAt (storeBytes m a bs) a bs.length = bs := by
  have key : ∀ (n : Nat) (m : Tbl Byte) (a : Nat) (l : List Byte), l.length = n → (∀ i, i < n → byteAt m (a + i) = l.getD i 0) → bytesAt m a n = l := by
    intro n
    induction n with
    | zero => intro m a l hl _; simp [bytesAt, List.length_eq_zero_iff.mp hl]
    | succ n ih =>
      intro m a l hl h
      cases l with
      | nil => simp at hl
      | cons b l =>
        have h0 := h 0 (by omega)
        simp at h0
        rw [bytesAt, h0, ih m (a + 1) l (by simpa using hl)]
        intro i hi
        have := h (i + 1) (by omega)
        rw [show a + 1 + i = a + (i + 1) by omega, this]; simp
  intro m a
  exact key _ _ _ bs rfl fun i hi => byteAt_store_inside bs m a i hi

end Sys2Proof.Machine
end

