-- ==== Sys2Proof/Laws/Regs.lean ====
section
/-!
SUPPORT. Registers and their fields: reading what was written, and what a write of one field leaves alone.
-/
namespace Sys2Proof.Machine

/-! Bits of a register value. -/

theorem toNat_ofNat_mask {a b : Nat} (h : a + b ≤ 64) : (BitVec.ofNat 64 ((2 ^ b - 1) * 2 ^ a)).toNat = (2 ^ b - 1) * 2 ^ a := by
  rw [BitVec.toNat_ofNat]
  apply Nat.mod_eq_of_lt
  calc (2 ^ b - 1) * 2 ^ a < 2 ^ b * 2 ^ a := by
        apply Nat.mul_lt_mul_of_pos_right _ (Nat.two_pow_pos a)
        have := Nat.two_pow_pos b; omega
    _ = 2 ^ (a + b) := by rw [← Nat.pow_add, Nat.add_comm]
    _ ≤ 2 ^ 64 := Nat.pow_le_pow_right (by decide) h

/-- Bit `i` of the mask of `b` bits from bit `a`. -/
theorem testBit_mask (a b i : Nat) : ((2 ^ b - 1) * 2 ^ a).testBit i = (decide (a ≤ i) && decide (i < a + b)) := by
  rw [Nat.testBit_mul_two_pow]
  by_cases h : a ≤ i
  · simp [h, Nat.testBit_two_pow_sub_one]; omega
  · simp [h]

/-- Bit `i` of a value put at bit `a`. -/
theorem testBit_shifted (v a b i : Nat) : (v % 2 ^ b * 2 ^ a).testBit i = (decide (a ≤ i) && decide (i < a + b) && v.testBit (i - a)) := by
  rw [Nat.testBit_mul_two_pow]
  by_cases h : a ≤ i
  · simp [h, Nat.testBit_mod_two_pow]
    by_cases h2 : i - a < b
    · simp [h2, show i < a + b by omega]
    · simp [h2, show ¬ i < a + b by omega]
  · simp [h]

theorem testBit_ofNat64 (v i : Nat) : (BitVec.ofNat 64 v).toNat.testBit i = (decide (i < 64) && v.testBit i) := by
  rw [BitVec.toNat_ofNat, Nat.testBit_mod_two_pow]

/-- Bits of a register value with a field put into it. -/
theorem Fld.testBit_put (f : Fld) (c : DWord) (v i : Nat) :
    (f.put c v).toNat.testBit i = (decide (i < 64) && if f.lo ≤ i ∧ i < f.lo + f.width then v.testBit (i - f.lo) else c.toNat.testBit i) := by
  have hc : i < 64 ∨ c.toNat.testBit i = false := by
    by_cases h : i < 64
    · exact .inl h
    · refine .inr (Nat.testBit_lt_two_pow (Nat.lt_of_lt_of_le c.isLt (Nat.pow_le_pow_right (by decide) (by omega))))
  by_cases h64 : i < 64
  · have e1 : (f.put c v).toNat.testBit i = (f.put c v).getLsbD i := rfl
    have e2 : c.toNat.testBit i = c.getLsbD i := rfl
    rw [e1, e2]
    simp only [Fld.put, BitVec.getLsbD_or, BitVec.getLsbD_and, BitVec.getLsbD_not, BitVec.getLsbD_ofNat, h64, decide_true, Bool.true_and,
      testBit_mask, testBit_shifted]
    by_cases hin : f.lo ≤ i ∧ i < f.lo + f.width
    · simp [hin.1, hin.2]
    · rw [if_neg hin]
      have : (decide (f.lo ≤ i) && decide (i < f.lo + f.width)) = false := by
        simp only [Bool.and_eq_false_iff, decide_eq_false_iff_not]; omega
      simp [this]
  · have : (f.put c v).toNat.testBit i = false :=
      Nat.testBit_lt_two_pow (Nat.lt_of_lt_of_le (f.put c v).isLt (Nat.pow_le_pow_right (by decide) (by omega)))
    simp [this, h64]

/-- Bits of a field's value. -/
theorem Fld.testBit_get (f : Fld) (c : DWord) (i : Nat) : (f.get c).testBit i = (decide (i < f.width) && c.toNat.testBit (f.lo + i)) := by
  rw [Fld.get, bits, Nat.testBit_mod_two_pow, Nat.testBit_div_two_pow, Nat.add_comm]

/-- A field reads the low bits of what was put. -/
theorem Fld.get_put (f : Fld) (c : DWord) (v : Nat) (h : f.lo + f.width ≤ 64) : f.get (f.put c v) = v % 2 ^ f.width := by
  apply Nat.eq_of_testBit_eq
  intro i
  rw [Fld.testBit_get, Fld.testBit_put, Nat.testBit_mod_two_pow]
  by_cases hi : i < f.width
  · rw [if_pos ⟨by omega, by omega⟩]
    simp [hi, show f.lo + i < 64 by omega]
  · simp [hi]

/-- Fields that share no bit. -/
def Fld.apart (f g : Fld) : Bool := decide (f.lo + f.width ≤ g.lo) || decide (g.lo + g.width ≤ f.lo)

/-- Putting a field leaves a field that shares no bit with it alone. -/
theorem Fld.get_put_apart (f g : Fld) (c : DWord) (v : Nat) (h : f.apart g = true) (hg : g.lo + g.width ≤ 64) : g.get (f.put c v) = g.get c := by
  simp only [Fld.apart, Bool.or_eq_true, decide_eq_true_eq] at h
  apply Nat.eq_of_testBit_eq
  intro i
  rw [Fld.testBit_get, Fld.testBit_get, Fld.testBit_put]
  by_cases hi : i < g.width
  · rw [if_neg (by omega)]; simp [hi, show g.lo + i < 64 by omega]
  · simp [hi]

/-! Cells. -/

@[simp] theorem State.cell_setCell_same (s : State) (k : Nat) (v : DWord) : (s.setCell k v).cell k = v := tblGet_set_same _ _ _ _

theorem State.cell_setCell_ne (s : State) {k j : Nat} (v : DWord) (h : j ≠ k) : (s.setCell k v).cell j = s.cell j :=
  tblGet_set_other _ _ _ _ h

@[simp] theorem State.stagedCell_setCell (s : State) (k j : Nat) (v : DWord) : (s.setCell k v).stagedCell j = s.stagedCell j := rfl

@[simp] theorem State.stagedCell_setStaged_same (s : State) (k : Nat) (v : DWord) : (s.setStaged k v).stagedCell k = v := tblGet_set_same _ _ _ _

theorem State.stagedCell_setStaged_ne (s : State) {k j : Nat} (v : DWord) (h : j ≠ k) : (s.setStaged k v).stagedCell j = s.stagedCell j :=
  tblGet_set_other _ _ _ _ h

@[simp] theorem State.cell_setStaged (s : State) (k j : Nat) (v : DWord) : (s.setStaged k v).cell j = s.cell j := rfl

/-! Fields of live registers. -/

/-- A field reads what was written to it, cut to its width. -/
theorem State.rd_wr (s : State) (f : Fld) (v : Nat) (h : f.lo + f.width ≤ 64) : (s.wr f v).rd f = v % 2 ^ f.width := by
  rw [State.rd, State.wr, State.cell_setCell_same, Fld.get_put f _ v h]

/-- Writing a field leaves the fields of other registers alone. -/
theorem State.rd_wr_key (s : State) (f g : Fld) (v : Nat) (h : g.key ≠ f.key) : (s.wr f v).rd g = s.rd g := by
  rw [State.rd, State.wr, State.cell_setCell_ne _ _ h]; rfl

/-- Writing a field leaves the fields that share no bit with it alone. -/
theorem State.rd_wr_apart (s : State) (f g : Fld) (v : Nat) (h : g.key ≠ f.key ∨ f.apart g = true) (hg : g.lo + g.width ≤ 64) :
    (s.wr f v).rd g = s.rd g := by
  by_cases hk : g.key = f.key
  · have ha : f.apart g = true := h.resolve_left (fun h => h hk)
    rw [State.rd, State.wr, hk, State.cell_setCell_same, Fld.get_put_apart f g _ v ha hg, State.rd, hk]
  · exact State.rd_wr_key s f g v hk

theorem State.cell_wr_ne (s : State) (f : Fld) (v : Nat) {k : Nat} (h : k ≠ f.key) : (s.wr f v).cell k = s.cell k := State.cell_setCell_ne _ _ h

theorem State.on_wrb (s : State) (f : Fld) (b : Bool) (h : f.lo + f.width ≤ 64) (hw : 0 < f.width) : (s.wrb f b).on f = b := by
  rw [State.on, State.wrb, State.rd_wr _ _ _ h]
  have : (2 : Nat) ≤ 2 ^ f.width := by
    calc 2 = 2 ^ 1 := rfl
      _ ≤ 2 ^ f.width := Nat.pow_le_pow_right (by decide) hw
  cases b
  · simp [b2n]
  · simp [b2n, Nat.mod_eq_of_lt (show 1 < 2 ^ f.width by omega)]

theorem State.on_wrb_apart (s : State) (f g : Fld) (b : Bool) (h : g.key ≠ f.key ∨ f.apart g = true) (hg : g.lo + g.width ≤ 64) :
    (s.wrb f b).on g = s.on g := by
  rw [State.on, State.wrb, State.rd_wr_apart _ _ _ _ h hg]; rfl

/-- A field never holds more than its width. -/
theorem State.rd_lt (s : State) (f : Fld) : s.rd f < 2 ^ f.width := Nat.mod_lt _ (Nat.two_pow_pos _)

/-! Events change the event registers, the MSI-X tables and the outputs only. -/

/-- A raised vector changes no register. -/
@[simp] theorem State.cell_raiseVec (s : State) (fn v k : Nat) : (s.raiseVec fn v).cell k = s.cell k := by
  unfold State.raiseVec
  split
  · rfl
  · split <;> rfl

@[simp] theorem State.cell_raisePage (s : State) (pg k : Nat) : (s.raisePage pg).cell k = s.cell k := State.cell_raiseVec _ _ _ _

/-- Raising events of a page changes only its EVT_RAW. -/
theorem State.cell_raiseMask (s : State) (pg m : Nat) {k : Nat} (h : k ≠ 0x1000 * pg + 0x10) : (s.raiseMask pg m).cell k = s.cell k := by
  unfold State.raiseMask
  simp only
  split
  · rw [State.cell_raisePage, State.cell_wr_ne]; exact h
  · rw [State.cell_wr_ne]; exact h

theorem State.cell_raise (s : State) (pg i : Nat) {k : Nat} (h : k ≠ 0x1000 * pg + 0x10) : (s.raise pg i).cell k = s.cell k :=
  State.cell_raiseMask s pg _ h

/-- A field outside EVT_RAW keeps its value when an event is raised. -/
theorem State.rd_raise (s : State) (pg i : Nat) (f : Fld) (h : f.key ≠ 0x1000 * pg + 0x10) : (s.raise pg i).rd f = s.rd f := by
  rw [State.rd, State.cell_raise s pg i h]; rfl

/-- EVT_RAW after events are raised. -/
theorem State.rd_raiseMask_raw (s : State) (pg m : Nat) :
    (s.raiseMask pg m).rd (Reg.EVT_RAW.RAW pg) = (s.rd (Reg.EVT_RAW.RAW pg) ||| m) % 2 ^ 32 := by
  have h : (s.wr (Reg.EVT_RAW.RAW pg) (s.rd (Reg.EVT_RAW.RAW pg) ||| m)).rd (Reg.EVT_RAW.RAW pg) = (s.rd (Reg.EVT_RAW.RAW pg) ||| m) % 2 ^ 32 :=
    State.rd_wr _ _ _ (by simp [Reg.EVT_RAW.RAW])
  unfold State.raiseMask
  simp only
  split
  · rw [State.rd, State.cell_raisePage]; exact h
  · exact h

end Sys2Proof.Machine
end

