-- ==== Sys2Proof/Laws/Service.lean ====
section
/-!
SUPPORT. What the two request servers do with a request that passes their checks: the meaning of the request runs, on the state that the
checks leave.
-/
namespace Sys2Proof.Machine

theorem State.request_of_asked {s : State} {a p typ : Nat} {f : Fetch} {m : Jz} (h : s.Asked a p typ f m) (wr : DmaEnd) (run : State → Jz → State) :
    s.request a p typ f wr run = run (s.speak a p f) m := by
  obtain ⟨h1, h2, h3, h4, h5⟩ := h
  simp [State.request, h1, h2, h3, h4, h5]

theorem State.fuseRequest_of_asked {s : State} {a p typ : Nat} {f : Fetch} {m : Jz} (h : s.Asked a p typ f m) (hu : s.secUp)
    (hl : s.lcRun.phase = .none) (wr : DmaEnd) (run : State → Jz → State) : s.fuseRequest a p typ f wr run = run (s.speak a p f) m := by
  simp [State.fuseRequest, hu, hl, State.request_of_asked h]

theorem State.fabRequest_of_asked {s : State} {a p typ : Nat} {f : Fetch} {m : Jz} (h : s.Asked a p typ f m) (hf : s.clerkSt 3 = ClerkSt.RUNNING)
    (wr : DmaEnd) (run : State → Jz → State) : s.fabRequest a p typ f wr run = run (s.speak a p f) m := by
  simp [State.fabRequest, hf, State.request_of_asked h]

/-- A pair that is attached keeps its version while it asks. -/
theorem State.speak_of_attached {s : State} {a p : Nat} {f : Fetch} (h : s.on (Reg.MBX_STA.ATTACHED a p)) : s.speak a p f = s := by
  unfold State.speak
  split <;> simp_all

theorem State.bmcServe_of_framed {s : State} {op : Nat} {f : Frame} (h : s.Framed op f) (run : State → Frame → State) :
    s.bmcServe op run = run s.bmcRead f := by
  obtain ⟨h1, h2, h3, h4, h5, h6⟩ := h
  unfold State.bmcServe
  simp only [h1, h2, h3, h4, h6, Bool.not_true, ne_eq, not_true_eq_false, if_false]
  rw [if_neg (by simp), if_neg (by simp)]
  exact if_neg (by rw [← h3]; exact h5)

theorem State.bmcFlash_of_framed {s : State} {op : Nat} {f : Frame} (h : s.Framed op f) (ho : s.rd (Reg.SPX_PORT_STA.OP 0) = 0)
    (hs : s.rd (Reg.SPX_XFER_STA.STATE 0) = 0 ∨ s.rd (Reg.SPX_XFER_STA.STATE 0) = 3) (hf : f.arg 0 < 4) (c : FlashCheck) (run : State → Frame → State) :
    s.bmcFlash op c run = run (s.bmcRead.flashLearn (f.arg 0) c) f := by
  unfold State.bmcFlash
  rw [if_neg (by rcases hs with h | h <;> simp [ho, h]), State.bmcServe_of_framed h, if_neg (by omega)]

end Sys2Proof.Machine
end

