-- ==== Sys2Proof/Laws/Staging.lean ====
section
/-!
SUPPORT. The staging area of a firmware load: it reads back as the image that was staged, and staging changes memory alone.
-/
namespace Sys2Proof.Machine

theorem padTo_length (n : Nat) (l : List Byte) : (padTo n l).length = n := by
  simp only [padTo, zeros, List.length_append, List.length_take, List.length_replicate]; omega

theorem padTo_self (l : List Byte) : padTo l.length l = l := by simp [padTo, zeros]

theorem State.clearCovered_frame (s : State) (a n : Nat) : (s.clearCovered a n).regs = s.regs ∧ (s.clearCovered a n).fuses = s.fuses := by
  have set_ : ∀ (s : State) (a : Nat) (b : Bool), (s.setPoison a b).regs = s.regs ∧ (s.setPoison a b).fuses = s.fuses := by
    intro s a b; unfold State.setPoison; split <;> exact ⟨rfl, rfl⟩
  unfold State.clearCovered
  induction grains a n generalizing s with
  | nil => exact ⟨rfl, rfl⟩
  | cons g l ih =>
    rw [List.foldl_cons]
    split
    · exact ⟨(ih _).1.trans (set_ s g false).1, (ih _).2.trans (set_ s g false).2⟩
    · exact ih s

/-- Staging an image changes no register and no fuse. -/
theorem State.stageImage_regs (s : State) (l : List Byte) : (s.stageImage l).regs = s.regs :=
  (State.clearCovered_frame s s.stageAddr (padTo (s.rd Reg.BOOT_FW_LEN.LEN) l).length).1
theorem State.stageImage_fuses (s : State) (l : List Byte) : (s.stageImage l).fuses = s.fuses :=
  (State.clearCovered_frame s s.stageAddr (padTo (s.rd Reg.BOOT_FW_LEN.LEN) l).length).2

/-- The staged copy is the image that the host read returned, up to the length that BOOT_FW_LEN names. -/
theorem State.stagedCopy_stageImage (s : State) (l : List Byte) : (s.stageImage l).stagedCopy = padTo (s.rd Reg.BOOT_FW_LEN.LEN) l := by
  have hr := State.stageImage_regs s l
  have hm : (s.stageImage l).mem = storeBytes (s.clearCovered s.stageAddr (padTo (s.rd Reg.BOOT_FW_LEN.LEN) l).length).mem s.stageAddr
    (padTo (s.rd Reg.BOOT_FW_LEN.LEN) l) := rfl
  have hc : ∀ t : State, t.regs = s.regs → t.stageAddr = s.stageAddr ∧ t.rd Reg.BOOT_FW_LEN.LEN = s.rd Reg.BOOT_FW_LEN.LEN := by
    intro t ht
    have hf : ∀ f, t.rd f = s.rd f := fun f => by simp only [State.rd, State.cell, ht]
    have hg : t.halfGib 0 = s.halfGib 0 := by simp only [State.halfGib, hf]
    exact ⟨congrArg (fun g => hbmBase 0 + g * 2 ^ 30 - 0x20000000) hg, hf _⟩
  unfold State.stagedCopy State.load
  rw [(hc _ hr).1, (hc _ hr).2, hm]
  have h := bytesAt_store (padTo (s.rd Reg.BOOT_FW_LEN.LEN) l) (s.clearCovered s.stageAddr (padTo (s.rd Reg.BOOT_FW_LEN.LEN) l).length).mem s.stageAddr
  rwa [padTo_length] at h ⊢

end Sys2Proof.Machine
end

