-- ==== Sys2Proof/Laws/State.lean ====
section
/-!
SUPPORT. One lemma per field of State per primitive update: what writing a register, staging one, sending an output, drawing a free value
and raising a vector leave alone.
-/
namespace Sys2Proof.Machine

@[simp] theorem State.setCell_staged (s : State) (k : Nat) (v : DWord) : (s.setCell k v).staged = s.staged := rfl
@[simp] theorem State.setCell_split (s : State) (k : Nat) (v : DWord) : (s.setCell k v).split = s.split := rfl
@[simp] theorem State.setCell_timeFine (s : State) (k : Nat) (v : DWord) : (s.setCell k v).timeFine = s.timeFine := rfl
@[simp] theorem State.setCell_uptime (s : State) (k : Nat) (v : DWord) : (s.setCell k v).uptime = s.uptime := rfl
@[simp] theorem State.setCell_slots (s : State) (k : Nat) (v : DWord) : (s.setCell k v).slots = s.slots := rfl
@[simp] theorem State.setCell_clkChange (s : State) (k : Nat) (v : DWord) : (s.setCell k v).clkChange = s.clkChange := rfl
@[simp] theorem State.setCell_clkStopped (s : State) (k : Nat) (v : DWord) : (s.setCell k v).clkStopped = s.clkStopped := rfl
@[simp] theorem State.setCell_dlkAttempts (s : State) (k : Nat) (v : DWord) : (s.setCell k v).dlkAttempts = s.dlkAttempts := rfl
@[simp] theorem State.setCell_msixOn (s : State) (k : Nat) (v : DWord) : (s.setCell k v).msixOn = s.msixOn := rfl
@[simp] theorem State.setCell_msixMask (s : State) (k : Nat) (v : DWord) : (s.setCell k v).msixMask = s.msixMask := rfl
@[simp] theorem State.setCell_msixPend (s : State) (k : Nat) (v : DWord) : (s.setCell k v).msixPend = s.msixPend := rfl
@[simp] theorem State.setCell_fuses (s : State) (k : Nat) (v : DWord) : (s.setCell k v).fuses = s.fuses := rfl
@[simp] theorem State.setCell_weak (s : State) (k : Nat) (v : DWord) : (s.setCell k v).weak = s.weak := rfl
@[simp] theorem State.setCell_lcRun (s : State) (k : Nat) (v : DWord) : (s.setCell k v).lcRun = s.lcRun := rfl
@[simp] theorem State.setCell_boot (s : State) (k : Nat) (v : DWord) : (s.setCell k v).boot = s.boot := rfl
@[simp] theorem State.setCell_rails (s : State) (k : Nat) (v : DWord) : (s.setCell k v).rails = s.rails := rfl
@[simp] theorem State.setCell_vault (s : State) (k : Nat) (v : DWord) : (s.setCell k v).vault = s.vault := rfl
@[simp] theorem State.setCell_clerks (s : State) (k : Nat) (v : DWord) : (s.setCell k v).clerks = s.clerks := rfl
@[simp] theorem State.setCell_dumps (s : State) (k : Nat) (v : DWord) : (s.setCell k v).dumps = s.dumps := rfl
@[simp] theorem State.setCell_ports (s : State) (k : Nat) (v : DWord) : (s.setCell k v).ports = s.ports := rfl
@[simp] theorem State.setCell_logQueue (s : State) (k : Nat) (v : DWord) : (s.setCell k v).logQueue = s.logQueue := rfl
@[simp] theorem State.setCell_logLost (s : State) (k : Nat) (v : DWord) : (s.setCell k v).logLost = s.logLost := rfl
@[simp] theorem State.setCell_pairs (s : State) (k : Nat) (v : DWord) : (s.setCell k v).pairs = s.pairs := rfl
@[simp] theorem State.setCell_bmc (s : State) (k : Nat) (v : DWord) : (s.setCell k v).bmc = s.bmc := rfl
@[simp] theorem State.setCell_trace (s : State) (k : Nat) (v : DWord) : (s.setCell k v).trace = s.trace := rfl
@[simp] theorem State.setCell_spx (s : State) (k : Nat) (v : DWord) : (s.setCell k v).spx = s.spx := rfl
@[simp] theorem State.setCell_sensors (s : State) (k : Nat) (v : DWord) : (s.setCell k v).sensors = s.sensors := rfl
@[simp] theorem State.setCell_throttleLogged (s : State) (k : Nat) (v : DWord) : (s.setCell k v).throttleLogged = s.throttleLogged := rfl
@[simp] theorem State.setCell_coolSince (s : State) (k : Nat) (v : DWord) : (s.setCell k v).coolSince = s.coolSince := rfl
@[simp] theorem State.setCell_iccHigh (s : State) (k : Nat) (v : DWord) : (s.setCell k v).iccHigh = s.iccHigh := rfl
@[simp] theorem State.setCell_alertLow (s : State) (k : Nat) (v : DWord) : (s.setCell k v).alertLow = s.alertLow := rfl
@[simp] theorem State.setCell_currentSince (s : State) (k : Nat) (v : DWord) : (s.setCell k v).currentSince = s.currentSince := rfl
@[simp] theorem State.setCell_hbmFails (s : State) (k : Nat) (v : DWord) : (s.setCell k v).hbmFails = s.hbmFails := rfl
@[simp] theorem State.setCell_gated (s : State) (k : Nat) (v : DWord) : (s.setCell k v).gated = s.gated := rfl
@[simp] theorem State.setCell_loop (s : State) (k : Nat) (v : DWord) : (s.setCell k v).loop = s.loop := rfl
@[simp] theorem State.setCell_mem (s : State) (k : Nat) (v : DWord) : (s.setCell k v).mem = s.mem := rfl
@[simp] theorem State.setCell_poisonLine (s : State) (k : Nat) (v : DWord) : (s.setCell k v).poisonLine = s.poisonLine := rfl
@[simp] theorem State.setCell_poisonWord (s : State) (k : Nat) (v : DWord) : (s.setCell k v).poisonWord = s.poisonWord := rfl
@[simp] theorem State.setCell_errFifo (s : State) (k : Nat) (v : DWord) : (s.setCell k v).errFifo = s.errFifo := rfl
@[simp] theorem State.setCell_scrubPos (s : State) (k : Nat) (v : DWord) : (s.setCell k v).scrubPos = s.scrubPos := rfl
@[simp] theorem State.setCell_wipeVerify (s : State) (k : Nat) (v : DWord) : (s.setCell k v).wipeVerify = s.wipeVerify := rfl
@[simp] theorem State.setCell_wipeFill (s : State) (k : Nat) (v : DWord) : (s.setCell k v).wipeFill = s.wipeFill := rfl
@[simp] theorem State.setCell_woken (s : State) (k : Nat) (v : DWord) : (s.setCell k v).woken = s.woken := rfl
@[simp] theorem State.setCell_wakeOff (s : State) (k : Nat) (v : DWord) : (s.setCell k v).wakeOff = s.wakeOff := rfl
@[simp] theorem State.setCell_bankWait (s : State) (k : Nat) (v : DWord) : (s.setCell k v).bankWait = s.bankWait := rfl
@[simp] theorem State.setCell_hbmWait (s : State) (k : Nat) (v : DWord) : (s.setCell k v).hbmWait = s.hbmWait := rfl
@[simp] theorem State.setCell_ops (s : State) (k : Nat) (v : DWord) : (s.setCell k v).ops = s.ops := rfl
@[simp] theorem State.setCell_rings (s : State) (k : Nat) (v : DWord) : (s.setCell k v).rings = s.rings := rfl
@[simp] theorem State.setCell_contexts (s : State) (k : Nat) (v : DWord) : (s.setCell k v).contexts = s.contexts := rfl
@[simp] theorem State.setCell_tallies (s : State) (k : Nat) (v : DWord) : (s.setCell k v).tallies = s.tallies := rfl
@[simp] theorem State.setCell_mteLog (s : State) (k : Nat) (v : DWord) : (s.setCell k v).mteLog = s.mteLog := rfl
@[simp] theorem State.setCell_softRepairs (s : State) (k : Nat) (v : DWord) : (s.setCell k v).softRepairs = s.softRepairs := rfl
@[simp] theorem State.setCell_hardRepairs (s : State) (k : Nat) (v : DWord) : (s.setCell k v).hardRepairs = s.hardRepairs := rfl
@[simp] theorem State.setCell_scrub (s : State) (k : Nat) (v : DWord) : (s.setCell k v).scrub = s.scrub := rfl
@[simp] theorem State.setCell_txStreams (s : State) (k : Nat) (v : DWord) : (s.setCell k v).txStreams = s.txStreams := rfl
@[simp] theorem State.setCell_rxStreams (s : State) (k : Nat) (v : DWord) : (s.setCell k v).rxStreams = s.rxStreams := rfl
@[simp] theorem State.setCell_sessions (s : State) (k : Nat) (v : DWord) : (s.setCell k v).sessions = s.sessions := rfl
@[simp] theorem State.setCell_requests (s : State) (k : Nat) (v : DWord) : (s.setCell k v).requests = s.requests := rfl
@[simp] theorem State.setCell_inbox (s : State) (k : Nat) (v : DWord) : (s.setCell k v).inbox = s.inbox := rfl
@[simp] theorem State.setCell_groups (s : State) (k : Nat) (v : DWord) : (s.setCell k v).groups = s.groups := rfl
@[simp] theorem State.setCell_folios (s : State) (k : Nat) (v : DWord) : (s.setCell k v).folios = s.folios := rfl
@[simp] theorem State.setCell_pools (s : State) (k : Nat) (v : DWord) : (s.setCell k v).pools = s.pools := rfl
@[simp] theorem State.setCell_attends (s : State) (k : Nat) (v : DWord) : (s.setCell k v).attends = s.attends := rfl
@[simp] theorem State.setCell_steps (s : State) (k : Nat) (v : DWord) : (s.setCell k v).steps = s.steps := rfl
@[simp] theorem State.setCell_early (s : State) (k : Nat) (v : DWord) : (s.setCell k v).early = s.early := rfl
@[simp] theorem State.setCell_rosters (s : State) (k : Nat) (v : DWord) : (s.setCell k v).rosters = s.rosters := rfl
@[simp] theorem State.setCell_granules (s : State) (k : Nat) (v : DWord) : (s.setCell k v).granules = s.granules := rfl
@[simp] theorem State.setCell_mirrors (s : State) (k : Nat) (v : DWord) : (s.setCell k v).mirrors = s.mirrors := rfl
@[simp] theorem State.setCell_mirrored (s : State) (k : Nat) (v : DWord) : (s.setCell k v).mirrored = s.mirrored := rfl
@[simp] theorem State.setCell_commits (s : State) (k : Nat) (v : DWord) : (s.setCell k v).commits = s.commits := rfl
@[simp] theorem State.setCell_postWait (s : State) (k : Nat) (v : DWord) : (s.setCell k v).postWait = s.postWait := rfl
@[simp] theorem State.setCell_zeroRun (s : State) (k : Nat) (v : DWord) : (s.setCell k v).zeroRun = s.zeroRun := rfl
@[simp] theorem State.setCell_flrFill (s : State) (k : Nat) (v : DWord) : (s.setCell k v).flrFill = s.flrFill := rfl
@[simp] theorem State.setCell_epochAt (s : State) (k : Nat) (v : DWord) : (s.setCell k v).epochAt = s.epochAt := rfl
@[simp] theorem State.setCell_fports (s : State) (k : Nat) (v : DWord) : (s.setCell k v).fports = s.fports := rfl
@[simp] theorem State.setCell_goodOffsets (s : State) (k : Nat) (v : DWord) : (s.setCell k v).goodOffsets = s.goodOffsets := rfl
@[simp] theorem State.setCell_everSynced (s : State) (k : Nat) (v : DWord) : (s.setCell k v).everSynced = s.everSynced := rfl
@[simp] theorem State.setCell_lastCommit (s : State) (k : Nat) (v : DWord) : (s.setCell k v).lastCommit = s.lastCommit := rfl
@[simp] theorem State.setCell_unretired (s : State) (k : Nat) (v : DWord) : (s.setCell k v).unretired = s.unretired := rfl
@[simp] theorem State.setCell_computeRan (s : State) (k : Nat) (v : DWord) : (s.setCell k v).computeRan = s.computeRan := rfl
@[simp] theorem State.setCell_groupsOff (s : State) (k : Nat) (v : DWord) : (s.setCell k v).groupsOff = s.groupsOff := rfl
@[simp] theorem State.setCell_tripDriven (s : State) (k : Nat) (v : DWord) : (s.setCell k v).tripDriven = s.tripDriven := rfl
@[simp] theorem State.setCell_turns (s : State) (k : Nat) (v : DWord) : (s.setCell k v).turns = s.turns := rfl
@[simp] theorem State.setCell_mteRun (s : State) (k : Nat) (v : DWord) : (s.setCell k v).mteRun = s.mteRun := rfl
@[simp] theorem State.setCell_out (s : State) (k : Nat) (v : DWord) : (s.setCell k v).out = s.out := rfl
@[simp] theorem State.setCell_free (s : State) (k : Nat) (v : DWord) : (s.setCell k v).free = s.free := rfl
@[simp] theorem State.setCell_pending (s : State) (k : Nat) (v : DWord) : (s.setCell k v).pending = s.pending := rfl

@[simp] theorem State.setStaged_regs (s : State) (k : Nat) (v : DWord) : (s.setStaged k v).regs = s.regs := rfl
@[simp] theorem State.setStaged_split (s : State) (k : Nat) (v : DWord) : (s.setStaged k v).split = s.split := rfl
@[simp] theorem State.setStaged_timeFine (s : State) (k : Nat) (v : DWord) : (s.setStaged k v).timeFine = s.timeFine := rfl
@[simp] theorem State.setStaged_uptime (s : State) (k : Nat) (v : DWord) : (s.setStaged k v).uptime = s.uptime := rfl
@[simp] theorem State.setStaged_slots (s : State) (k : Nat) (v : DWord) : (s.setStaged k v).slots = s.slots := rfl
@[simp] theorem State.setStaged_clkChange (s : State) (k : Nat) (v : DWord) : (s.setStaged k v).clkChange = s.clkChange := rfl
@[simp] theorem State.setStaged_clkStopped (s : State) (k : Nat) (v : DWord) : (s.setStaged k v).clkStopped = s.clkStopped := rfl
@[simp] theorem State.setStaged_dlkAttempts (s : State) (k : Nat) (v : DWord) : (s.setStaged k v).dlkAttempts = s.dlkAttempts := rfl
@[simp] theorem State.setStaged_msixOn (s : State) (k : Nat) (v : DWord) : (s.setStaged k v).msixOn = s.msixOn := rfl
@[simp] theorem State.setStaged_msixMask (s : State) (k : Nat) (v : DWord) : (s.setStaged k v).msixMask = s.msixMask := rfl
@[simp] theorem State.setStaged_msixPend (s : State) (k : Nat) (v : DWord) : (s.setStaged k v).msixPend = s.msixPend := rfl
@[simp] theorem State.setStaged_fuses (s : State) (k : Nat) (v : DWord) : (s.setStaged k v).fuses = s.fuses := rfl
@[simp] theorem State.setStaged_weak (s : State) (k : Nat) (v : DWord) : (s.setStaged k v).weak = s.weak := rfl
@[simp] theorem State.setStaged_lcRun (s : State) (k : Nat) (v : DWord) : (s.setStaged k v).lcRun = s.lcRun := rfl
@[simp] theorem State.setStaged_boot (s : State) (k : Nat) (v : DWord) : (s.setStaged k v).boot = s.boot := rfl
@[simp] theorem State.setStaged_rails (s : State) (k : Nat) (v : DWord) : (s.setStaged k v).rails = s.rails := rfl
@[simp] theorem State.setStaged_vault (s : State) (k : Nat) (v : DWord) : (s.setStaged k v).vault = s.vault := rfl
@[simp] theorem State.setStaged_clerks (s : State) (k : Nat) (v : DWord) : (s.setStaged k v).clerks = s.clerks := rfl
@[simp] theorem State.setStaged_dumps (s : State) (k : Nat) (v : DWord) : (s.setStaged k v).dumps = s.dumps := rfl
@[simp] theorem State.setStaged_ports (s : State) (k : Nat) (v : DWord) : (s.setStaged k v).ports = s.ports := rfl
@[simp] theorem State.setStaged_logQueue (s : State) (k : Nat) (v : DWord) : (s.setStaged k v).logQueue = s.logQueue := rfl
@[simp] theorem State.setStaged_logLost (s : State) (k : Nat) (v : DWord) : (s.setStaged k v).logLost = s.logLost := rfl
@[simp] theorem State.setStaged_pairs (s : State) (k : Nat) (v : DWord) : (s.setStaged k v).pairs = s.pairs := rfl
@[simp] theorem State.setStaged_bmc (s : State) (k : Nat) (v : DWord) : (s.setStaged k v).bmc = s.bmc := rfl
@[simp] theorem State.setStaged_trace (s : State) (k : Nat) (v : DWord) : (s.setStaged k v).trace = s.trace := rfl
@[simp] theorem State.setStaged_spx (s : State) (k : Nat) (v : DWord) : (s.setStaged k v).spx = s.spx := rfl
@[simp] theorem State.setStaged_sensors (s : State) (k : Nat) (v : DWord) : (s.setStaged k v).sensors = s.sensors := rfl
@[simp] theorem State.setStaged_throttleLogged (s : State) (k : Nat) (v : DWord) : (s.setStaged k v).throttleLogged = s.throttleLogged := rfl
@[simp] theorem State.setStaged_coolSince (s : State) (k : Nat) (v : DWord) : (s.setStaged k v).coolSince = s.coolSince := rfl
@[simp] theorem State.setStaged_iccHigh (s : State) (k : Nat) (v : DWord) : (s.setStaged k v).iccHigh = s.iccHigh := rfl
@[simp] theorem State.setStaged_alertLow (s : State) (k : Nat) (v : DWord) : (s.setStaged k v).alertLow = s.alertLow := rfl
@[simp] theorem State.setStaged_currentSince (s : State) (k : Nat) (v : DWord) : (s.setStaged k v).currentSince = s.currentSince := rfl
@[simp] theorem State.setStaged_hbmFails (s : State) (k : Nat) (v : DWord) : (s.setStaged k v).hbmFails = s.hbmFails := rfl
@[simp] theorem State.setStaged_gated (s : State) (k : Nat) (v : DWord) : (s.setStaged k v).gated = s.gated := rfl
@[simp] theorem State.setStaged_loop (s : State) (k : Nat) (v : DWord) : (s.setStaged k v).loop = s.loop := rfl
@[simp] theorem State.setStaged_mem (s : State) (k : Nat) (v : DWord) : (s.setStaged k v).mem = s.mem := rfl
@[simp] theorem State.setStaged_poisonLine (s : State) (k : Nat) (v : DWord) : (s.setStaged k v).poisonLine = s.poisonLine := rfl
@[simp] theorem State.setStaged_poisonWord (s : State) (k : Nat) (v : DWord) : (s.setStaged k v).poisonWord = s.poisonWord := rfl
@[simp] theorem State.setStaged_errFifo (s : State) (k : Nat) (v : DWord) : (s.setStaged k v).errFifo = s.errFifo := rfl
@[simp] theorem State.setStaged_scrubPos (s : State) (k : Nat) (v : DWord) : (s.setStaged k v).scrubPos = s.scrubPos := rfl
@[simp] theorem State.setStaged_wipeVerify (s : State) (k : Nat) (v : DWord) : (s.setStaged k v).wipeVerify = s.wipeVerify := rfl
@[simp] theorem State.setStaged_wipeFill (s : State) (k : Nat) (v : DWord) : (s.setStaged k v).wipeFill = s.wipeFill := rfl
@[simp] theorem State.setStaged_woken (s : State) (k : Nat) (v : DWord) : (s.setStaged k v).woken = s.woken := rfl
@[simp] theorem State.setStaged_wakeOff (s : State) (k : Nat) (v : DWord) : (s.setStaged k v).wakeOff = s.wakeOff := rfl
@[simp] theorem State.setStaged_bankWait (s : State) (k : Nat) (v : DWord) : (s.setStaged k v).bankWait = s.bankWait := rfl
@[simp] theorem State.setStaged_hbmWait (s : State) (k : Nat) (v : DWord) : (s.setStaged k v).hbmWait = s.hbmWait := rfl
@[simp] theorem State.setStaged_ops (s : State) (k : Nat) (v : DWord) : (s.setStaged k v).ops = s.ops := rfl
@[simp] theorem State.setStaged_rings (s : State) (k : Nat) (v : DWord) : (s.setStaged k v).rings = s.rings := rfl
@[simp] theorem State.setStaged_contexts (s : State) (k : Nat) (v : DWord) : (s.setStaged k v).contexts = s.contexts := rfl
@[simp] theorem State.setStaged_tallies (s : State) (k : Nat) (v : DWord) : (s.setStaged k v).tallies = s.tallies := rfl
@[simp] theorem State.setStaged_mteLog (s : State) (k : Nat) (v : DWord) : (s.setStaged k v).mteLog = s.mteLog := rfl
@[simp] theorem State.setStaged_softRepairs (s : State) (k : Nat) (v : DWord) : (s.setStaged k v).softRepairs = s.softRepairs := rfl
@[simp] theorem State.setStaged_hardRepairs (s : State) (k : Nat) (v : DWord) : (s.setStaged k v).hardRepairs = s.hardRepairs := rfl
@[simp] theorem State.setStaged_scrub (s : State) (k : Nat) (v : DWord) : (s.setStaged k v).scrub = s.scrub := rfl
@[simp] theorem State.setStaged_txStreams (s : State) (k : Nat) (v : DWord) : (s.setStaged k v).txStreams = s.txStreams := rfl
@[simp] theorem State.setStaged_rxStreams (s : State) (k : Nat) (v : DWord) : (s.setStaged k v).rxStreams = s.rxStreams := rfl
@[simp] theorem State.setStaged_sessions (s : State) (k : Nat) (v : DWord) : (s.setStaged k v).sessions = s.sessions := rfl
@[simp] theorem State.setStaged_requests (s : State) (k : Nat) (v : DWord) : (s.setStaged k v).requests = s.requests := rfl
@[simp] theorem State.setStaged_inbox (s : State) (k : Nat) (v : DWord) : (s.setStaged k v).inbox = s.inbox := rfl
@[simp] theorem State.setStaged_groups (s : State) (k : Nat) (v : DWord) : (s.setStaged k v).groups = s.groups := rfl
@[simp] theorem State.setStaged_folios (s : State) (k : Nat) (v : DWord) : (s.setStaged k v).folios = s.folios := rfl
@[simp] theorem State.setStaged_pools (s : State) (k : Nat) (v : DWord) : (s.setStaged k v).pools = s.pools := rfl
@[simp] theorem State.setStaged_attends (s : State) (k : Nat) (v : DWord) : (s.setStaged k v).attends = s.attends := rfl
@[simp] theorem State.setStaged_steps (s : State) (k : Nat) (v : DWord) : (s.setStaged k v).steps = s.steps := rfl
@[simp] theorem State.setStaged_early (s : State) (k : Nat) (v : DWord) : (s.setStaged k v).early = s.early := rfl
@[simp] theorem State.setStaged_rosters (s : State) (k : Nat) (v : DWord) : (s.setStaged k v).rosters = s.rosters := rfl
@[simp] theorem State.setStaged_granules (s : State) (k : Nat) (v : DWord) : (s.setStaged k v).granules = s.granules := rfl
@[simp] theorem State.setStaged_mirrors (s : State) (k : Nat) (v : DWord) : (s.setStaged k v).mirrors = s.mirrors := rfl
@[simp] theorem State.setStaged_mirrored (s : State) (k : Nat) (v : DWord) : (s.setStaged k v).mirrored = s.mirrored := rfl
@[simp] theorem State.setStaged_commits (s : State) (k : Nat) (v : DWord) : (s.setStaged k v).commits = s.commits := rfl
@[simp] theorem State.setStaged_postWait (s : State) (k : Nat) (v : DWord) : (s.setStaged k v).postWait = s.postWait := rfl
@[simp] theorem State.setStaged_zeroRun (s : State) (k : Nat) (v : DWord) : (s.setStaged k v).zeroRun = s.zeroRun := rfl
@[simp] theorem State.setStaged_flrFill (s : State) (k : Nat) (v : DWord) : (s.setStaged k v).flrFill = s.flrFill := rfl
@[simp] theorem State.setStaged_epochAt (s : State) (k : Nat) (v : DWord) : (s.setStaged k v).epochAt = s.epochAt := rfl
@[simp] theorem State.setStaged_fports (s : State) (k : Nat) (v : DWord) : (s.setStaged k v).fports = s.fports := rfl
@[simp] theorem State.setStaged_goodOffsets (s : State) (k : Nat) (v : DWord) : (s.setStaged k v).goodOffsets = s.goodOffsets := rfl
@[simp] theorem State.setStaged_everSynced (s : State) (k : Nat) (v : DWord) : (s.setStaged k v).everSynced = s.everSynced := rfl
@[simp] theorem State.setStaged_lastCommit (s : State) (k : Nat) (v : DWord) : (s.setStaged k v).lastCommit = s.lastCommit := rfl
@[simp] theorem State.setStaged_unretired (s : State) (k : Nat) (v : DWord) : (s.setStaged k v).unretired = s.unretired := rfl
@[simp] theorem State.setStaged_computeRan (s : State) (k : Nat) (v : DWord) : (s.setStaged k v).computeRan = s.computeRan := rfl
@[simp] theorem State.setStaged_groupsOff (s : State) (k : Nat) (v : DWord) : (s.setStaged k v).groupsOff = s.groupsOff := rfl
@[simp] theorem State.setStaged_tripDriven (s : State) (k : Nat) (v : DWord) : (s.setStaged k v).tripDriven = s.tripDriven := rfl
@[simp] theorem State.setStaged_turns (s : State) (k : Nat) (v : DWord) : (s.setStaged k v).turns = s.turns := rfl
@[simp] theorem State.setStaged_mteRun (s : State) (k : Nat) (v : DWord) : (s.setStaged k v).mteRun = s.mteRun := rfl
@[simp] theorem State.setStaged_out (s : State) (k : Nat) (v : DWord) : (s.setStaged k v).out = s.out := rfl
@[simp] theorem State.setStaged_free (s : State) (k : Nat) (v : DWord) : (s.setStaged k v).free = s.free := rfl
@[simp] theorem State.setStaged_pending (s : State) (k : Nat) (v : DWord) : (s.setStaged k v).pending = s.pending := rfl

@[simp] theorem State.wr_staged (s : State) (f : Fld) (v : Nat) : (s.wr f v).staged = s.staged := rfl
@[simp] theorem State.wr_split (s : State) (f : Fld) (v : Nat) : (s.wr f v).split = s.split := rfl
@[simp] theorem State.wr_timeFine (s : State) (f : Fld) (v : Nat) : (s.wr f v).timeFine = s.timeFine := rfl
@[simp] theorem State.wr_uptime (s : State) (f : Fld) (v : Nat) : (s.wr f v).uptime = s.uptime := rfl
@[simp] theorem State.wr_slots (s : State) (f : Fld) (v : Nat) : (s.wr f v).slots = s.slots := rfl
@[simp] theorem State.wr_clkChange (s : State) (f : Fld) (v : Nat) : (s.wr f v).clkChange = s.clkChange := rfl
@[simp] theorem State.wr_clkStopped (s : State) (f : Fld) (v : Nat) : (s.wr f v).clkStopped = s.clkStopped := rfl
@[simp] theorem State.wr_dlkAttempts (s : State) (f : Fld) (v : Nat) : (s.wr f v).dlkAttempts = s.dlkAttempts := rfl
@[simp] theorem State.wr_msixOn (s : State) (f : Fld) (v : Nat) : (s.wr f v).msixOn = s.msixOn := rfl
@[simp] theorem State.wr_msixMask (s : State) (f : Fld) (v : Nat) : (s.wr f v).msixMask = s.msixMask := rfl
@[simp] theorem State.wr_msixPend (s : State) (f : Fld) (v : Nat) : (s.wr f v).msixPend = s.msixPend := rfl
@[simp] theorem State.wr_fuses (s : State) (f : Fld) (v : Nat) : (s.wr f v).fuses = s.fuses := rfl
@[simp] theorem State.wr_weak (s : State) (f : Fld) (v : Nat) : (s.wr f v).weak = s.weak := rfl
@[simp] theorem State.wr_lcRun (s : State) (f : Fld) (v : Nat) : (s.wr f v).lcRun = s.lcRun := rfl
@[simp] theorem State.wr_boot (s : State) (f : Fld) (v : Nat) : (s.wr f v).boot = s.boot := rfl
@[simp] theorem State.wr_rails (s : State) (f : Fld) (v : Nat) : (s.wr f v).rails = s.rails := rfl
@[simp] theorem State.wr_vault (s : State) (f : Fld) (v : Nat) : (s.wr f v).vault = s.vault := rfl
@[simp] theorem State.wr_clerks (s : State) (f : Fld) (v : Nat) : (s.wr f v).clerks = s.clerks := rfl
@[simp] theorem State.wr_dumps (s : State) (f : Fld) (v : Nat) : (s.wr f v).dumps = s.dumps := rfl
@[simp] theorem State.wr_ports (s : State) (f : Fld) (v : Nat) : (s.wr f v).ports = s.ports := rfl
@[simp] theorem State.wr_logQueue (s : State) (f : Fld) (v : Nat) : (s.wr f v).logQueue = s.logQueue := rfl
@[simp] theorem State.wr_logLost (s : State) (f : Fld) (v : Nat) : (s.wr f v).logLost = s.logLost := rfl
@[simp] theorem State.wr_pairs (s : State) (f : Fld) (v : Nat) : (s.wr f v).pairs = s.pairs := rfl
@[simp] theorem State.wr_bmc (s : State) (f : Fld) (v : Nat) : (s.wr f v).bmc = s.bmc := rfl
@[simp] theorem State.wr_trace (s : State) (f : Fld) (v : Nat) : (s.wr f v).trace = s.trace := rfl
@[simp] theorem State.wr_spx (s : State) (f : Fld) (v : Nat) : (s.wr f v).spx = s.spx := rfl
@[simp] theorem State.wr_sensors (s : State) (f : Fld) (v : Nat) : (s.wr f v).sensors = s.sensors := rfl
@[simp] theorem State.wr_throttleLogged (s : State) (f : Fld) (v : Nat) : (s.wr f v).throttleLogged = s.throttleLogged := rfl
@[simp] theorem State.wr_coolSince (s : State) (f : Fld) (v : Nat) : (s.wr f v).coolSince = s.coolSince := rfl
@[simp] theorem State.wr_iccHigh (s : State) (f : Fld) (v : Nat) : (s.wr f v).iccHigh = s.iccHigh := rfl
@[simp] theorem State.wr_alertLow (s : State) (f : Fld) (v : Nat) : (s.wr f v).alertLow = s.alertLow := rfl
@[simp] theorem State.wr_currentSince (s : State) (f : Fld) (v : Nat) : (s.wr f v).currentSince = s.currentSince := rfl
@[simp] theorem State.wr_hbmFails (s : State) (f : Fld) (v : Nat) : (s.wr f v).hbmFails = s.hbmFails := rfl
@[simp] theorem State.wr_gated (s : State) (f : Fld) (v : Nat) : (s.wr f v).gated = s.gated := rfl
@[simp] theorem State.wr_loop (s : State) (f : Fld) (v : Nat) : (s.wr f v).loop = s.loop := rfl
@[simp] theorem State.wr_mem (s : State) (f : Fld) (v : Nat) : (s.wr f v).mem = s.mem := rfl
@[simp] theorem State.wr_poisonLine (s : State) (f : Fld) (v : Nat) : (s.wr f v).poisonLine = s.poisonLine := rfl
@[simp] theorem State.wr_poisonWord (s : State) (f : Fld) (v : Nat) : (s.wr f v).poisonWord = s.poisonWord := rfl
@[simp] theorem State.wr_errFifo (s : State) (f : Fld) (v : Nat) : (s.wr f v).errFifo = s.errFifo := rfl
@[simp] theorem State.wr_scrubPos (s : State) (f : Fld) (v : Nat) : (s.wr f v).scrubPos = s.scrubPos := rfl
@[simp] theorem State.wr_wipeVerify (s : State) (f : Fld) (v : Nat) : (s.wr f v).wipeVerify = s.wipeVerify := rfl
@[simp] theorem State.wr_wipeFill (s : State) (f : Fld) (v : Nat) : (s.wr f v).wipeFill = s.wipeFill := rfl
@[simp] theorem State.wr_woken (s : State) (f : Fld) (v : Nat) : (s.wr f v).woken = s.woken := rfl
@[simp] theorem State.wr_wakeOff (s : State) (f : Fld) (v : Nat) : (s.wr f v).wakeOff = s.wakeOff := rfl
@[simp] theorem State.wr_bankWait (s : State) (f : Fld) (v : Nat) : (s.wr f v).bankWait = s.bankWait := rfl
@[simp] theorem State.wr_hbmWait (s : State) (f : Fld) (v : Nat) : (s.wr f v).hbmWait = s.hbmWait := rfl
@[simp] theorem State.wr_ops (s : State) (f : Fld) (v : Nat) : (s.wr f v).ops = s.ops := rfl
@[simp] theorem State.wr_rings (s : State) (f : Fld) (v : Nat) : (s.wr f v).rings = s.rings := rfl
@[simp] theorem State.wr_contexts (s : State) (f : Fld) (v : Nat) : (s.wr f v).contexts = s.contexts := rfl
@[simp] theorem State.wr_tallies (s : State) (f : Fld) (v : Nat) : (s.wr f v).tallies = s.tallies := rfl
@[simp] theorem State.wr_mteLog (s : State) (f : Fld) (v : Nat) : (s.wr f v).mteLog = s.mteLog := rfl
@[simp] theorem State.wr_softRepairs (s : State) (f : Fld) (v : Nat) : (s.wr f v).softRepairs = s.softRepairs := rfl
@[simp] theorem State.wr_hardRepairs (s : State) (f : Fld) (v : Nat) : (s.wr f v).hardRepairs = s.hardRepairs := rfl
@[simp] theorem State.wr_scrub (s : State) (f : Fld) (v : Nat) : (s.wr f v).scrub = s.scrub := rfl
@[simp] theorem State.wr_txStreams (s : State) (f : Fld) (v : Nat) : (s.wr f v).txStreams = s.txStreams := rfl
@[simp] theorem State.wr_rxStreams (s : State) (f : Fld) (v : Nat) : (s.wr f v).rxStreams = s.rxStreams := rfl
@[simp] theorem State.wr_sessions (s : State) (f : Fld) (v : Nat) : (s.wr f v).sessions = s.sessions := rfl
@[simp] theorem State.wr_requests (s : State) (f : Fld) (v : Nat) : (s.wr f v).requests = s.requests := rfl
@[simp] theorem State.wr_inbox (s : State) (f : Fld) (v : Nat) : (s.wr f v).inbox = s.inbox := rfl
@[simp] theorem State.wr_groups (s : State) (f : Fld) (v : Nat) : (s.wr f v).groups = s.groups := rfl
@[simp] theorem State.wr_folios (s : State) (f : Fld) (v : Nat) : (s.wr f v).folios = s.folios := rfl
@[simp] theorem State.wr_pools (s : State) (f : Fld) (v : Nat) : (s.wr f v).pools = s.pools := rfl
@[simp] theorem State.wr_attends (s : State) (f : Fld) (v : Nat) : (s.wr f v).attends = s.attends := rfl
@[simp] theorem State.wr_steps (s : State) (f : Fld) (v : Nat) : (s.wr f v).steps = s.steps := rfl
@[simp] theorem State.wr_early (s : State) (f : Fld) (v : Nat) : (s.wr f v).early = s.early := rfl
@[simp] theorem State.wr_rosters (s : State) (f : Fld) (v : Nat) : (s.wr f v).rosters = s.rosters := rfl
@[simp] theorem State.wr_granules (s : State) (f : Fld) (v : Nat) : (s.wr f v).granules = s.granules := rfl
@[simp] theorem State.wr_mirrors (s : State) (f : Fld) (v : Nat) : (s.wr f v).mirrors = s.mirrors := rfl
@[simp] theorem State.wr_mirrored (s : State) (f : Fld) (v : Nat) : (s.wr f v).mirrored = s.mirrored := rfl
@[simp] theorem State.wr_commits (s : State) (f : Fld) (v : Nat) : (s.wr f v).commits = s.commits := rfl
@[simp] theorem State.wr_postWait (s : State) (f : Fld) (v : Nat) : (s.wr f v).postWait = s.postWait := rfl
@[simp] theorem State.wr_zeroRun (s : State) (f : Fld) (v : Nat) : (s.wr f v).zeroRun = s.zeroRun := rfl
@[simp] theorem State.wr_flrFill (s : State) (f : Fld) (v : Nat) : (s.wr f v).flrFill = s.flrFill := rfl
@[simp] theorem State.wr_epochAt (s : State) (f : Fld) (v : Nat) : (s.wr f v).epochAt = s.epochAt := rfl
@[simp] theorem State.wr_fports (s : State) (f : Fld) (v : Nat) : (s.wr f v).fports = s.fports := rfl
@[simp] theorem State.wr_goodOffsets (s : State) (f : Fld) (v : Nat) : (s.wr f v).goodOffsets = s.goodOffsets := rfl
@[simp] theorem State.wr_everSynced (s : State) (f : Fld) (v : Nat) : (s.wr f v).everSynced = s.everSynced := rfl
@[simp] theorem State.wr_lastCommit (s : State) (f : Fld) (v : Nat) : (s.wr f v).lastCommit = s.lastCommit := rfl
@[simp] theorem State.wr_unretired (s : State) (f : Fld) (v : Nat) : (s.wr f v).unretired = s.unretired := rfl
@[simp] theorem State.wr_computeRan (s : State) (f : Fld) (v : Nat) : (s.wr f v).computeRan = s.computeRan := rfl
@[simp] theorem State.wr_groupsOff (s : State) (f : Fld) (v : Nat) : (s.wr f v).groupsOff = s.groupsOff := rfl
@[simp] theorem State.wr_tripDriven (s : State) (f : Fld) (v : Nat) : (s.wr f v).tripDriven = s.tripDriven := rfl
@[simp] theorem State.wr_turns (s : State) (f : Fld) (v : Nat) : (s.wr f v).turns = s.turns := rfl
@[simp] theorem State.wr_mteRun (s : State) (f : Fld) (v : Nat) : (s.wr f v).mteRun = s.mteRun := rfl
@[simp] theorem State.wr_out (s : State) (f : Fld) (v : Nat) : (s.wr f v).out = s.out := rfl
@[simp] theorem State.wr_free (s : State) (f : Fld) (v : Nat) : (s.wr f v).free = s.free := rfl
@[simp] theorem State.wr_pending (s : State) (f : Fld) (v : Nat) : (s.wr f v).pending = s.pending := rfl

@[simp] theorem State.wrb_staged (s : State) (f : Fld) (b : Bool) : (s.wrb f b).staged = s.staged := rfl
@[simp] theorem State.wrb_split (s : State) (f : Fld) (b : Bool) : (s.wrb f b).split = s.split := rfl
@[simp] theorem State.wrb_timeFine (s : State) (f : Fld) (b : Bool) : (s.wrb f b).timeFine = s.timeFine := rfl
@[simp] theorem State.wrb_uptime (s : State) (f : Fld) (b : Bool) : (s.wrb f b).uptime = s.uptime := rfl
@[simp] theorem State.wrb_slots (s : State) (f : Fld) (b : Bool) : (s.wrb f b).slots = s.slots := rfl
@[simp] theorem State.wrb_clkChange (s : State) (f : Fld) (b : Bool) : (s.wrb f b).clkChange = s.clkChange := rfl
@[simp] theorem State.wrb_clkStopped (s : State) (f : Fld) (b : Bool) : (s.wrb f b).clkStopped = s.clkStopped := rfl
@[simp] theorem State.wrb_dlkAttempts (s : State) (f : Fld) (b : Bool) : (s.wrb f b).dlkAttempts = s.dlkAttempts := rfl
@[simp] theorem State.wrb_msixOn (s : State) (f : Fld) (b : Bool) : (s.wrb f b).msixOn = s.msixOn := rfl
@[simp] theorem State.wrb_msixMask (s : State) (f : Fld) (b : Bool) : (s.wrb f b).msixMask = s.msixMask := rfl
@[simp] theorem State.wrb_msixPend (s : State) (f : Fld) (b : Bool) : (s.wrb f b).msixPend = s.msixPend := rfl
@[simp] theorem State.wrb_fuses (s : State) (f : Fld) (b : Bool) : (s.wrb f b).fuses = s.fuses := rfl
@[simp] theorem State.wrb_weak (s : State) (f : Fld) (b : Bool) : (s.wrb f b).weak = s.weak := rfl
@[simp] theorem State.wrb_lcRun (s : State) (f : Fld) (b : Bool) : (s.wrb f b).lcRun = s.lcRun := rfl
@[simp] theorem State.wrb_boot (s : State) (f : Fld) (b : Bool) : (s.wrb f b).boot = s.boot := rfl
@[simp] theorem State.wrb_rails (s : State) (f : Fld) (b : Bool) : (s.wrb f b).rails = s.rails := rfl
@[simp] theorem State.wrb_vault (s : State) (f : Fld) (b : Bool) : (s.wrb f b).vault = s.vault := rfl
@[simp] theorem State.wrb_clerks (s : State) (f : Fld) (b : Bool) : (s.wrb f b).clerks = s.clerks := rfl
@[simp] theorem State.wrb_dumps (s : State) (f : Fld) (b : Bool) : (s.wrb f b).dumps = s.dumps := rfl
@[simp] theorem State.wrb_ports (s : State) (f : Fld) (b : Bool) : (s.wrb f b).ports = s.ports := rfl
@[simp] theorem State.wrb_logQueue (s : State) (f : Fld) (b : Bool) : (s.wrb f b).logQueue = s.logQueue := rfl
@[simp] theorem State.wrb_logLost (s : State) (f : Fld) (b : Bool) : (s.wrb f b).logLost = s.logLost := rfl
@[simp] theorem State.wrb_pairs (s : State) (f : Fld) (b : Bool) : (s.wrb f b).pairs = s.pairs := rfl
@[simp] theorem State.wrb_bmc (s : State) (f : Fld) (b : Bool) : (s.wrb f b).bmc = s.bmc := rfl
@[simp] theorem State.wrb_trace (s : State) (f : Fld) (b : Bool) : (s.wrb f b).trace = s.trace := rfl
@[simp] theorem State.wrb_spx (s : State) (f : Fld) (b : Bool) : (s.wrb f b).spx = s.spx := rfl
@[simp] theorem State.wrb_sensors (s : State) (f : Fld) (b : Bool) : (s.wrb f b).sensors = s.sensors := rfl
@[simp] theorem State.wrb_throttleLogged (s : State) (f : Fld) (b : Bool) : (s.wrb f b).throttleLogged = s.throttleLogged := rfl
@[simp] theorem State.wrb_coolSince (s : State) (f : Fld) (b : Bool) : (s.wrb f b).coolSince = s.coolSince := rfl
@[simp] theorem State.wrb_iccHigh (s : State) (f : Fld) (b : Bool) : (s.wrb f b).iccHigh = s.iccHigh := rfl
@[simp] theorem State.wrb_alertLow (s : State) (f : Fld) (b : Bool) : (s.wrb f b).alertLow = s.alertLow := rfl
@[simp] theorem State.wrb_currentSince (s : State) (f : Fld) (b : Bool) : (s.wrb f b).currentSince = s.currentSince := rfl
@[simp] theorem State.wrb_hbmFails (s : State) (f : Fld) (b : Bool) : (s.wrb f b).hbmFails = s.hbmFails := rfl
@[simp] theorem State.wrb_gated (s : State) (f : Fld) (b : Bool) : (s.wrb f b).gated = s.gated := rfl
@[simp] theorem State.wrb_loop (s : State) (f : Fld) (b : Bool) : (s.wrb f b).loop = s.loop := rfl
@[simp] theorem State.wrb_mem (s : State) (f : Fld) (b : Bool) : (s.wrb f b).mem = s.mem := rfl
@[simp] theorem State.wrb_poisonLine (s : State) (f : Fld) (b : Bool) : (s.wrb f b).poisonLine = s.poisonLine := rfl
@[simp] theorem State.wrb_poisonWord (s : State) (f : Fld) (b : Bool) : (s.wrb f b).poisonWord = s.poisonWord := rfl
@[simp] theorem State.wrb_errFifo (s : State) (f : Fld) (b : Bool) : (s.wrb f b).errFifo = s.errFifo := rfl
@[simp] theorem State.wrb_scrubPos (s : State) (f : Fld) (b : Bool) : (s.wrb f b).scrubPos = s.scrubPos := rfl
@[simp] theorem State.wrb_wipeVerify (s : State) (f : Fld) (b : Bool) : (s.wrb f b).wipeVerify = s.wipeVerify := rfl
@[simp] theorem State.wrb_wipeFill (s : State) (f : Fld) (b : Bool) : (s.wrb f b).wipeFill = s.wipeFill := rfl
@[simp] theorem State.wrb_woken (s : State) (f : Fld) (b : Bool) : (s.wrb f b).woken = s.woken := rfl
@[simp] theorem State.wrb_wakeOff (s : State) (f : Fld) (b : Bool) : (s.wrb f b).wakeOff = s.wakeOff := rfl
@[simp] theorem State.wrb_bankWait (s : State) (f : Fld) (b : Bool) : (s.wrb f b).bankWait = s.bankWait := rfl
@[simp] theorem State.wrb_hbmWait (s : State) (f : Fld) (b : Bool) : (s.wrb f b).hbmWait = s.hbmWait := rfl
@[simp] theorem State.wrb_ops (s : State) (f : Fld) (b : Bool) : (s.wrb f b).ops = s.ops := rfl
@[simp] theorem State.wrb_rings (s : State) (f : Fld) (b : Bool) : (s.wrb f b).rings = s.rings := rfl
@[simp] theorem State.wrb_contexts (s : State) (f : Fld) (b : Bool) : (s.wrb f b).contexts = s.contexts := rfl
@[simp] theorem State.wrb_tallies (s : State) (f : Fld) (b : Bool) : (s.wrb f b).tallies = s.tallies := rfl
@[simp] theorem State.wrb_mteLog (s : State) (f : Fld) (b : Bool) : (s.wrb f b).mteLog = s.mteLog := rfl
@[simp] theorem State.wrb_softRepairs (s : State) (f : Fld) (b : Bool) : (s.wrb f b).softRepairs = s.softRepairs := rfl
@[simp] theorem State.wrb_hardRepairs (s : State) (f : Fld) (b : Bool) : (s.wrb f b).hardRepairs = s.hardRepairs := rfl
@[simp] theorem State.wrb_scrub (s : State) (f : Fld) (b : Bool) : (s.wrb f b).scrub = s.scrub := rfl
@[simp] theorem State.wrb_txStreams (s : State) (f : Fld) (b : Bool) : (s.wrb f b).txStreams = s.txStreams := rfl
@[simp] theorem State.wrb_rxStreams (s : State) (f : Fld) (b : Bool) : (s.wrb f b).rxStreams = s.rxStreams := rfl
@[simp] theorem State.wrb_sessions (s : State) (f : Fld) (b : Bool) : (s.wrb f b).sessions = s.sessions := rfl
@[simp] theorem State.wrb_requests (s : State) (f : Fld) (b : Bool) : (s.wrb f b).requests = s.requests := rfl
@[simp] theorem State.wrb_inbox (s : State) (f : Fld) (b : Bool) : (s.wrb f b).inbox = s.inbox := rfl
@[simp] theorem State.wrb_groups (s : State) (f : Fld) (b : Bool) : (s.wrb f b).groups = s.groups := rfl
@[simp] theorem State.wrb_folios (s : State) (f : Fld) (b : Bool) : (s.wrb f b).folios = s.folios := rfl
@[simp] theorem State.wrb_pools (s : State) (f : Fld) (b : Bool) : (s.wrb f b).pools = s.pools := rfl
@[simp] theorem State.wrb_attends (s : State) (f : Fld) (b : Bool) : (s.wrb f b).attends = s.attends := rfl
@[simp] theorem State.wrb_steps (s : State) (f : Fld) (b : Bool) : (s.wrb f b).steps = s.steps := rfl
@[simp] theorem State.wrb_early (s : State) (f : Fld) (b : Bool) : (s.wrb f b).early = s.early := rfl
@[simp] theorem State.wrb_rosters (s : State) (f : Fld) (b : Bool) : (s.wrb f b).rosters = s.rosters := rfl
@[simp] theorem State.wrb_granules (s : State) (f : Fld) (b : Bool) : (s.wrb f b).granules = s.granules := rfl
@[simp] theorem State.wrb_mirrors (s : State) (f : Fld) (b : Bool) : (s.wrb f b).mirrors = s.mirrors := rfl
@[simp] theorem State.wrb_mirrored (s : State) (f : Fld) (b : Bool) : (s.wrb f b).mirrored = s.mirrored := rfl
@[simp] theorem State.wrb_commits (s : State) (f : Fld) (b : Bool) : (s.wrb f b).commits = s.commits := rfl
@[simp] theorem State.wrb_postWait (s : State) (f : Fld) (b : Bool) : (s.wrb f b).postWait = s.postWait := rfl
@[simp] theorem State.wrb_zeroRun (s : State) (f : Fld) (b : Bool) : (s.wrb f b).zeroRun = s.zeroRun := rfl
@[simp] theorem State.wrb_flrFill (s : State) (f : Fld) (b : Bool) : (s.wrb f b).flrFill = s.flrFill := rfl
@[simp] theorem State.wrb_epochAt (s : State) (f : Fld) (b : Bool) : (s.wrb f b).epochAt = s.epochAt := rfl
@[simp] theorem State.wrb_fports (s : State) (f : Fld) (b : Bool) : (s.wrb f b).fports = s.fports := rfl
@[simp] theorem State.wrb_goodOffsets (s : State) (f : Fld) (b : Bool) : (s.wrb f b).goodOffsets = s.goodOffsets := rfl
@[simp] theorem State.wrb_everSynced (s : State) (f : Fld) (b : Bool) : (s.wrb f b).everSynced = s.everSynced := rfl
@[simp] theorem State.wrb_lastCommit (s : State) (f : Fld) (b : Bool) : (s.wrb f b).lastCommit = s.lastCommit := rfl
@[simp] theorem State.wrb_unretired (s : State) (f : Fld) (b : Bool) : (s.wrb f b).unretired = s.unretired := rfl
@[simp] theorem State.wrb_computeRan (s : State) (f : Fld) (b : Bool) : (s.wrb f b).computeRan = s.computeRan := rfl
@[simp] theorem State.wrb_groupsOff (s : State) (f : Fld) (b : Bool) : (s.wrb f b).groupsOff = s.groupsOff := rfl
@[simp] theorem State.wrb_tripDriven (s : State) (f : Fld) (b : Bool) : (s.wrb f b).tripDriven = s.tripDriven := rfl
@[simp] theorem State.wrb_turns (s : State) (f : Fld) (b : Bool) : (s.wrb f b).turns = s.turns := rfl
@[simp] theorem State.wrb_mteRun (s : State) (f : Fld) (b : Bool) : (s.wrb f b).mteRun = s.mteRun := rfl
@[simp] theorem State.wrb_out (s : State) (f : Fld) (b : Bool) : (s.wrb f b).out = s.out := rfl
@[simp] theorem State.wrb_free (s : State) (f : Fld) (b : Bool) : (s.wrb f b).free = s.free := rfl
@[simp] theorem State.wrb_pending (s : State) (f : Fld) (b : Bool) : (s.wrb f b).pending = s.pending := rfl

@[simp] theorem State.emit_regs (s : State) (o : Out) : (s.emit o).regs = s.regs := rfl
@[simp] theorem State.emit_staged (s : State) (o : Out) : (s.emit o).staged = s.staged := rfl
@[simp] theorem State.emit_split (s : State) (o : Out) : (s.emit o).split = s.split := rfl
@[simp] theorem State.emit_timeFine (s : State) (o : Out) : (s.emit o).timeFine = s.timeFine := rfl
@[simp] theorem State.emit_uptime (s : State) (o : Out) : (s.emit o).uptime = s.uptime := rfl
@[simp] theorem State.emit_slots (s : State) (o : Out) : (s.emit o).slots = s.slots := rfl
@[simp] theorem State.emit_clkChange (s : State) (o : Out) : (s.emit o).clkChange = s.clkChange := rfl
@[simp] theorem State.emit_clkStopped (s : State) (o : Out) : (s.emit o).clkStopped = s.clkStopped := rfl
@[simp] theorem State.emit_dlkAttempts (s : State) (o : Out) : (s.emit o).dlkAttempts = s.dlkAttempts := rfl
@[simp] theorem State.emit_msixOn (s : State) (o : Out) : (s.emit o).msixOn = s.msixOn := rfl
@[simp] theorem State.emit_msixMask (s : State) (o : Out) : (s.emit o).msixMask = s.msixMask := rfl
@[simp] theorem State.emit_msixPend (s : State) (o : Out) : (s.emit o).msixPend = s.msixPend := rfl
@[simp] theorem State.emit_fuses (s : State) (o : Out) : (s.emit o).fuses = s.fuses := rfl
@[simp] theorem State.emit_weak (s : State) (o : Out) : (s.emit o).weak = s.weak := rfl
@[simp] theorem State.emit_lcRun (s : State) (o : Out) : (s.emit o).lcRun = s.lcRun := rfl
@[simp] theorem State.emit_boot (s : State) (o : Out) : (s.emit o).boot = s.boot := rfl
@[simp] theorem State.emit_rails (s : State) (o : Out) : (s.emit o).rails = s.rails := rfl
@[simp] theorem State.emit_vault (s : State) (o : Out) : (s.emit o).vault = s.vault := rfl
@[simp] theorem State.emit_clerks (s : State) (o : Out) : (s.emit o).clerks = s.clerks := rfl
@[simp] theorem State.emit_dumps (s : State) (o : Out) : (s.emit o).dumps = s.dumps := rfl
@[simp] theorem State.emit_ports (s : State) (o : Out) : (s.emit o).ports = s.ports := rfl
@[simp] theorem State.emit_logQueue (s : State) (o : Out) : (s.emit o).logQueue = s.logQueue := rfl
@[simp] theorem State.emit_logLost (s : State) (o : Out) : (s.emit o).logLost = s.logLost := rfl
@[simp] theorem State.emit_pairs (s : State) (o : Out) : (s.emit o).pairs = s.pairs := rfl
@[simp] theorem State.emit_bmc (s : State) (o : Out) : (s.emit o).bmc = s.bmc := rfl
@[simp] theorem State.emit_trace (s : State) (o : Out) : (s.emit o).trace = s.trace := rfl
@[simp] theorem State.emit_spx (s : State) (o : Out) : (s.emit o).spx = s.spx := rfl
@[simp] theorem State.emit_sensors (s : State) (o : Out) : (s.emit o).sensors = s.sensors := rfl
@[simp] theorem State.emit_throttleLogged (s : State) (o : Out) : (s.emit o).throttleLogged = s.throttleLogged := rfl
@[simp] theorem State.emit_coolSince (s : State) (o : Out) : (s.emit o).coolSince = s.coolSince := rfl
@[simp] theorem State.emit_iccHigh (s : State) (o : Out) : (s.emit o).iccHigh = s.iccHigh := rfl
@[simp] theorem State.emit_alertLow (s : State) (o : Out) : (s.emit o).alertLow = s.alertLow := rfl
@[simp] theorem State.emit_currentSince (s : State) (o : Out) : (s.emit o).currentSince = s.currentSince := rfl
@[simp] theorem State.emit_hbmFails (s : State) (o : Out) : (s.emit o).hbmFails = s.hbmFails := rfl
@[simp] theorem State.emit_gated (s : State) (o : Out) : (s.emit o).gated = s.gated := rfl
@[simp] theorem State.emit_loop (s : State) (o : Out) : (s.emit o).loop = s.loop := rfl
@[simp] theorem State.emit_mem (s : State) (o : Out) : (s.emit o).mem = s.mem := rfl
@[simp] theorem State.emit_poisonLine (s : State) (o : Out) : (s.emit o).poisonLine = s.poisonLine := rfl
@[simp] theorem State.emit_poisonWord (s : State) (o : Out) : (s.emit o).poisonWord = s.poisonWord := rfl
@[simp] theorem State.emit_errFifo (s : State) (o : Out) : (s.emit o).errFifo = s.errFifo := rfl
@[simp] theorem State.emit_scrubPos (s : State) (o : Out) : (s.emit o).scrubPos = s.scrubPos := rfl
@[simp] theorem State.emit_wipeVerify (s : State) (o : Out) : (s.emit o).wipeVerify = s.wipeVerify := rfl
@[simp] theorem State.emit_wipeFill (s : State) (o : Out) : (s.emit o).wipeFill = s.wipeFill := rfl
@[simp] theorem State.emit_woken (s : State) (o : Out) : (s.emit o).woken = s.woken := rfl
@[simp] theorem State.emit_wakeOff (s : State) (o : Out) : (s.emit o).wakeOff = s.wakeOff := rfl
@[simp] theorem State.emit_bankWait (s : State) (o : Out) : (s.emit o).bankWait = s.bankWait := rfl
@[simp] theorem State.emit_hbmWait (s : State) (o : Out) : (s.emit o).hbmWait = s.hbmWait := rfl
@[simp] theorem State.emit_ops (s : State) (o : Out) : (s.emit o).ops = s.ops := rfl
@[simp] theorem State.emit_rings (s : State) (o : Out) : (s.emit o).rings = s.rings := rfl
@[simp] theorem State.emit_contexts (s : State) (o : Out) : (s.emit o).contexts = s.contexts := rfl
@[simp] theorem State.emit_tallies (s : State) (o : Out) : (s.emit o).tallies = s.tallies := rfl
@[simp] theorem State.emit_mteLog (s : State) (o : Out) : (s.emit o).mteLog = s.mteLog := rfl
@[simp] theorem State.emit_softRepairs (s : State) (o : Out) : (s.emit o).softRepairs = s.softRepairs := rfl
@[simp] theorem State.emit_hardRepairs (s : State) (o : Out) : (s.emit o).hardRepairs = s.hardRepairs := rfl
@[simp] theorem State.emit_scrub (s : State) (o : Out) : (s.emit o).scrub = s.scrub := rfl
@[simp] theorem State.emit_txStreams (s : State) (o : Out) : (s.emit o).txStreams = s.txStreams := rfl
@[simp] theorem State.emit_rxStreams (s : State) (o : Out) : (s.emit o).rxStreams = s.rxStreams := rfl
@[simp] theorem State.emit_sessions (s : State) (o : Out) : (s.emit o).sessions = s.sessions := rfl
@[simp] theorem State.emit_requests (s : State) (o : Out) : (s.emit o).requests = s.requests := rfl
@[simp] theorem State.emit_inbox (s : State) (o : Out) : (s.emit o).inbox = s.inbox := rfl
@[simp] theorem State.emit_groups (s : State) (o : Out) : (s.emit o).groups = s.groups := rfl
@[simp] theorem State.emit_folios (s : State) (o : Out) : (s.emit o).folios = s.folios := rfl
@[simp] theorem State.emit_pools (s : State) (o : Out) : (s.emit o).pools = s.pools := rfl
@[simp] theorem State.emit_attends (s : State) (o : Out) : (s.emit o).attends = s.attends := rfl
@[simp] theorem State.emit_steps (s : State) (o : Out) : (s.emit o).steps = s.steps := rfl
@[simp] theorem State.emit_early (s : State) (o : Out) : (s.emit o).early = s.early := rfl
@[simp] theorem State.emit_rosters (s : State) (o : Out) : (s.emit o).rosters = s.rosters := rfl
@[simp] theorem State.emit_granules (s : State) (o : Out) : (s.emit o).granules = s.granules := rfl
@[simp] theorem State.emit_mirrors (s : State) (o : Out) : (s.emit o).mirrors = s.mirrors := rfl
@[simp] theorem State.emit_mirrored (s : State) (o : Out) : (s.emit o).mirrored = s.mirrored := rfl
@[simp] theorem State.emit_commits (s : State) (o : Out) : (s.emit o).commits = s.commits := rfl
@[simp] theorem State.emit_postWait (s : State) (o : Out) : (s.emit o).postWait = s.postWait := rfl
@[simp] theorem State.emit_zeroRun (s : State) (o : Out) : (s.emit o).zeroRun = s.zeroRun := rfl
@[simp] theorem State.emit_flrFill (s : State) (o : Out) : (s.emit o).flrFill = s.flrFill := rfl
@[simp] theorem State.emit_epochAt (s : State) (o : Out) : (s.emit o).epochAt = s.epochAt := rfl
@[simp] theorem State.emit_fports (s : State) (o : Out) : (s.emit o).fports = s.fports := rfl
@[simp] theorem State.emit_goodOffsets (s : State) (o : Out) : (s.emit o).goodOffsets = s.goodOffsets := rfl
@[simp] theorem State.emit_everSynced (s : State) (o : Out) : (s.emit o).everSynced = s.everSynced := rfl
@[simp] theorem State.emit_lastCommit (s : State) (o : Out) : (s.emit o).lastCommit = s.lastCommit := rfl
@[simp] theorem State.emit_unretired (s : State) (o : Out) : (s.emit o).unretired = s.unretired := rfl
@[simp] theorem State.emit_computeRan (s : State) (o : Out) : (s.emit o).computeRan = s.computeRan := rfl
@[simp] theorem State.emit_groupsOff (s : State) (o : Out) : (s.emit o).groupsOff = s.groupsOff := rfl
@[simp] theorem State.emit_tripDriven (s : State) (o : Out) : (s.emit o).tripDriven = s.tripDriven := rfl
@[simp] theorem State.emit_turns (s : State) (o : Out) : (s.emit o).turns = s.turns := rfl
@[simp] theorem State.emit_mteRun (s : State) (o : Out) : (s.emit o).mteRun = s.mteRun := rfl
@[simp] theorem State.emit_free (s : State) (o : Out) : (s.emit o).free = s.free := rfl
@[simp] theorem State.emit_pending (s : State) (o : Out) : (s.emit o).pending = s.pending := rfl

@[simp] theorem State.skipFree_regs (s : State) (n : Nat) : (s.skipFree n).regs = s.regs := rfl
@[simp] theorem State.skipFree_staged (s : State) (n : Nat) : (s.skipFree n).staged = s.staged := rfl
@[simp] theorem State.skipFree_split (s : State) (n : Nat) : (s.skipFree n).split = s.split := rfl
@[simp] theorem State.skipFree_timeFine (s : State) (n : Nat) : (s.skipFree n).timeFine = s.timeFine := rfl
@[simp] theorem State.skipFree_uptime (s : State) (n : Nat) : (s.skipFree n).uptime = s.uptime := rfl
@[simp] theorem State.skipFree_slots (s : State) (n : Nat) : (s.skipFree n).slots = s.slots := rfl
@[simp] theorem State.skipFree_clkChange (s : State) (n : Nat) : (s.skipFree n).clkChange = s.clkChange := rfl
@[simp] theorem State.skipFree_clkStopped (s : State) (n : Nat) : (s.skipFree n).clkStopped = s.clkStopped := rfl
@[simp] theorem State.skipFree_dlkAttempts (s : State) (n : Nat) : (s.skipFree n).dlkAttempts = s.dlkAttempts := rfl
@[simp] theorem State.skipFree_msixOn (s : State) (n : Nat) : (s.skipFree n).msixOn = s.msixOn := rfl
@[simp] theorem State.skipFree_msixMask (s : State) (n : Nat) : (s.skipFree n).msixMask = s.msixMask := rfl
@[simp] theorem State.skipFree_msixPend (s : State) (n : Nat) : (s.skipFree n).msixPend = s.msixPend := rfl
@[simp] theorem State.skipFree_fuses (s : State) (n : Nat) : (s.skipFree n).fuses = s.fuses := rfl
@[simp] theorem State.skipFree_weak (s : State) (n : Nat) : (s.skipFree n).weak = s.weak := rfl
@[simp] theorem State.skipFree_lcRun (s : State) (n : Nat) : (s.skipFree n).lcRun = s.lcRun := rfl
@[simp] theorem State.skipFree_boot (s : State) (n : Nat) : (s.skipFree n).boot = s.boot := rfl
@[simp] theorem State.skipFree_rails (s : State) (n : Nat) : (s.skipFree n).rails = s.rails := rfl
@[simp] theorem State.skipFree_vault (s : State) (n : Nat) : (s.skipFree n).vault = s.vault := rfl
@[simp] theorem State.skipFree_clerks (s : State) (n : Nat) : (s.skipFree n).clerks = s.clerks := rfl
@[simp] theorem State.skipFree_dumps (s : State) (n : Nat) : (s.skipFree n).dumps = s.dumps := rfl
@[simp] theorem State.skipFree_ports (s : State) (n : Nat) : (s.skipFree n).ports = s.ports := rfl
@[simp] theorem State.skipFree_logQueue (s : State) (n : Nat) : (s.skipFree n).logQueue = s.logQueue := rfl
@[simp] theorem State.skipFree_logLost (s : State) (n : Nat) : (s.skipFree n).logLost = s.logLost := rfl
@[simp] theorem State.skipFree_pairs (s : State) (n : Nat) : (s.skipFree n).pairs = s.pairs := rfl
@[simp] theorem State.skipFree_bmc (s : State) (n : Nat) : (s.skipFree n).bmc = s.bmc := rfl
@[simp] theorem State.skipFree_trace (s : State) (n : Nat) : (s.skipFree n).trace = s.trace := rfl
@[simp] theorem State.skipFree_spx (s : State) (n : Nat) : (s.skipFree n).spx = s.spx := rfl
@[simp] theorem State.skipFree_sensors (s : State) (n : Nat) : (s.skipFree n).sensors = s.sensors := rfl
@[simp] theorem State.skipFree_throttleLogged (s : State) (n : Nat) : (s.skipFree n).throttleLogged = s.throttleLogged := rfl
@[simp] theorem State.skipFree_coolSince (s : State) (n : Nat) : (s.skipFree n).coolSince = s.coolSince := rfl
@[simp] theorem State.skipFree_iccHigh (s : State) (n : Nat) : (s.skipFree n).iccHigh = s.iccHigh := rfl
@[simp] theorem State.skipFree_alertLow (s : State) (n : Nat) : (s.skipFree n).alertLow = s.alertLow := rfl
@[simp] theorem State.skipFree_currentSince (s : State) (n : Nat) : (s.skipFree n).currentSince = s.currentSince := rfl
@[simp] theorem State.skipFree_hbmFails (s : State) (n : Nat) : (s.skipFree n).hbmFails = s.hbmFails := rfl
@[simp] theorem State.skipFree_gated (s : State) (n : Nat) : (s.skipFree n).gated = s.gated := rfl
@[simp] theorem State.skipFree_loop (s : State) (n : Nat) : (s.skipFree n).loop = s.loop := rfl
@[simp] theorem State.skipFree_mem (s : State) (n : Nat) : (s.skipFree n).mem = s.mem := rfl
@[simp] theorem State.skipFree_poisonLine (s : State) (n : Nat) : (s.skipFree n).poisonLine = s.poisonLine := rfl
@[simp] theorem State.skipFree_poisonWord (s : State) (n : Nat) : (s.skipFree n).poisonWord = s.poisonWord := rfl
@[simp] theorem State.skipFree_errFifo (s : State) (n : Nat) : (s.skipFree n).errFifo = s.errFifo := rfl
@[simp] theorem State.skipFree_scrubPos (s : State) (n : Nat) : (s.skipFree n).scrubPos = s.scrubPos := rfl
@[simp] theorem State.skipFree_wipeVerify (s : State) (n : Nat) : (s.skipFree n).wipeVerify = s.wipeVerify := rfl
@[simp] theorem State.skipFree_wipeFill (s : State) (n : Nat) : (s.skipFree n).wipeFill = s.wipeFill := rfl
@[simp] theorem State.skipFree_woken (s : State) (n : Nat) : (s.skipFree n).woken = s.woken := rfl
@[simp] theorem State.skipFree_wakeOff (s : State) (n : Nat) : (s.skipFree n).wakeOff = s.wakeOff := rfl
@[simp] theorem State.skipFree_bankWait (s : State) (n : Nat) : (s.skipFree n).bankWait = s.bankWait := rfl
@[simp] theorem State.skipFree_hbmWait (s : State) (n : Nat) : (s.skipFree n).hbmWait = s.hbmWait := rfl
@[simp] theorem State.skipFree_ops (s : State) (n : Nat) : (s.skipFree n).ops = s.ops := rfl
@[simp] theorem State.skipFree_rings (s : State) (n : Nat) : (s.skipFree n).rings = s.rings := rfl
@[simp] theorem State.skipFree_contexts (s : State) (n : Nat) : (s.skipFree n).contexts = s.contexts := rfl
@[simp] theorem State.skipFree_tallies (s : State) (n : Nat) : (s.skipFree n).tallies = s.tallies := rfl
@[simp] theorem State.skipFree_mteLog (s : State) (n : Nat) : (s.skipFree n).mteLog = s.mteLog := rfl
@[simp] theorem State.skipFree_softRepairs (s : State) (n : Nat) : (s.skipFree n).softRepairs = s.softRepairs := rfl
@[simp] theorem State.skipFree_hardRepairs (s : State) (n : Nat) : (s.skipFree n).hardRepairs = s.hardRepairs := rfl
@[simp] theorem State.skipFree_scrub (s : State) (n : Nat) : (s.skipFree n).scrub = s.scrub := rfl
@[simp] theorem State.skipFree_txStreams (s : State) (n : Nat) : (s.skipFree n).txStreams = s.txStreams := rfl
@[simp] theorem State.skipFree_rxStreams (s : State) (n : Nat) : (s.skipFree n).rxStreams = s.rxStreams := rfl
@[simp] theorem State.skipFree_sessions (s : State) (n : Nat) : (s.skipFree n).sessions = s.sessions := rfl
@[simp] theorem State.skipFree_requests (s : State) (n : Nat) : (s.skipFree n).requests = s.requests := rfl
@[simp] theorem State.skipFree_inbox (s : State) (n : Nat) : (s.skipFree n).inbox = s.inbox := rfl
@[simp] theorem State.skipFree_groups (s : State) (n : Nat) : (s.skipFree n).groups = s.groups := rfl
@[simp] theorem State.skipFree_folios (s : State) (n : Nat) : (s.skipFree n).folios = s.folios := rfl
@[simp] theorem State.skipFree_pools (s : State) (n : Nat) : (s.skipFree n).pools = s.pools := rfl
@[simp] theorem State.skipFree_attends (s : State) (n : Nat) : (s.skipFree n).attends = s.attends := rfl
@[simp] theorem State.skipFree_steps (s : State) (n : Nat) : (s.skipFree n).steps = s.steps := rfl
@[simp] theorem State.skipFree_early (s : State) (n : Nat) : (s.skipFree n).early = s.early := rfl
@[simp] theorem State.skipFree_rosters (s : State) (n : Nat) : (s.skipFree n).rosters = s.rosters := rfl
@[simp] theorem State.skipFree_granules (s : State) (n : Nat) : (s.skipFree n).granules = s.granules := rfl
@[simp] theorem State.skipFree_mirrors (s : State) (n : Nat) : (s.skipFree n).mirrors = s.mirrors := rfl
@[simp] theorem State.skipFree_mirrored (s : State) (n : Nat) : (s.skipFree n).mirrored = s.mirrored := rfl
@[simp] theorem State.skipFree_commits (s : State) (n : Nat) : (s.skipFree n).commits = s.commits := rfl
@[simp] theorem State.skipFree_postWait (s : State) (n : Nat) : (s.skipFree n).postWait = s.postWait := rfl
@[simp] theorem State.skipFree_zeroRun (s : State) (n : Nat) : (s.skipFree n).zeroRun = s.zeroRun := rfl
@[simp] theorem State.skipFree_flrFill (s : State) (n : Nat) : (s.skipFree n).flrFill = s.flrFill := rfl
@[simp] theorem State.skipFree_epochAt (s : State) (n : Nat) : (s.skipFree n).epochAt = s.epochAt := rfl
@[simp] theorem State.skipFree_fports (s : State) (n : Nat) : (s.skipFree n).fports = s.fports := rfl
@[simp] theorem State.skipFree_goodOffsets (s : State) (n : Nat) : (s.skipFree n).goodOffsets = s.goodOffsets := rfl
@[simp] theorem State.skipFree_everSynced (s : State) (n : Nat) : (s.skipFree n).everSynced = s.everSynced := rfl
@[simp] theorem State.skipFree_lastCommit (s : State) (n : Nat) : (s.skipFree n).lastCommit = s.lastCommit := rfl
@[simp] theorem State.skipFree_unretired (s : State) (n : Nat) : (s.skipFree n).unretired = s.unretired := rfl
@[simp] theorem State.skipFree_computeRan (s : State) (n : Nat) : (s.skipFree n).computeRan = s.computeRan := rfl
@[simp] theorem State.skipFree_groupsOff (s : State) (n : Nat) : (s.skipFree n).groupsOff = s.groupsOff := rfl
@[simp] theorem State.skipFree_tripDriven (s : State) (n : Nat) : (s.skipFree n).tripDriven = s.tripDriven := rfl
@[simp] theorem State.skipFree_turns (s : State) (n : Nat) : (s.skipFree n).turns = s.turns := rfl
@[simp] theorem State.skipFree_mteRun (s : State) (n : Nat) : (s.skipFree n).mteRun = s.mteRun := rfl
@[simp] theorem State.skipFree_out (s : State) (n : Nat) : (s.skipFree n).out = s.out := rfl
@[simp] theorem State.skipFree_pending (s : State) (n : Nat) : (s.skipFree n).pending = s.pending := rfl

@[simp] theorem State.raiseVec_staged (s : State) (fn v : Nat) : (s.raiseVec fn v).staged = s.staged := by unfold State.raiseVec; split <;> (try split) <;> rfl
@[simp] theorem State.raiseVec_split (s : State) (fn v : Nat) : (s.raiseVec fn v).split = s.split := by unfold State.raiseVec; split <;> (try split) <;> rfl
@[simp] theorem State.raiseVec_timeFine (s : State) (fn v : Nat) : (s.raiseVec fn v).timeFine = s.timeFine := by unfold State.raiseVec; split <;> (try split) <;> rfl
@[simp] theorem State.raiseVec_uptime (s : State) (fn v : Nat) : (s.raiseVec fn v).uptime = s.uptime := by unfold State.raiseVec; split <;> (try split) <;> rfl
@[simp] theorem State.raiseVec_slots (s : State) (fn v : Nat) : (s.raiseVec fn v).slots = s.slots := by unfold State.raiseVec; split <;> (try split) <;> rfl
@[simp] theorem State.raiseVec_clkChange (s : State) (fn v : Nat) : (s.raiseVec fn v).clkChange = s.clkChange := by unfold State.raiseVec; split <;> (try split) <;> rfl
@[simp] theorem State.raiseVec_clkStopped (s : State) (fn v : Nat) : (s.raiseVec fn v).clkStopped = s.clkStopped := by unfold State.raiseVec; split <;> (try split) <;> rfl
@[simp] theorem State.raiseVec_dlkAttempts (s : State) (fn v : Nat) : (s.raiseVec fn v).dlkAttempts = s.dlkAttempts := by unfold State.raiseVec; split <;> (try split) <;> rfl
@[simp] theorem State.raiseVec_msixOn (s : State) (fn v : Nat) : (s.raiseVec fn v).msixOn = s.msixOn := by unfold State.raiseVec; split <;> (try split) <;> rfl
@[simp] theorem State.raiseVec_msixMask (s : State) (fn v : Nat) : (s.raiseVec fn v).msixMask = s.msixMask := by unfold State.raiseVec; split <;> (try split) <;> rfl
@[simp] theorem State.raiseVec_fuses (s : State) (fn v : Nat) : (s.raiseVec fn v).fuses = s.fuses := by unfold State.raiseVec; split <;> (try split) <;> rfl
@[simp] theorem State.raiseVec_weak (s : State) (fn v : Nat) : (s.raiseVec fn v).weak = s.weak := by unfold State.raiseVec; split <;> (try split) <;> rfl
@[simp] theorem State.raiseVec_lcRun (s : State) (fn v : Nat) : (s.raiseVec fn v).lcRun = s.lcRun := by unfold State.raiseVec; split <;> (try split) <;> rfl
@[simp] theorem State.raiseVec_boot (s : State) (fn v : Nat) : (s.raiseVec fn v).boot = s.boot := by unfold State.raiseVec; split <;> (try split) <;> rfl
@[simp] theorem State.raiseVec_rails (s : State) (fn v : Nat) : (s.raiseVec fn v).rails = s.rails := by unfold State.raiseVec; split <;> (try split) <;> rfl
@[simp] theorem State.raiseVec_vault (s : State) (fn v : Nat) : (s.raiseVec fn v).vault = s.vault := by unfold State.raiseVec; split <;> (try split) <;> rfl
@[simp] theorem State.raiseVec_clerks (s : State) (fn v : Nat) : (s.raiseVec fn v).clerks = s.clerks := by unfold State.raiseVec; split <;> (try split) <;> rfl
@[simp] theorem State.raiseVec_dumps (s : State) (fn v : Nat) : (s.raiseVec fn v).dumps = s.dumps := by unfold State.raiseVec; split <;> (try split) <;> rfl
@[simp] theorem State.raiseVec_ports (s : State) (fn v : Nat) : (s.raiseVec fn v).ports = s.ports := by unfold State.raiseVec; split <;> (try split) <;> rfl
@[simp] theorem State.raiseVec_logQueue (s : State) (fn v : Nat) : (s.raiseVec fn v).logQueue = s.logQueue := by unfold State.raiseVec; split <;> (try split) <;> rfl
@[simp] theorem State.raiseVec_logLost (s : State) (fn v : Nat) : (s.raiseVec fn v).logLost = s.logLost := by unfold State.raiseVec; split <;> (try split) <;> rfl
@[simp] theorem State.raiseVec_pairs (s : State) (fn v : Nat) : (s.raiseVec fn v).pairs = s.pairs := by unfold State.raiseVec; split <;> (try split) <;> rfl
@[simp] theorem State.raiseVec_bmc (s : State) (fn v : Nat) : (s.raiseVec fn v).bmc = s.bmc := by unfold State.raiseVec; split <;> (try split) <;> rfl
@[simp] theorem State.raiseVec_trace (s : State) (fn v : Nat) : (s.raiseVec fn v).trace = s.trace := by unfold State.raiseVec; split <;> (try split) <;> rfl
@[simp] theorem State.raiseVec_spx (s : State) (fn v : Nat) : (s.raiseVec fn v).spx = s.spx := by unfold State.raiseVec; split <;> (try split) <;> rfl
@[simp] theorem State.raiseVec_sensors (s : State) (fn v : Nat) : (s.raiseVec fn v).sensors = s.sensors := by unfold State.raiseVec; split <;> (try split) <;> rfl
@[simp] theorem State.raiseVec_throttleLogged (s : State) (fn v : Nat) : (s.raiseVec fn v).throttleLogged = s.throttleLogged := by unfold State.raiseVec; split <;> (try split) <;> rfl
@[simp] theorem State.raiseVec_coolSince (s : State) (fn v : Nat) : (s.raiseVec fn v).coolSince = s.coolSince := by unfold State.raiseVec; split <;> (try split) <;> rfl
@[simp] theorem State.raiseVec_iccHigh (s : State) (fn v : Nat) : (s.raiseVec fn v).iccHigh = s.iccHigh := by unfold State.raiseVec; split <;> (try split) <;> rfl
@[simp] theorem State.raiseVec_alertLow (s : State) (fn v : Nat) : (s.raiseVec fn v).alertLow = s.alertLow := by unfold State.raiseVec; split <;> (try split) <;> rfl
@[simp] theorem State.raiseVec_currentSince (s : State) (fn v : Nat) : (s.raiseVec fn v).currentSince = s.currentSince := by unfold State.raiseVec; split <;> (try split) <;> rfl
@[simp] theorem State.raiseVec_hbmFails (s : State) (fn v : Nat) : (s.raiseVec fn v).hbmFails = s.hbmFails := by unfold State.raiseVec; split <;> (try split) <;> rfl
@[simp] theorem State.raiseVec_gated (s : State) (fn v : Nat) : (s.raiseVec fn v).gated = s.gated := by unfold State.raiseVec; split <;> (try split) <;> rfl
@[simp] theorem State.raiseVec_loop (s : State) (fn v : Nat) : (s.raiseVec fn v).loop = s.loop := by unfold State.raiseVec; split <;> (try split) <;> rfl
@[simp] theorem State.raiseVec_mem (s : State) (fn v : Nat) : (s.raiseVec fn v).mem = s.mem := by unfold State.raiseVec; split <;> (try split) <;> rfl
@[simp] theorem State.raiseVec_poisonLine (s : State) (fn v : Nat) : (s.raiseVec fn v).poisonLine = s.poisonLine := by unfold State.raiseVec; split <;> (try split) <;> rfl
@[simp] theorem State.raiseVec_poisonWord (s : State) (fn v : Nat) : (s.raiseVec fn v).poisonWord = s.poisonWord := by unfold State.raiseVec; split <;> (try split) <;> rfl
@[simp] theorem State.raiseVec_errFifo (s : State) (fn v : Nat) : (s.raiseVec fn v).errFifo = s.errFifo := by unfold State.raiseVec; split <;> (try split) <;> rfl
@[simp] theorem State.raiseVec_scrubPos (s : State) (fn v : Nat) : (s.raiseVec fn v).scrubPos = s.scrubPos := by unfold State.raiseVec; split <;> (try split) <;> rfl
@[simp] theorem State.raiseVec_wipeVerify (s : State) (fn v : Nat) : (s.raiseVec fn v).wipeVerify = s.wipeVerify := by unfold State.raiseVec; split <;> (try split) <;> rfl
@[simp] theorem State.raiseVec_wipeFill (s : State) (fn v : Nat) : (s.raiseVec fn v).wipeFill = s.wipeFill := by unfold State.raiseVec; split <;> (try split) <;> rfl
@[simp] theorem State.raiseVec_woken (s : State) (fn v : Nat) : (s.raiseVec fn v).woken = s.woken := by unfold State.raiseVec; split <;> (try split) <;> rfl
@[simp] theorem State.raiseVec_wakeOff (s : State) (fn v : Nat) : (s.raiseVec fn v).wakeOff = s.wakeOff := by unfold State.raiseVec; split <;> (try split) <;> rfl
@[simp] theorem State.raiseVec_bankWait (s : State) (fn v : Nat) : (s.raiseVec fn v).bankWait = s.bankWait := by unfold State.raiseVec; split <;> (try split) <;> rfl
@[simp] theorem State.raiseVec_hbmWait (s : State) (fn v : Nat) : (s.raiseVec fn v).hbmWait = s.hbmWait := by unfold State.raiseVec; split <;> (try split) <;> rfl
@[simp] theorem State.raiseVec_ops (s : State) (fn v : Nat) : (s.raiseVec fn v).ops = s.ops := by unfold State.raiseVec; split <;> (try split) <;> rfl
@[simp] theorem State.raiseVec_rings (s : State) (fn v : Nat) : (s.raiseVec fn v).rings = s.rings := by unfold State.raiseVec; split <;> (try split) <;> rfl
@[simp] theorem State.raiseVec_contexts (s : State) (fn v : Nat) : (s.raiseVec fn v).contexts = s.contexts := by unfold State.raiseVec; split <;> (try split) <;> rfl
@[simp] theorem State.raiseVec_tallies (s : State) (fn v : Nat) : (s.raiseVec fn v).tallies = s.tallies := by unfold State.raiseVec; split <;> (try split) <;> rfl
@[simp] theorem State.raiseVec_mteLog (s : State) (fn v : Nat) : (s.raiseVec fn v).mteLog = s.mteLog := by unfold State.raiseVec; split <;> (try split) <;> rfl
@[simp] theorem State.raiseVec_softRepairs (s : State) (fn v : Nat) : (s.raiseVec fn v).softRepairs = s.softRepairs := by unfold State.raiseVec; split <;> (try split) <;> rfl
@[simp] theorem State.raiseVec_hardRepairs (s : State) (fn v : Nat) : (s.raiseVec fn v).hardRepairs = s.hardRepairs := by unfold State.raiseVec; split <;> (try split) <;> rfl
@[simp] theorem State.raiseVec_scrub (s : State) (fn v : Nat) : (s.raiseVec fn v).scrub = s.scrub := by unfold State.raiseVec; split <;> (try split) <;> rfl
@[simp] theorem State.raiseVec_txStreams (s : State) (fn v : Nat) : (s.raiseVec fn v).txStreams = s.txStreams := by unfold State.raiseVec; split <;> (try split) <;> rfl
@[simp] theorem State.raiseVec_rxStreams (s : State) (fn v : Nat) : (s.raiseVec fn v).rxStreams = s.rxStreams := by unfold State.raiseVec; split <;> (try split) <;> rfl
@[simp] theorem State.raiseVec_sessions (s : State) (fn v : Nat) : (s.raiseVec fn v).sessions = s.sessions := by unfold State.raiseVec; split <;> (try split) <;> rfl
@[simp] theorem State.raiseVec_requests (s : State) (fn v : Nat) : (s.raiseVec fn v).requests = s.requests := by unfold State.raiseVec; split <;> (try split) <;> rfl
@[simp] theorem State.raiseVec_inbox (s : State) (fn v : Nat) : (s.raiseVec fn v).inbox = s.inbox := by unfold State.raiseVec; split <;> (try split) <;> rfl
@[simp] theorem State.raiseVec_groups (s : State) (fn v : Nat) : (s.raiseVec fn v).groups = s.groups := by unfold State.raiseVec; split <;> (try split) <;> rfl
@[simp] theorem State.raiseVec_folios (s : State) (fn v : Nat) : (s.raiseVec fn v).folios = s.folios := by unfold State.raiseVec; split <;> (try split) <;> rfl
@[simp] theorem State.raiseVec_pools (s : State) (fn v : Nat) : (s.raiseVec fn v).pools = s.pools := by unfold State.raiseVec; split <;> (try split) <;> rfl
@[simp] theorem State.raiseVec_attends (s : State) (fn v : Nat) : (s.raiseVec fn v).attends = s.attends := by unfold State.raiseVec; split <;> (try split) <;> rfl
@[simp] theorem State.raiseVec_steps (s : State) (fn v : Nat) : (s.raiseVec fn v).steps = s.steps := by unfold State.raiseVec; split <;> (try split) <;> rfl
@[simp] theorem State.raiseVec_early (s : State) (fn v : Nat) : (s.raiseVec fn v).early = s.early := by unfold State.raiseVec; split <;> (try split) <;> rfl
@[simp] theorem State.raiseVec_rosters (s : State) (fn v : Nat) : (s.raiseVec fn v).rosters = s.rosters := by unfold State.raiseVec; split <;> (try split) <;> rfl
@[simp] theorem State.raiseVec_granules (s : State) (fn v : Nat) : (s.raiseVec fn v).granules = s.granules := by unfold State.raiseVec; split <;> (try split) <;> rfl
@[simp] theorem State.raiseVec_mirrors (s : State) (fn v : Nat) : (s.raiseVec fn v).mirrors = s.mirrors := by unfold State.raiseVec; split <;> (try split) <;> rfl
@[simp] theorem State.raiseVec_mirrored (s : State) (fn v : Nat) : (s.raiseVec fn v).mirrored = s.mirrored := by unfold State.raiseVec; split <;> (try split) <;> rfl
@[simp] theorem State.raiseVec_commits (s : State) (fn v : Nat) : (s.raiseVec fn v).commits = s.commits := by unfold State.raiseVec; split <;> (try split) <;> rfl
@[simp] theorem State.raiseVec_postWait (s : State) (fn v : Nat) : (s.raiseVec fn v).postWait = s.postWait := by unfold State.raiseVec; split <;> (try split) <;> rfl
@[simp] theorem State.raiseVec_zeroRun (s : State) (fn v : Nat) : (s.raiseVec fn v).zeroRun = s.zeroRun := by unfold State.raiseVec; split <;> (try split) <;> rfl
@[simp] theorem State.raiseVec_flrFill (s : State) (fn v : Nat) : (s.raiseVec fn v).flrFill = s.flrFill := by unfold State.raiseVec; split <;> (try split) <;> rfl
@[simp] theorem State.raiseVec_epochAt (s : State) (fn v : Nat) : (s.raiseVec fn v).epochAt = s.epochAt := by unfold State.raiseVec; split <;> (try split) <;> rfl
@[simp] theorem State.raiseVec_fports (s : State) (fn v : Nat) : (s.raiseVec fn v).fports = s.fports := by unfold State.raiseVec; split <;> (try split) <;> rfl
@[simp] theorem State.raiseVec_goodOffsets (s : State) (fn v : Nat) : (s.raiseVec fn v).goodOffsets = s.goodOffsets := by unfold State.raiseVec; split <;> (try split) <;> rfl
@[simp] theorem State.raiseVec_everSynced (s : State) (fn v : Nat) : (s.raiseVec fn v).everSynced = s.everSynced := by unfold State.raiseVec; split <;> (try split) <;> rfl
@[simp] theorem State.raiseVec_lastCommit (s : State) (fn v : Nat) : (s.raiseVec fn v).lastCommit = s.lastCommit := by unfold State.raiseVec; split <;> (try split) <;> rfl
@[simp] theorem State.raiseVec_unretired (s : State) (fn v : Nat) : (s.raiseVec fn v).unretired = s.unretired := by unfold State.raiseVec; split <;> (try split) <;> rfl
@[simp] theorem State.raiseVec_computeRan (s : State) (fn v : Nat) : (s.raiseVec fn v).computeRan = s.computeRan := by unfold State.raiseVec; split <;> (try split) <;> rfl
@[simp] theorem State.raiseVec_groupsOff (s : State) (fn v : Nat) : (s.raiseVec fn v).groupsOff = s.groupsOff := by unfold State.raiseVec; split <;> (try split) <;> rfl
@[simp] theorem State.raiseVec_tripDriven (s : State) (fn v : Nat) : (s.raiseVec fn v).tripDriven = s.tripDriven := by unfold State.raiseVec; split <;> (try split) <;> rfl
@[simp] theorem State.raiseVec_turns (s : State) (fn v : Nat) : (s.raiseVec fn v).turns = s.turns := by unfold State.raiseVec; split <;> (try split) <;> rfl
@[simp] theorem State.raiseVec_mteRun (s : State) (fn v : Nat) : (s.raiseVec fn v).mteRun = s.mteRun := by unfold State.raiseVec; split <;> (try split) <;> rfl
@[simp] theorem State.raiseVec_free (s : State) (fn v : Nat) : (s.raiseVec fn v).free = s.free := by unfold State.raiseVec; split <;> (try split) <;> rfl
@[simp] theorem State.raiseVec_pending (s : State) (fn v : Nat) : (s.raiseVec fn v).pending = s.pending := by unfold State.raiseVec; split <;> (try split) <;> rfl

@[simp] theorem State.raise_staged (s : State) (pg i : Nat) : (s.raise pg i).staged = s.staged := by unfold State.raise State.raiseMask; simp only; split <;> simp [State.raisePage]
@[simp] theorem State.raise_split (s : State) (pg i : Nat) : (s.raise pg i).split = s.split := by unfold State.raise State.raiseMask; simp only; split <;> simp [State.raisePage]
@[simp] theorem State.raise_timeFine (s : State) (pg i : Nat) : (s.raise pg i).timeFine = s.timeFine := by unfold State.raise State.raiseMask; simp only; split <;> simp [State.raisePage]
@[simp] theorem State.raise_uptime (s : State) (pg i : Nat) : (s.raise pg i).uptime = s.uptime := by unfold State.raise State.raiseMask; simp only; split <;> simp [State.raisePage]
@[simp] theorem State.raise_slots (s : State) (pg i : Nat) : (s.raise pg i).slots = s.slots := by unfold State.raise State.raiseMask; simp only; split <;> simp [State.raisePage]
@[simp] theorem State.raise_clkChange (s : State) (pg i : Nat) : (s.raise pg i).clkChange = s.clkChange := by unfold State.raise State.raiseMask; simp only; split <;> simp [State.raisePage]
@[simp] theorem State.raise_clkStopped (s : State) (pg i : Nat) : (s.raise pg i).clkStopped = s.clkStopped := by unfold State.raise State.raiseMask; simp only; split <;> simp [State.raisePage]
@[simp] theorem State.raise_dlkAttempts (s : State) (pg i : Nat) : (s.raise pg i).dlkAttempts = s.dlkAttempts := by unfold State.raise State.raiseMask; simp only; split <;> simp [State.raisePage]
@[simp] theorem State.raise_msixOn (s : State) (pg i : Nat) : (s.raise pg i).msixOn = s.msixOn := by unfold State.raise State.raiseMask; simp only; split <;> simp [State.raisePage]
@[simp] theorem State.raise_msixMask (s : State) (pg i : Nat) : (s.raise pg i).msixMask = s.msixMask := by unfold State.raise State.raiseMask; simp only; split <;> simp [State.raisePage]
@[simp] theorem State.raise_fuses (s : State) (pg i : Nat) : (s.raise pg i).fuses = s.fuses := by unfold State.raise State.raiseMask; simp only; split <;> simp [State.raisePage]
@[simp] theorem State.raise_weak (s : State) (pg i : Nat) : (s.raise pg i).weak = s.weak := by unfold State.raise State.raiseMask; simp only; split <;> simp [State.raisePage]
@[simp] theorem State.raise_lcRun (s : State) (pg i : Nat) : (s.raise pg i).lcRun = s.lcRun := by unfold State.raise State.raiseMask; simp only; split <;> simp [State.raisePage]
@[simp] theorem State.raise_boot (s : State) (pg i : Nat) : (s.raise pg i).boot = s.boot := by unfold State.raise State.raiseMask; simp only; split <;> simp [State.raisePage]
@[simp] theorem State.raise_rails (s : State) (pg i : Nat) : (s.raise pg i).rails = s.rails := by unfold State.raise State.raiseMask; simp only; split <;> simp [State.raisePage]
@[simp] theorem State.raise_vault (s : State) (pg i : Nat) : (s.raise pg i).vault = s.vault := by unfold State.raise State.raiseMask; simp only; split <;> simp [State.raisePage]
@[simp] theorem State.raise_clerks (s : State) (pg i : Nat) : (s.raise pg i).clerks = s.clerks := by unfold State.raise State.raiseMask; simp only; split <;> simp [State.raisePage]
@[simp] theorem State.raise_dumps (s : State) (pg i : Nat) : (s.raise pg i).dumps = s.dumps := by unfold State.raise State.raiseMask; simp only; split <;> simp [State.raisePage]
@[simp] theorem State.raise_ports (s : State) (pg i : Nat) : (s.raise pg i).ports = s.ports := by unfold State.raise State.raiseMask; simp only; split <;> simp [State.raisePage]
@[simp] theorem State.raise_logQueue (s : State) (pg i : Nat) : (s.raise pg i).logQueue = s.logQueue := by unfold State.raise State.raiseMask; simp only; split <;> simp [State.raisePage]
@[simp] theorem State.raise_logLost (s : State) (pg i : Nat) : (s.raise pg i).logLost = s.logLost := by unfold State.raise State.raiseMask; simp only; split <;> simp [State.raisePage]
@[simp] theorem State.raise_pairs (s : State) (pg i : Nat) : (s.raise pg i).pairs = s.pairs := by unfold State.raise State.raiseMask; simp only; split <;> simp [State.raisePage]
@[simp] theorem State.raise_bmc (s : State) (pg i : Nat) : (s.raise pg i).bmc = s.bmc := by unfold State.raise State.raiseMask; simp only; split <;> simp [State.raisePage]
@[simp] theorem State.raise_trace (s : State) (pg i : Nat) : (s.raise pg i).trace = s.trace := by unfold State.raise State.raiseMask; simp only; split <;> simp [State.raisePage]
@[simp] theorem State.raise_spx (s : State) (pg i : Nat) : (s.raise pg i).spx = s.spx := by unfold State.raise State.raiseMask; simp only; split <;> simp [State.raisePage]
@[simp] theorem State.raise_sensors (s : State) (pg i : Nat) : (s.raise pg i).sensors = s.sensors := by unfold State.raise State.raiseMask; simp only; split <;> simp [State.raisePage]
@[simp] theorem State.raise_throttleLogged (s : State) (pg i : Nat) : (s.raise pg i).throttleLogged = s.throttleLogged := by unfold State.raise State.raiseMask; simp only; split <;> simp [State.raisePage]
@[simp] theorem State.raise_coolSince (s : State) (pg i : Nat) : (s.raise pg i).coolSince = s.coolSince := by unfold State.raise State.raiseMask; simp only; split <;> simp [State.raisePage]
@[simp] theorem State.raise_iccHigh (s : State) (pg i : Nat) : (s.raise pg i).iccHigh = s.iccHigh := by unfold State.raise State.raiseMask; simp only; split <;> simp [State.raisePage]
@[simp] theorem State.raise_alertLow (s : State) (pg i : Nat) : (s.raise pg i).alertLow = s.alertLow := by unfold State.raise State.raiseMask; simp only; split <;> simp [State.raisePage]
@[simp] theorem State.raise_currentSince (s : State) (pg i : Nat) : (s.raise pg i).currentSince = s.currentSince := by unfold State.raise State.raiseMask; simp only; split <;> simp [State.raisePage]
@[simp] theorem State.raise_hbmFails (s : State) (pg i : Nat) : (s.raise pg i).hbmFails = s.hbmFails := by unfold State.raise State.raiseMask; simp only; split <;> simp [State.raisePage]
@[simp] theorem State.raise_gated (s : State) (pg i : Nat) : (s.raise pg i).gated = s.gated := by unfold State.raise State.raiseMask; simp only; split <;> simp [State.raisePage]
@[simp] theorem State.raise_loop (s : State) (pg i : Nat) : (s.raise pg i).loop = s.loop := by unfold State.raise State.raiseMask; simp only; split <;> simp [State.raisePage]
@[simp] theorem State.raise_mem (s : State) (pg i : Nat) : (s.raise pg i).mem = s.mem := by unfold State.raise State.raiseMask; simp only; split <;> simp [State.raisePage]
@[simp] theorem State.raise_poisonLine (s : State) (pg i : Nat) : (s.raise pg i).poisonLine = s.poisonLine := by unfold State.raise State.raiseMask; simp only; split <;> simp [State.raisePage]
@[simp] theorem State.raise_poisonWord (s : State) (pg i : Nat) : (s.raise pg i).poisonWord = s.poisonWord := by unfold State.raise State.raiseMask; simp only; split <;> simp [State.raisePage]
@[simp] theorem State.raise_errFifo (s : State) (pg i : Nat) : (s.raise pg i).errFifo = s.errFifo := by unfold State.raise State.raiseMask; simp only; split <;> simp [State.raisePage]
@[simp] theorem State.raise_scrubPos (s : State) (pg i : Nat) : (s.raise pg i).scrubPos = s.scrubPos := by unfold State.raise State.raiseMask; simp only; split <;> simp [State.raisePage]
@[simp] theorem State.raise_wipeVerify (s : State) (pg i : Nat) : (s.raise pg i).wipeVerify = s.wipeVerify := by unfold State.raise State.raiseMask; simp only; split <;> simp [State.raisePage]
@[simp] theorem State.raise_wipeFill (s : State) (pg i : Nat) : (s.raise pg i).wipeFill = s.wipeFill := by unfold State.raise State.raiseMask; simp only; split <;> simp [State.raisePage]
@[simp] theorem State.raise_woken (s : State) (pg i : Nat) : (s.raise pg i).woken = s.woken := by unfold State.raise State.raiseMask; simp only; split <;> simp [State.raisePage]
@[simp] theorem State.raise_wakeOff (s : State) (pg i : Nat) : (s.raise pg i).wakeOff = s.wakeOff := by unfold State.raise State.raiseMask; simp only; split <;> simp [State.raisePage]
@[simp] theorem State.raise_bankWait (s : State) (pg i : Nat) : (s.raise pg i).bankWait = s.bankWait := by unfold State.raise State.raiseMask; simp only; split <;> simp [State.raisePage]
@[simp] theorem State.raise_hbmWait (s : State) (pg i : Nat) : (s.raise pg i).hbmWait = s.hbmWait := by unfold State.raise State.raiseMask; simp only; split <;> simp [State.raisePage]
@[simp] theorem State.raise_ops (s : State) (pg i : Nat) : (s.raise pg i).ops = s.ops := by unfold State.raise State.raiseMask; simp only; split <;> simp [State.raisePage]
@[simp] theorem State.raise_rings (s : State) (pg i : Nat) : (s.raise pg i).rings = s.rings := by unfold State.raise State.raiseMask; simp only; split <;> simp [State.raisePage]
@[simp] theorem State.raise_contexts (s : State) (pg i : Nat) : (s.raise pg i).contexts = s.contexts := by unfold State.raise State.raiseMask; simp only; split <;> simp [State.raisePage]
@[simp] theorem State.raise_tallies (s : State) (pg i : Nat) : (s.raise pg i).tallies = s.tallies := by unfold State.raise State.raiseMask; simp only; split <;> simp [State.raisePage]
@[simp] theorem State.raise_mteLog (s : State) (pg i : Nat) : (s.raise pg i).mteLog = s.mteLog := by unfold State.raise State.raiseMask; simp only; split <;> simp [State.raisePage]
@[simp] theorem State.raise_softRepairs (s : State) (pg i : Nat) : (s.raise pg i).softRepairs = s.softRepairs := by unfold State.raise State.raiseMask; simp only; split <;> simp [State.raisePage]
@[simp] theorem State.raise_hardRepairs (s : State) (pg i : Nat) : (s.raise pg i).hardRepairs = s.hardRepairs := by unfold State.raise State.raiseMask; simp only; split <;> simp [State.raisePage]
@[simp] theorem State.raise_scrub (s : State) (pg i : Nat) : (s.raise pg i).scrub = s.scrub := by unfold State.raise State.raiseMask; simp only; split <;> simp [State.raisePage]
@[simp] theorem State.raise_txStreams (s : State) (pg i : Nat) : (s.raise pg i).txStreams = s.txStreams := by unfold State.raise State.raiseMask; simp only; split <;> simp [State.raisePage]
@[simp] theorem State.raise_rxStreams (s : State) (pg i : Nat) : (s.raise pg i).rxStreams = s.rxStreams := by unfold State.raise State.raiseMask; simp only; split <;> simp [State.raisePage]
@[simp] theorem State.raise_sessions (s : State) (pg i : Nat) : (s.raise pg i).sessions = s.sessions := by unfold State.raise State.raiseMask; simp only; split <;> simp [State.raisePage]
@[simp] theorem State.raise_requests (s : State) (pg i : Nat) : (s.raise pg i).requests = s.requests := by unfold State.raise State.raiseMask; simp only; split <;> simp [State.raisePage]
@[simp] theorem State.raise_inbox (s : State) (pg i : Nat) : (s.raise pg i).inbox = s.inbox := by unfold State.raise State.raiseMask; simp only; split <;> simp [State.raisePage]
@[simp] theorem State.raise_groups (s : State) (pg i : Nat) : (s.raise pg i).groups = s.groups := by unfold State.raise State.raiseMask; simp only; split <;> simp [State.raisePage]
@[simp] theorem State.raise_folios (s : State) (pg i : Nat) : (s.raise pg i).folios = s.folios := by unfold State.raise State.raiseMask; simp only; split <;> simp [State.raisePage]
@[simp] theorem State.raise_pools (s : State) (pg i : Nat) : (s.raise pg i).pools = s.pools := by unfold State.raise State.raiseMask; simp only; split <;> simp [State.raisePage]
@[simp] theorem State.raise_attends (s : State) (pg i : Nat) : (s.raise pg i).attends = s.attends := by unfold State.raise State.raiseMask; simp only; split <;> simp [State.raisePage]
@[simp] theorem State.raise_steps (s : State) (pg i : Nat) : (s.raise pg i).steps = s.steps := by unfold State.raise State.raiseMask; simp only; split <;> simp [State.raisePage]
@[simp] theorem State.raise_early (s : State) (pg i : Nat) : (s.raise pg i).early = s.early := by unfold State.raise State.raiseMask; simp only; split <;> simp [State.raisePage]
@[simp] theorem State.raise_rosters (s : State) (pg i : Nat) : (s.raise pg i).rosters = s.rosters := by unfold State.raise State.raiseMask; simp only; split <;> simp [State.raisePage]
@[simp] theorem State.raise_granules (s : State) (pg i : Nat) : (s.raise pg i).granules = s.granules := by unfold State.raise State.raiseMask; simp only; split <;> simp [State.raisePage]
@[simp] theorem State.raise_mirrors (s : State) (pg i : Nat) : (s.raise pg i).mirrors = s.mirrors := by unfold State.raise State.raiseMask; simp only; split <;> simp [State.raisePage]
@[simp] theorem State.raise_mirrored (s : State) (pg i : Nat) : (s.raise pg i).mirrored = s.mirrored := by unfold State.raise State.raiseMask; simp only; split <;> simp [State.raisePage]
@[simp] theorem State.raise_commits (s : State) (pg i : Nat) : (s.raise pg i).commits = s.commits := by unfold State.raise State.raiseMask; simp only; split <;> simp [State.raisePage]
@[simp] theorem State.raise_postWait (s : State) (pg i : Nat) : (s.raise pg i).postWait = s.postWait := by unfold State.raise State.raiseMask; simp only; split <;> simp [State.raisePage]
@[simp] theorem State.raise_zeroRun (s : State) (pg i : Nat) : (s.raise pg i).zeroRun = s.zeroRun := by unfold State.raise State.raiseMask; simp only; split <;> simp [State.raisePage]
@[simp] theorem State.raise_flrFill (s : State) (pg i : Nat) : (s.raise pg i).flrFill = s.flrFill := by unfold State.raise State.raiseMask; simp only; split <;> simp [State.raisePage]
@[simp] theorem State.raise_epochAt (s : State) (pg i : Nat) : (s.raise pg i).epochAt = s.epochAt := by unfold State.raise State.raiseMask; simp only; split <;> simp [State.raisePage]
@[simp] theorem State.raise_fports (s : State) (pg i : Nat) : (s.raise pg i).fports = s.fports := by unfold State.raise State.raiseMask; simp only; split <;> simp [State.raisePage]
@[simp] theorem State.raise_goodOffsets (s : State) (pg i : Nat) : (s.raise pg i).goodOffsets = s.goodOffsets := by unfold State.raise State.raiseMask; simp only; split <;> simp [State.raisePage]
@[simp] theorem State.raise_everSynced (s : State) (pg i : Nat) : (s.raise pg i).everSynced = s.everSynced := by unfold State.raise State.raiseMask; simp only; split <;> simp [State.raisePage]
@[simp] theorem State.raise_lastCommit (s : State) (pg i : Nat) : (s.raise pg i).lastCommit = s.lastCommit := by unfold State.raise State.raiseMask; simp only; split <;> simp [State.raisePage]
@[simp] theorem State.raise_unretired (s : State) (pg i : Nat) : (s.raise pg i).unretired = s.unretired := by unfold State.raise State.raiseMask; simp only; split <;> simp [State.raisePage]
@[simp] theorem State.raise_computeRan (s : State) (pg i : Nat) : (s.raise pg i).computeRan = s.computeRan := by unfold State.raise State.raiseMask; simp only; split <;> simp [State.raisePage]
@[simp] theorem State.raise_groupsOff (s : State) (pg i : Nat) : (s.raise pg i).groupsOff = s.groupsOff := by unfold State.raise State.raiseMask; simp only; split <;> simp [State.raisePage]
@[simp] theorem State.raise_tripDriven (s : State) (pg i : Nat) : (s.raise pg i).tripDriven = s.tripDriven := by unfold State.raise State.raiseMask; simp only; split <;> simp [State.raisePage]
@[simp] theorem State.raise_turns (s : State) (pg i : Nat) : (s.raise pg i).turns = s.turns := by unfold State.raise State.raiseMask; simp only; split <;> simp [State.raisePage]
@[simp] theorem State.raise_mteRun (s : State) (pg i : Nat) : (s.raise pg i).mteRun = s.mteRun := by unfold State.raise State.raiseMask; simp only; split <;> simp [State.raisePage]
@[simp] theorem State.raise_free (s : State) (pg i : Nat) : (s.raise pg i).free = s.free := by unfold State.raise State.raiseMask; simp only; split <;> simp [State.raisePage]
@[simp] theorem State.raise_pending (s : State) (pg i : Nat) : (s.raise pg i).pending = s.pending := by unfold State.raise State.raiseMask; simp only; split <;> simp [State.raisePage]

end Sys2Proof.Machine
end

