-- ==== Sys2Proof/WellFormed.lean ====
section
/-!
DEFINITION. Well-formed commands: every operand that numbers one of a fixed set of things, or is a field of a fixed width, is within its
range. The meanings are total; on an ill-formed command they do nothing or use the value's low bits.
-/
namespace Sys2Proof

/-- The operands of a command that have a range, each with its exclusive bound. -/
def Instr.ranges : Instr → List (Nat × Nat)
  | .perstNAssert => []
  | .perstNDeassert _ => []
  | .haltFaultFrame => []
  | .hookReturn code => [(code, 2 ^ 32)]
  | .hookTimeout => []
  | .bootRailsOn => []
  | .bootRailsTimeout => []
  | .marchDone _ _ _ badEngines _ => [(badEngines, 1024)]
  | .hbmTrainDone _ => []
  | .pcieReady => []
  | .registerWrite _ off size be value => [(off, 0x4000000), (size, 9), (be, 256), (value, 2 ^ 64)]
  | .absentPageWrite _ off => [(off, 0x4000000)]
  | .splitReadLatch fn off => [(fn, 32), (off, 0x4000000)]
  | .stagedWrite _ off size value => [(off, 0x4000000), (size, 9), (value, 2 ^ 64)]
  | .cfWrite _ off size value => [(off, 0x4000000), (size, 9), (value, 2 ^ 64)]
  | .evtRawClear _ page value => [(page, 0x4000), (value, 2 ^ 64)]
  | .evtEnWrite _ page value => [(page, 0x4000), (value, 2 ^ 64)]
  | .evtForce _ page value => [(page, 0x4000), (value, 2 ^ 64)]
  | .softReset _ page => [(page, 0x4000)]
  | .softResetDone page => [(page, 0x4000)]
  | .post _ slot mask token => [(slot, 4), (mask, 2 ^ 16), (token, 2 ^ 16)]
  | .checkOnly _ slot mask token => [(slot, 4), (mask, 2 ^ 16), (token, 2 ^ 16)]
  | .discard _ slot mask token => [(slot, 4), (mask, 2 ^ 16), (token, 2 ^ 16)]
  | .discardDone slot => [(slot, 4)]
  | .cancel _ slot mask token => [(slot, 4), (mask, 2 ^ 16), (token, 2 ^ 16)]
  | .postCheckDone slot => [(slot, 4)]
  | .postStrobe slot => [(slot, 4)]
  | .postApply slot _ => [(slot, 4)]
  | .postRecheckDone slot _ => [(slot, 4)]
  | .clkHostDiv _ div => [(div, 4)]
  | .clkPwrDiv _ div => [(div, 4)]
  | .cclkChangeDone => []
  | .clockGlitch found => [(found.refKhz, 0x20000)]
  | .dlkFlitCrcFail half _ => [(half, 2)]
  | .dlkRetrainDone _ => []
  | .supPowerUp _ => []
  | .supPowerDown _ => []
  | .supGroupOn _ groups => [(groups, 256)]
  | .supGroupOff _ groups => [(groups, 256)]
  | .senseCheckDone ch _ => [(ch, 20)]
  | .railSample _ _ => []
  | .railStartDelayDone ch => [(ch, 20)]
  | .ssTimeout ch => [(ch, 20)]
  | .railStopDelayDone ch => [(ch, 20)]
  | .dischargeTimeout ch => [(ch, 20)]
  | .railBackoffDone ch => [(ch, 20)]
  | .retryCounterReset ch => [(ch, 20)]
  | .thermtrip => []
  | .holdReversed => []
  | .pmbPoll _ => []
  | .pmbAlert _ => []
  | .railSetWrite _ ch mv => [(ch, 20), (mv, 65536)]
  | .otpProgram a p _ _ _ => [(a, 32), (p, 2)]
  | .otpSeal a p _ _ _ => [(a, 32), (p, 2)]
  | .otpRevoke a p _ _ _ => [(a, 32), (p, 2)]
  | .lcTransition a p _ _ _ => [(a, 32), (p, 2)]
  | .otpReadRow _ row => [(row, 2048)]
  | .bootLoad _ => []
  | .loadComplete _ _ => []
  | .bootUnload _ => []
  | .unloadComplete => []
  | .xferStart port _ => [(port, 2)]
  | .xferFlush port _ => [(port, 2)]
  | .spxPortGrant port => [(port, 2)]
  | .xferDone port _ => [(port, 2)]
  | .xipRead _ addr n _ => [(addr, 2 ^ 32), (n, 9)]
  | .xipFetchDone _ => []
  | .spxTxdPush port _ _ => [(port, 2)]
  | .spxRxdPop port _ => [(port, 2)]
  | .slaveSelect _ => []
  | .slaveWord got => [(got.count, 33)]
  | .slaveDeselect bits => [(bits, 32)]
  | .vltCmdStore _ => []
  | .storeDone _ => []
  | .vltCmdHealthTest _ => []
  | .vltCmdResume _ => []
  | .vwarnFall _ => []
  | .vwarnRise _ => []
  | .vstoreFall _ => []
  | .vstoreRise _ => []
  | .computeResume => []
  | .vresetFall _ => []
  | .vresetRise _ => []
  | .lostRestart _ => []
  | .holdDomainOff => []
  | .vholdFull => []
  | .healthTestDone _ _ => []
  | .healthRetest => []
  | .vholdArm => []
  | .vholdLow => []
  | .capLost => []
  | .capCheckSink _ => []
  | .chargerResume => []
  | .safeIntervalStore => []
  | .fwpKick n _ => [(n, 6)]
  | .watchdogExpiry n => [(n, 6)]
  | .protectionFault n addr kind _ => [(n, 6), (addr, 2 ^ 52), (kind, 3)]
  | .doubleFault n => [(n, 6)]
  | .dumpDone n => [(n, 6)]
  | .clerkRestartDone n => [(n, 6)]
  | .portSend n port _ => [(n, 6), (port.port, 64)]
  | .logAppend n comp level code arg0 arg1 arg2 => [(n, 6), (comp, 65536), (level, 8), (code, 2 ^ 32), (arg0, 2 ^ 32), (arg1, 2 ^ 32), (arg2, 2 ^ 32)]
  | .logPortWrite => []
  | .tracePoint id src arg16 arg32 _ => [(id, 65536), (src, 65536), (arg16, 65536), (arg32, 2 ^ 32)]
  | .mbxDoorbell a fn p seq => [(a, 32), (fn, 32), (p, 2), (seq, 2 ^ 32)]
  | .mbxBadMessage a p _ _ => [(a, 32), (p, 2)]
  | .hello a p _ _ => [(a, 32), (p, 2)]
  | .attach a p _ _ => [(a, 32), (p, 2)]
  | .vpdRead a p _ _ => [(a, 32), (p, 2)]
  | .manifestRead a p _ _ => [(a, 32), (p, 2)]
  | .traceCfg a p _ _ => [(a, 32), (p, 2)]
  | .dumpClear a p _ _ => [(a, 32), (p, 2)]
  | .vaultRead a p _ _ => [(a, 32), (p, 2)]
  | .vaultWrite a p _ _ => [(a, 32), (p, 2)]
  | .status => []
  | .logRead => []
  | .dumpRead => []
  | .flashRead _ _ _ => []
  | .flashWrite _ _ _ => []
  | .flashErase _ _ _ _ => []
  | .bmcOtpProgram _ => []
  | .bmcOtpSeal _ => []
  | .bmcOtpRevoke _ => []
  | .bmcLcTransition _ => []
  | .telemetry => []
  | .bmcVpdRead => []
  | .echo => []
  | .bmcBadFrame => []
  | .frameTimeout => []
  | .thmSample _ => []
  | .hbmTempReadout stack _ => [(stack, 8)]
  | .iccEstimate _ _ => []
  | .alertN _ => []
  | .currentClampRelease => []
  | .thermalClampRelease => []
  | .pwrCycle _ _ => []
  | .hbmCapWrite _ stack cap => [(stack, 8), (cap, 17)]
  | .bar2Read a off _ => [(a, 32), (off, 2 ^ 38)]
  | .bar2Write a off _ _ => [(a, 32), (off, 2 ^ 38)]
  | .accountEnable _ a _ => [(a, 32)]
  | .drained a => [(a, 32)]
  | .scrubDone a => [(a, 32)]
  | .flr fn => [(fn, 32)]
  | .flrDone fn => [(fn, 32)]
  | .vfDisable numVfs _ => [(numVfs, 32)]
  | .deviceReset _ value _ => [(value, 2 ^ 64)]
  | .linkReset _ => []
  | .acctRules a p _ _ => [(a, 32), (p, 2)]
  | .hbmZero a p _ _ => [(a, 32), (p, 2)]
  | .hbmZeroDone _ => []
  | .ringDoorbell fn a r tail => [(fn, 32), (a, 32), (r, 32), (tail, 2 ^ 32)]
  | .ringEnable fn a r => [(fn, 32), (a, 32), (r, 32)]
  | .ringDisable fn a r => [(fn, 32), (a, 32), (r, 32)]
  | .ringReset fn a r => [(fn, 32), (a, 32), (r, 32)]
  | .abortAll fn a r => [(fn, 32), (a, 32), (r, 32)]
  | .ringAbort fn a r seq => [(fn, 32), (a, 32), (r, 32), (seq, 2 ^ 48)]
  | .abortDone a r => [(a, 32), (r, 32)]
  | .ringCplAck fn a r count => [(fn, 32), (a, 32), (r, 32), (count, 2 ^ 32)]
  | .ringWatch fn a r tally vector _ => [(fn, 32), (a, 32), (r, 32), (tally, 2 ^ 18), (vector, 2048)]
  | .descriptorAdmit a r _ _ => [(a, 32), (r, 32)]
  | .waitTimeout a r seq => [(a, 32), (r, 32), (seq, 2 ^ 48)]
  | .opComplete a r seq => [(a, 32), (r, 32), (seq, 2 ^ 48)]
  | .cplWriteFail a r seq _ => [(a, 32), (r, 32), (seq, 2 ^ 48)]
  | .exceptionResolve a r seq _ code => [(a, 32), (r, 32), (seq, 2 ^ 48), (code, 256)]
  | .tallyWrite fn idx size value => [(fn, 32), (idx, 262144), (size, 9), (value, 2 ^ 64)]
  | .nop a r seq => [(a, 32), (r, 32), (seq, 2 ^ 48)]
  | .tallyCas a r seq => [(a, 32), (r, 32), (seq, 2 ^ 48)]
  | .copy a r seq => [(a, 32), (r, 32), (seq, 2 ^ 48)]
  | .fill a r seq => [(a, 32), (r, 32), (seq, 2 ^ 48)]
  | .quantise a r seq => [(a, 32), (r, 32), (seq, 2 ^ 48)]
  | .gather a r seq => [(a, 32), (r, 32), (seq, 2 ^ 48)]
  | .gemm a r seq => [(a, 32), (r, 32), (seq, 2 ^ 48)]
  | .eltwise a r seq => [(a, 32), (r, 32), (seq, 2 ^ 48)]
  | .norm a r seq => [(a, 32), (r, 32), (seq, 2 ^ 48)]
  | .softmax a r seq => [(a, 32), (r, 32), (seq, 2 ^ 48)]
  | .sliceBoundary tile _ => [(tile, 48)]
  | .tileScratchError tile => [(tile, 48)]
  | .tilePwrReq _ tile value => [(tile, 48), (value, 2 ^ 64)]
  | .tileWakeDone tile => [(tile, 48)]
  | .hbmRead addr source acct _ => [(addr, 2 ^ 52), (source, 16), (acct, 32)]
  | .hbmFullWrite addr _ => [(addr, 2 ^ 52)]
  | .hbmPartialWrite addr source acct _ _ _ => [(addr, 2 ^ 52), (source, 16), (acct, 32)]
  | .hbmXferRetry stack _ => [(stack, 8)]
  | .hbmRetrainDone stack _ => [(stack, 8)]
  | .stackFault stack => [(stack, 8)]
  | .hbmRefresh stack => [(stack, 8)]
  | .scrubLine stack _ => [(stack, 8)]
  | .odeccPoll stack count => [(stack, 8), (count, 2 ^ 32)]
  | .errEntryRead page size => [(page, 0x4000), (size, 9)]
  | .bankAccess half addr source acct _ _ => [(half, 2), (addr, 2 ^ 52), (source, 16), (acct, 32)]
  | .bankPwrReq _ half reg value => [(half, 2), (reg, 3), (value, 2 ^ 64)]
  | .bankPwrReached half bank => [(half, 2), (bank, 48)]
  | .bankWakeDone half bank => [(half, 2), (bank, 48)]
  | .bankIdleReturn half bank => [(half, 2), (bank, 48)]
  | .tamper => []
  | .supplyGlitch half => [(half, 2)]
  | .wipeDone half _ => [(half, 2)]
  | .bankOfflineReq _ half mask => [(half, 2), (mask, 2 ^ 48)]
  | .bankOffline half bank => [(half, 2), (bank, 48)]
  | .mteStart _ half value => [(half, 2), (value, 2 ^ 64)]
  | .mteDone half _ _ _ _ => [(half, 2)]
  | .repairLogRead half size => [(half, 2), (size, 9)]
  | .folioOpen a r seq => [(a, 32), (r, 32), (seq, 2 ^ 48)]
  | .folioClose a r seq => [(a, 32), (r, 32), (seq, 2 ^ 48)]
  | .folioLink a r seq => [(a, 32), (r, 32), (seq, 2 ^ 48)]
  | .appendKv a r seq => [(a, 32), (r, 32), (seq, 2 ^ 48)]
  | .attend a r seq => [(a, 32), (r, 32), (seq, 2 ^ 48)]
  | .folioOpUnblock a r seq => [(a, 32), (r, 32), (seq, 2 ^ 48)]
  | .partReq _ => []
  | .partRsp reqSeq _ => [(reqSeq, 2 ^ 32)]
  | .folQuery _ half value => [(half, 2), (value, 2 ^ 64)]
  | .portEnable _ p => [(p, 18)]
  | .portDisable _ p => [(p, 18)]
  | .portRetrain _ p => [(p, 18)]
  | .trainingDone p laneOk inverted => [(p, 18), (laneOk, 16), (inverted, 16)]
  | .trainingTimeout p _ => [(p, 18)]
  | .laneFail p lanes => [(p, 18), (lanes, 16)]
  | .fabricHello p _ => [(p, 18)]
  | .helloTimer p => [(p, 18)]
  | .helloTimeout p => [(p, 18)]
  | .adaptStart p => [(p, 18)]
  | .adaptDone p => [(p, 18)]
  | .downRetry p => [(p, 18)]
  | .signalDetect p => [(p, 18)]
  | .partnerRetrain p => [(p, 18)]
  | .lossOfSignal p => [(p, 18)]
  | .linkWaitExpiry p => [(p, 18)]
  | .fabricGrant p => [(p, 18)]
  | .fabricData p _ => [(p, 18)]
  | .fabricAck srcNode chan seq => [(srcNode, 65536), (chan, 8), (seq, 2 ^ 32)]
  | .fabricNack srcNode chan seq => [(srcNode, 65536), (chan, 8), (seq, 2 ^ 32)]
  | .ackTimer srcNode chan => [(srcNode, 65536), (chan, 8)]
  | .rtoExpiry dstNode chan => [(dstNode, 65536), (chan, 8)]
  | .pfcPause p prio _ => [(p, 18), (prio, 8)]
  | .fabWrite a r seq => [(a, 32), (r, 32), (seq, 2 ^ 48)]
  | .fabRead a r seq => [(a, 32), (r, 32), (seq, 2 ^ 48)]
  | .write srcNode msgSeq => [(srcNode, 65536), (msgSeq, 2 ^ 32)]
  | .readReq srcNode msgSeq => [(srcNode, 65536), (msgSeq, 2 ^ 32)]
  | .readRsp srcNode msgSeq => [(srcNode, 65536), (msgSeq, 2 ^ 32)]
  | .writeDone srcNode msgSeq => [(srcNode, 65536), (msgSeq, 2 ^ 32)]
  | .control srcNode msgSeq => [(srcNode, 65536), (msgSeq, 2 ^ 32)]
  | .fabricReqTimeout a r seq => [(a, 32), (r, 32), (seq, 2 ^ 48)]
  | .syncTimer p _ => [(p, 18)]
  | .sync _ => []
  | .pdelay _ => []
  | .announce _ => []
  | .syncMiss => []
  | .tsyStep _ _ => []
  | .tsyRate _ _ => []
  | .timeSet a p _ _ => [(a, 32), (p, 2)]
  | .fabricStatus a p _ _ => [(a, 32), (p, 2)]
  | .allReduce a r seq => [(a, 32), (r, 32), (seq, 2 ^ 48)]
  | .reduceScatter a r seq => [(a, 32), (r, 32), (seq, 2 ^ 48)]
  | .allGather a r seq => [(a, 32), (r, 32), (seq, 2 ^ 48)]
  | .broadcast a r seq => [(a, 32), (r, 32), (seq, 2 ^ 48)]
  | .allToAll a r seq => [(a, 32), (r, 32), (seq, 2 ^ 48)]
  | .collIssueUnblock a r seq => [(a, 32), (r, 32), (seq, 2 ^ 48)]
  | .collReady _ => []
  | .rosterDecide a r seq => [(a, 32), (r, 32), (seq, 2 ^ 48)]
  | .collRoster _ => []
  | .collExp _ => []
  | .collData _ _ => []
  | .collClose _ _ => []
  | .collError _ => []
  | .collTimeout a r seq => [(a, 32), (r, 32), (seq, 2 ^ 48)]
  | .earlyArrivalExpiry half => [(half, 2)]
  | .groupDefine a p _ _ => [(a, 32), (p, 2)]
  | .groupPromote a p _ _ => [(a, 32), (p, 2)]
  | .groupRelease a p _ _ => [(a, 32), (p, 2)]
  | .groupQuery a p _ _ => [(a, 32), (p, 2)]
  | .mint a r seq => [(a, 32), (r, 32), (seq, 2 ^ 48)]
  | .stepClose a r seq => [(a, 32), (r, 32), (seq, 2 ^ 48)]
  | .update a r seq => [(a, 32), (r, 32), (seq, 2 ^ 48)]
  | .mirror a r seq => [(a, 32), (r, 32), (seq, 2 ^ 48)]
  | .mirrorRestore a r seq => [(a, 32), (r, 32), (seq, 2 ^ 48)]
  | .commit a r seq => [(a, 32), (r, 32), (seq, 2 ^ 48)]
  | .commitWrite => []
  | .vfEnable numVfs _ _ => [(numVfs, 32)]
  | .msixUnmask fn vector _ _ => [(fn, 32), (vector, 2048)]
  | .pcieLinkUp _ _ => []
  | .tileEnable _ tile _ => [(tile, 48)]
  | .pfcPauseExpiry p prio => [(p, 18), (prio, 8)]
  | .rosterRetentionExpiry group epoch _ => [(group, 4096), (epoch, 65536)]

/-- Every operand is within its range. -/
def Instr.wf (i : Instr) : Bool := i.ranges.all fun x => decide (x.1 < x.2)

end Sys2Proof
end

