-- ==== Sys2Proof/Tests/Slice0.lean ====
section
/-!
SUPPORT. The model's own tests: a concrete state and operands that meet the hypotheses of each statement of
Certificates/Slice0/Obligations.lean (`hypotheses_<statement>`), values taken from the worked cases of the spec
(`test_<what>`), and the commands that `Instr.wf` refuses (`test_illFormed_<k>`).
-/
open Sys2Proof Sys2Proof.Machine

namespace Sys2Proof.Tests

-- One theorem at a time: the kernel's evaluations side by side take more memory than a check has.
set_option Elab.async false

/-! Small states: reset with fields set. -/

/-- `s` with each listed field set. -/
def put (s : State) (l : List (Fld × Nat)) : State := l.foldl (fun t x => t.wr x.1 x.2) s

/-- A device at a boot stage, with its ROM clerks. -/
def at_ (stage : Nat) : State := put State.reset [(Reg.BOOT_STA.STAGE, stage), (Reg.FWP_STA.STATE 0, ClerkSt.ROM)]

/-- A running device: every clerk loaded, every unit present, one rail ON, VFs 1-3 enabled, account 1 with two windows, a ring and tallies. -/
def up : State := put State.reset
  [(Reg.BOOT_STA.STAGE, Stage.RUNNING), (Reg.FWP_STA.STATE 0, ClerkSt.RUNNING), (Reg.FWP_STA.STATE 1, ClerkSt.RUNNING),
    (Reg.FWP_STA.STATE 2, ClerkSt.RUNNING), (Reg.FWP_STA.STATE 3, ClerkSt.RUNNING), (Reg.FWP_STA.STATE 4, ClerkSt.RUNNING),
    (Reg.FWP_STA.STATE 5, ClerkSt.RUNNING), (Reg.PCX_VF_STA.VF_ENABLE, 1), (Reg.PCX_VF_STA.NUM_VFS, 3), (Reg.RAIL_CFG.USED 0, 1),
    (Reg.RAIL_STA.STATE 0, RailSt.ON), (Reg.SUP_STA.SEQ, Seq.ON), (Reg.GLB_STACK_MAP.PRESENT, 0xFF), (Reg.GLB_PORT_MAP.PRESENT, 0x3FFFF),
    (Reg.GLB_UNIT_MAP.UPD_A, 1), (Reg.GLB_UNIT_MAP.UPD_B, 1), (Reg.GLB_UNIT_MAP.LSC, 1), (Reg.GLB_UNIT_MAP.MNT_A, 1), (Reg.GLB_UNIT_MAP.MNT_B, 1),
    (Reg.GLB_UNIT_MAP.VLT, 1), (Reg.GLB_UNIT_MAP.DLK, 1), (Reg.GLB_MEM_SIZE.HALF_A_GIB, 192), (Reg.GLB_MEM_SIZE.HALF_B_GIB, 192),
    (Reg.DLK_STA.UP 0, 1), (Reg.DLK_STA.UP 1, 1), (Reg.CTL.ENABLE 0x41, 1), (Reg.ACT_RINGS.COUNT 1, 4), (Reg.ACT_TALLY.FIRST 1, 64),
    (Reg.ACT_TALLY.UNITS 1, 2), (Reg.ACT_WIN_BASE.BASE 1 0, 16), (Reg.ACT_WIN_CTL.SIZE 1 0, 8), (Reg.ACT_WIN_CTL.RD 1 0, 1), (Reg.ACT_WIN_CTL.WR 1 0, 1),
    (Reg.RING_CFG.SIZE_LOG2 32, 5), (Reg.RING_STA.STATE 32, RingSt.RUNNING)]

/-- `up` with more fields set. -/
def upWith (l : List (Fld × Nat)) : State := put up l

/-- Whether a command answers a next state. -/
def nexts (i : Instr) (s : State) : Bool := match exec i s with | .next _ => true | _ => false

/-! Witnesses of the hypotheses of the obligations, clause by clause. -/

theorem hypotheses_QueueStep : up.pending = [] := by decide +kernel

theorem hypotheses_Counterfoils : (0xFFFFFFFF : Nat) < 2 ^ 32 ∧ (0 : Nat) < 2 ^ 32 := by decide

theorem hypotheses_PostableLiveWrite :
    (up.reqLive (.fn 0) ∧ Req.fn 0 ≠ .hook ∧ hitOf (.fn 0) 0x2100 = .page 0x2100 ∧ up.pageAbsent 2 = false ∧ takesWrites (.fn 0) 2 ∧ pageKind 2 = some (.sup, 0) ∧
      (∃ r, regRowAt 0x2100 = some (r, 0x2100) ∧ r.posted)) ∧
    (up.reqLive .sec ∧ hitOf .sec 0x41100 = .page 0x41100 ∧ up.pageAbsent 0x41 = false ∧ takesWrites .sec 0x41 ∧ pageKind 0x41 = some (.act, 1) ∧
      (∃ r, regRowAt 0x41100 = some (r, 0x41100) ∧ r.posted ∧ r.bytes = 8)) := by
  refine ⟨⟨?_, ?_, ?_, ?_, ?_, ?_, ⟨_, rfl, ?_⟩⟩, ⟨?_, ?_, ?_, ?_, ?_, ⟨_, rfl, ?_⟩⟩⟩ <;> decide +kernel

/-- A running device whose slot 0 checks group 3, the group of the ACT pages. -/
def checking : State :=
  ({ upWith [(Reg.GLB_POST_STA.STATE 0, PostSt.CHECKING), (Reg.GLB_POST_STA.TOKEN 0, 7), (Reg.GLB_POST_BUSY.GROUPS, 8), (Reg.POST_GRP.GROUP 0x41, 3)] with
    slots := [(0, ⟨0, 8, false, 0, false, false⟩)] } : State)

theorem hypotheses_StagedWrites :
    (up.reqLive (.fn 0) ∧ hitOf (.fn 0) 0x41900 = .page 0x41900 ∧ up.pageAbsent 0x41 = false ∧ takesWrites (.fn 0) 0x41 ∧
      pageKind 0x41 = some (.act, 1) ∧ up.stager (.fn 0) .act 1 ∧ (∃ r, regRowAt 0x41100 = some (r, 0x41100) ∧ r.posted ∧ r.bytes = 8 ∧ r.cf = false) ∧
      up.frozen 0x41 = false) ∧
    (checking.reqLive (.fn 0) ∧ checking.pageAbsent 0x41 = false ∧ checking.frozen 0x41) ∧
    (∃ r k, regRowAt k = some (r, k) ∧ r.posted ∧ r.cf ∧ r.bytes = 8 ∧ k % 0x1000 < 0x800 ∧ up.frozen (k / 0x1000) = false
      ∧ hitOf (.fn 0) (k + 0x800) = .page (k + 0x800) ∧ takesWrites (.fn 0) (k / 0x1000) ∧ up.pageAbsent (k / 0x1000) = false) ∧
    cfOk 5 = false ∧ cfOk (cfOf 5) := by
  refine ⟨⟨?_, ?_, ?_, ?_, ?_, ?_, ⟨_, rfl, ?_⟩, ?_⟩, ?_, ⟨_, 0x2110, rfl, ?_⟩, ?_⟩ <;> decide +kernel

/-- Slot 0's mode at an action, and its last token. -/
def slotMode (a : Nat) : State := upWith [(Reg.GLB_POST_MODE.ACTION 0, a), (Reg.GLB_POST_STA.TOKEN 0, 7)]

theorem hypotheses_PostAcks :
    up.ownsSlot (.fn 0) 0 ∧ up.ownsSlot .svc 1 ∧ up.ownsSlot .fab 3 ∧ (slotMode 1).rd (Reg.GLB_POST_MODE.ACTION 0) = 1 ∧
    ((slotMode 0).postSt 0 ≠ PostSt.CHECKING ∧ (slotMode 0).postSt 0 ≠ PostSt.ARMED ∧ 7 = (slotMode 0).rd (Reg.GLB_POST_STA.TOKEN 0)) ∧
    (checking.ownsSlot (.fn 0) 0 ∧ checking.postSt 0 = PostSt.CHECKING) ∧
    (let s := (slotMode 3).wr (Reg.GLB_POST_STA.STATE 0) PostSt.APPLIED
     s.ownsSlot (.fn 0) 0 ∧ s.rd (Reg.GLB_POST_MODE.ACTION 0) = 3 ∧ s.postSt 0 = PostSt.APPLIED) ∧
    ((slotMode 3).postSt 0 = PostSt.IDLE ∧ 65535 ≠ (slotMode 3).rd (Reg.GLB_POST_STA.TOKEN 0)) ∧
    (let s := ({ (slotMode 3).wr (Reg.GLB_POST_STA.STATE 0) PostSt.CHECKING with slots := [(0, ⟨2, 8, false, 0, false, false⟩)] } : State)
     s.postSt 0 = PostSt.CHECKING ∧ (s.slot 0).action = 2) := by decide +kernel

/-- `checking` with slot 0's mode at CANCEL. -/
def cancelling (strobed : Bool) : State :=
  ({ checking.wr (Reg.GLB_POST_MODE.ACTION 0) 3 with slots := [(0, ⟨0, 8, false, 0, strobed, false⟩)] } : State)

theorem hypotheses_CancelAndStrobe : ∀ b : Bool,
    (cancelling b).ownsSlot (.fn 0) 0 ∧ (cancelling b).rd (Reg.GLB_POST_MODE.ACTION 0) = 3 ∧ 7 = (cancelling b).rd (Reg.GLB_POST_STA.TOKEN 0) ∧
      (cancelling b).slotBusy 0 ∧ ((cancelling b).slot 0).action ≠ 2 ∧ (tblGet default (cancelling b).postWait 0).active = false ∧
      ((cancelling b).slot 0).strobed = b ∧ ((cancelling b).slot 0).timed = false := by decide +kernel

theorem hypotheses_ApplyEdge :
    let s := (cancelling true).wr Reg.VLT_STA.COMPUTE_CUT 1
    s.slotBusy 0 ∧ (s.slot 0).strobed ∧ (s.slot 0).timed = false ∧ (tblGet default s.postWait 0).active = false ∧
      (s.pagesIn (s.slot 0).mask).any computePage ∧ s.on Reg.VLT_STA.COMPUTE_CUT := by decide +kernel

/-- `up` with every clamp released. -/
def unclamped : State := upWith [(Reg.CLK_STA.CLAMP_SAFE, 0), (Reg.CLK_PWR_DIV.DIV, 1)]

theorem hypotheses_EffectiveDivider :
    (up.direct (.fn 0) ∧ up.clkChange = none ∧ up.clamped) ∧ (unclamped.direct .svc ∧ unclamped.clkChange = none ∧ unclamped.clamped = false) := by
  decide +kernel

theorem hypotheses_FormatRoundTrip : ∀ f ∈ [Fmt.FP32, Fmt.BF16, Fmt.E4M3, Fmt.E5M2], ((floatFmt f).decode 1).isNan = false ∧ 1 < 2 ^ (8 * fmtUnit f) := by
  decide +kernel

/-- Two members' contributions to a SUM of FP32, and the same in the other order. -/
def twoWays : CollStep × CollStep :=
  let e : (Nat × Nat × Nat) × List Int := ((Stage.DATA, 0, 0), [3])
  let f : (Nat × Nat × Nat) × List Int := ((Stage.DATA, 0, 1), [-5])
  ({ (default : CollStep) with got := [e, f] }, { (default : CollStep) with got := [f, e] })

theorem hypotheses_ClearingOrderFree :
    let j : CollJob := { (default : CollJob) with code := 0x0400, x := ⟨0, 4, Fmt.FP32, 0, 0⟩, y := ⟨64, 4, Fmt.FP32, 0, 0⟩ }
    j.clears ∧ [0, 1].Perm [1, 0] ∧ twoWays.1.got.Perm twoWays.2.got ∧ (twoWays.1.got.map (·.1)).Nodup
      ∧ twoWays.1.reduced j [0, 1] 0 ≠ [] := by decide +kernel

theorem hypotheses_HbmLineFrame :
    (List.replicate 64 (1 : Byte)).length = 64 ∧ nexts (.hbmFullWrite 0x40 (List.replicate 64 1)) up ∧
      nexts (.hbmPartialWrite 0x40 0 0 0 (List.replicate 64 1) [true]) up := by decide +kernel

theorem hypotheses_Bar2Isolation :
    nexts (.bar2Write 1 0 [1] []) up ∧ up.bar2Code 1 0 1 true ≠ Code.OK := by decide +kernel

theorem hypotheses_VfIsolation : nexts (.registerWrite (.fn 1) 0x40 4 0xFF 5) up ∧ 0x22040 / 0x1000 = 0x20 + 2 := by decide +kernel

theorem hypotheses_SpecialWriters :
    nexts .thermtrip up := by decide +kernel

theorem hypotheses_FusesOnlySet : (match step up with | .next _ => true | _ => false) = true := by decide +kernel

theorem hypotheses_MemoriesStayCanonical : up.memoryWf = true ∧ (match step up with | .next _ => true | _ => false) = true := by decide +kernel

/-- A part without the Minting engine, the update units and the loss-scale unit. -/
def partS : State := upWith [(Reg.GLB_UNIT_MAP.MNT_A, 0), (Reg.GLB_UNIT_MAP.UPD_A, 0), (Reg.GLB_UNIT_MAP.LSC, 0)]

theorem hypotheses_ReadsOfPages :
    ((pageKind 0x2A0).isSome ∧ partS.pageAbsent 0x2A0 ∧ partS.pageAbsent 0x2B2) ∧ (pageKind 0x100 = some (.til, 0) ∧ up.pageAbsent 0x100 = false) ∧
    (pageKind 0 = some (.glb, 0) ∧ ∀ r key, regRowAt (0x1000 * 0 + 0x800 - 0x800) = some (r, key) → r.posted = false) ∧
    hitOf (.fn 0) 0xA000 = .unmapped ∧ hitOf (.fn 3) 0x3000 = .unmapped := by
  refine ⟨by decide +kernel, by decide +kernel, ⟨rfl, ?_⟩, rfl, rfl⟩
  intro r key h
  have : regRowAt (0x1000 * 0 + 0x800 - 0x800) = some (⟨0x0, 1, 4, 4, 0x0, 0x0, false, false, 0x0, 0xffffffff⟩, 0) := by decide +kernel
  simp_all only [Option.some.injEq, Prod.mk.injEq]
  rw [← h.1]

theorem hypotheses_ResetAndBootStages :
    (State.reset.stage = Stage.RESET ∧ State.reset.boot.waitOff = false) ∧ ((at_ Stage.RAILS).boot.hook = none) ∧
    ((at_ Stage.RAILS).wr Reg.SUP_STA.SEQ Seq.ON).rd Reg.SUP_STA.SEQ = Seq.ON ∧ ((at_ Stage.RAILS).rd Reg.SUP_STA.SEQ ≠ Seq.ON) ∧
    (∀ g ∈ [Stage.RAILS, Stage.MARCH, Stage.HBM_TRAIN, Stage.PCIE, Stage.HALTED], (at_ g).stage = g ∧ (at_ g).bootGoes ∧ (at_ g).boot.hook = none) := by
  decide +kernel

/-- A public key, a firmware image of seven sections signed with its private key, and a device that loads it: the key's hash stands in slot 0. -/
def imagePoint : List Byte := 4 :: beBytes 48 0xd5136d1655c65b914e665c9ed35e4e01d1d8da847736957a6a751ea4cf2f80a1380f08c2ae239bc498d1b1bb3fba744f 
  ++ beBytes 48 0xe746b1ce69a33ebe8e8a90604f1b2804397cf0410fed1beb08a12e00f8e7f3ec07a6774569844826d0370826f7f1f9f
def image : List Byte :=
  leBytes 16 (0x56444C48 + 2 * 2 ^ 32 + 1 * 2 ^ 48 + 902 * 2 ^ 64 + 7 * 2 ^ 104) ++ leBytes 16 (0xE + 0xFFFF * 2 ^ 16 + 1 * 2 ^ 32 + 1 * 2 ^ 64)
    ++ (List.range 6).flatMap (fun n => leBytes 16 (1 + n * 2 ^ 8 + (0x200 + 64 * n) * 2 ^ 32 + 1 * 2 ^ 64)) ++ leBytes 16 (2 + 0x380 * 2 ^ 32 + 6 * 2 ^ 64)
    ++ zeros 144 ++ imagePoint ++ zeros 31
    ++ beBytes 48 0x4e47a237cc608f03d38bf953c2c25c8cb99de4bbada9288a6b43656520b2559143f1fd344dde210802bbc630315996be
    ++ beBytes 48 0xd0de824235534598c220b2a7756e243532d2ad730d8ed1c571661e9cdbb205171add67422e0f0749b300c2e40a8565e
    ++ (List.range 6).flatMap (fun _ => 1 :: zeros 63) ++ [0, 0, 0, 0, 1, 0]

/-- The device that loads `image`. -/
def loading : State :=
  let hash := 0x5191bae257e21483e3643cd1ad31aa576a4f29a31cac45acd6d09566536f74a1f9a11fc7914cb787bc711531ebf894dc
  let s : State := { put (at_ Stage.LOADING) [(Reg.GLB_PART.PART_CODE, 1), (Reg.BOOT_FW_LEN.LEN, 902), (Reg.GLB_MEM_SIZE.HALF_A_GIB, 192)]
    with fuses := (List.range 6).map fun i => (64 + i, BitVec.ofNat 72 (rowWord (hash / 2 ^ (64 * i) % 2 ^ 64))) }
  { s with fuses := s.fuses ++ [(71, BitVec.ofNat 72 (rowWord (cfOf (s.regionCrc 2))))] }

/-- The image passes checks 4 to 7 of R203. -/
theorem hypotheses_FirmwareImage : loading.secUp ∧ loading.stage = Stage.LOADING ∧
    ((loading.stageImage image).imageCode (loading.stageImage image).stagedCopy).1 = Code.OK := by
  have h : loading.rd Reg.BOOT_FW_LEN.LEN = image.length := by decide +kernel
  rw [State.stagedCopy_stageImage, h, padTo_self]
  refine ⟨?_, ?_, ?_⟩ <;> decide +kernel

/-- A device whose hook `h` runs. -/
def hooked (h : Nat) : State := { up with boot := { up.boot with hook := some h } }

theorem hypotheses_HooksAndFirmware :
    ((hooked 3).boot.hook = some 3 ∧ (0 : Nat) < 0x100) ∧ (∀ bytes, Fetch.poison ≠ .ok bytes) ∧
    (let s := put (at_ Stage.AWAIT_FIRMWARE) [(Reg.BOOT_FW_ADDR.ADDR, 0x1000), (Reg.BOOT_FW_LEN.LEN, 0x200)]
     s.secUp ∧ s.pf (.fn 0) ∧ s.resetting 4 = false ∧ s.stage = Stage.AWAIT_FIRMWARE ∧ s.on Reg.BOOT_STA.RAILS_FAULT = false ∧ s.rd Reg.BOOT_FW_ADDR.ADDR % 4096 = 0 ∧
       0x200 ≤ s.rd Reg.BOOT_FW_LEN.LEN ∧ s.rd Reg.BOOT_FW_LEN.LEN ≤ 0x2000000) ∧
    (up.secUp ∧ up.pf (.fn 0) ∧ up.resetting 4 = false ∧ up.stage = Stage.RUNNING) ∧
    ((at_ Stage.UNLOADING).secUp ∧ (at_ Stage.UNLOADING).stage = Stage.UNLOADING ∧ (at_ Stage.UNLOADING).ops = [] ∧ (at_ Stage.UNLOADING).ringsInUse = []) := by
  refine ⟨?_, (fun _ h => nomatch h), ?_, ?_, ?_⟩ <;> decide +kernel

theorem hypotheses_RegisterAccesses :
    (let s := put (at_ Stage.RUNNING) [(Reg.GLB_PORT_MAP.PRESENT, 0)]
     s.reqLive (.fn 0) ∧ hitOf (.fn 0) 0x240000 = .page (0x1000 * 0x240) ∧ s.pageAbsent 0x240) ∧
    (up.fnLive 0 ∧ up.wideRead 0 0x100 = some up.now) ∧ (up.fnLive 1 ∧ up.wideRead 1 0x80000 = some (up.tally 64)) ∧
    (up.wideRead 0 (0x100 + 4) = none ∧ up.beyond 0 (0x100 + 4) = false ∧ hitOf (.fn 0) (0x100 + 4) ≠ .page Reg.VLT_VMAIN.NOW.key ∧
      tblGet none (up.latch 0 0x100 7).split 0 = some (0x100, 7)) := by decide +kernel

theorem hypotheses_PageRegisters :
    (up.reqLive (.fn 0) ∧ up.pageAbsent 0 = false ∧ takesWrites (.fn 0) 0 ∧ (Req.fn 0).direct) ∧
    (up.reqLive (.fn 3) ∧ up.pageAbsent 0x23 = false ∧ takesWrites (.fn 3) 0x23 ∧ pageKind 0x23 = some (.mbx, 3)) ∧
    (up.reqLive (.fn 0) ∧ up.pageAbsent 5 = false ∧ takesWrites (.fn 0) 5 ∧ pageKind 5 = some (.spx, 0)) ∧
    (pageKind 5 = some (.spx, 0) ∧ noSoftReset .spx = false ∧ ctlTaker (.fn 0) .spx ∧ takesWrites (.fn 0) 5 ∧ up.pageAbsent 5 = false ∧ up.resetting 5 = false) ∧
    (let s := upWith [(Reg.CTL.SOFT_RESET 5, 1)]
     s.resetting 5 ∧ s.unitIdle 5) := by decide +kernel

theorem hypotheses_OtpReadRow : up.pf (.fn 0) ∧ (0 : Nat) < 2048 ∧ 2047 < 2048 := by decide +kernel

/-- Slot 0 with a running POST. -/
def posting (st : Nat) (timed strobed recheck : Bool) : State :=
  { up.wr (Reg.GLB_POST_STA.STATE 0) st with slots := [(0, ⟨0, 0, timed, 0, strobed, recheck⟩)] }

theorem hypotheses_Posts :
    (∀ a ∈ [0, 1, 2], (slotMode a).ownsSlot (.fn 0) 0 ∧ (slotMode a).rd (Reg.GLB_POST_MODE.ACTION 0) = a ∧ (slotMode a).startAck 0 65535 = Code.OK) ∧
    (slotMode 3).rd (Reg.GLB_POST_MODE.ACTION 0) = 3 ∧ (slotMode 0).startAck 0 7 ≠ Code.OK ∧
    ((posting 1 false false false).postSt 0 = PostSt.CHECKING ∧ ((posting 1 false false false).slot 0).action ≠ 2 ∧ ((posting 1 false false false).slot 0).strobed = false) ∧
    ((posting 2 true false false).postSt 0 = PostSt.ARMED ∧ ((posting 2 true false false).slot 0).time ≤ (posting 2 true false false).now + 80) ∧
    ((posting 1 false true false).slotBusy 0 ∧ ((posting 1 false true false).slot 0).strobed ∧ ((posting 1 false true false).slot 0).timed = false) ∧
    ((posting 2 true false true).postSt 0 = PostSt.ARMED ∧ ((posting 2 true false true).slot 0).recheck) ∧
    (let s := ({ posting 1 false false false with slots := [(0, ⟨2, 0, false, 0, false, false⟩)] } : State)
     s.postSt 0 = PostSt.CHECKING ∧ (s.slot 0).action = 2) := by decide +kernel

theorem hypotheses_ClocksAndDieLink :
    up.direct (.fn 0) ∧ up.clerkSt 2 = ClerkSt.RUNNING ∧ ({ up with clkChange := some 3 } : State).clkChange = some 3 ∧ up.on Reg.CLK_STA.GLITCH = false ∧
    (up.on (Reg.DLK_STA.UP 1) ∧ up.clkStopped = false) ∧ (upWith [(Reg.DLK_STA.RETRAINING 0, 1)]).on (Reg.DLK_STA.RETRAINING 0) ∧
    (upWith [(Reg.DLK_STA.RETRAINING 0, 1)]).dlkAttempts + 1 < 3 := by decide +kernel

theorem hypotheses_SupplyControl :
    (up.supTakes (.fn 0) ∧ up.upBlocked = false ∧ up.usedMask ≠ 0 ∧ ({ up with rails := [(0, { (default : Rail) with en := true })] } : State).enMask ≠ 0) ∧
    up.on Reg.SUP_STA.THERMTRIP = false ∧ up.on Reg.SUP_HOLD_STA.REVERSED = false ∧
    (let s := upWith [(Reg.RAIL_PMB.BOUND 19, 1), (Reg.RAIL_VOUT.VMIN 19, 700), (Reg.RAIL_VOUT.VMAX 19, 900)]
     s.on (Reg.RAIL_PMB.BOUND 19) ∧ (s.rail 19).held = none ∧ s.reqLive .pwr ∧ s.rd (Reg.RAIL_VOUT.VMIN 19) ≤ 700 ∧ 900 ≤ s.rd (Reg.RAIL_VOUT.VMAX 19) ∧
       s.on (Reg.RAIL_STA.PMB_FORMAT 19) = false ∧ s.on (Reg.RAIL_STA.PMB_STALE 19) = false ∧ s.rd (Reg.RAIL_VOUT.VMAX 19) < 901) := by decide +kernel

/-- `up` with channel 1 in a state. -/
def rail1 (st : Nat) : State := upWith [(Reg.RAIL_CFG.USED 1, 1), (Reg.RAIL_STA.STATE 1, st), (Reg.RAIL_UV.UV 1, cfOf 700), (Reg.RAIL_OV.OV 1, cfOf 900)]

theorem hypotheses_RailSteps :
    (∀ st ∈ [RailSt.SENSE_CHECK, RailSt.DISCHARGE, RailSt.BACKOFF, RailSt.ON], (rail1 st).railSt 1 = st) ∧
    (rail1 RailSt.SENSE_CHECK).checking 1 ∧ ((rail1 RailSt.START_DELAY).railSt 1 = RailSt.START_DELAY ∧ (rail1 RailSt.START_DELAY).checksDue = false) ∧
    ((rail1 RailSt.SOFT_START).railSt 1 = RailSt.SOFT_START ∧ (rail1 RailSt.SOFT_START).railWindow 1 = some (700, 900) ∧
      (rail1 RailSt.SOFT_START).rd (Reg.RAIL_STA.SENSE 1) < 700) ∧
    (let s := (rail1 RailSt.SOFT_START).wr (Reg.RAIL_STA.SENSE 1) 701
     s.railSt 1 = RailSt.SOFT_START ∧ s.railWindow 1 = some (700, 900) ∧ 700 < s.rd (Reg.RAIL_STA.SENSE 1) ∧ s.rd (Reg.RAIL_STA.SENSE 1) < 900) ∧
    ((rail1 RailSt.STOP_WAIT).railSt 1 = RailSt.STOP_WAIT ∧ ((rail1 RailSt.STOP_WAIT).rail 1).waitOn = 0) := by decide +kernel

theorem hypotheses_SerialPorts :
    (up.OwnsPort 0 .sec ∧ up.OwnsPort 1 .svc ∧ (State.reset.port 1).tx.length < 64) ∧
    ((({ up with spx := [(1, { (default : Spx) with rx := [5] })] } : State).port 1).rx = [5]) ∧
    (up.resetting 6 = false ∧ up.xferCode 1 = Code.OK ∧ up.rd (Reg.SPX_XFER_STA.STATE 1) ≠ 1 ∧ up.rd (Reg.SPX_XFER_STA.STATE 1) ≠ 2) ∧
    (let s := ({ upWith [(Reg.SPX_XFER_STA.STATE 0, 1)] with spx := [] } : State)
     s.resetting 5 = false ∧ s.controller 0 ∧ s.rd (Reg.SPX_PORT_STA.OP 0) = 0 ∧ (s.port 0).demand = [] ∧ s.rd (Reg.SPX_XFER_STA.STATE 0) = 1) ∧
    (let s := ({ up with spx := [(0, { (default : Spx) with demand := [(3, 64)] })] } : State)
     s.controller 0 ∧ s.rd (Reg.SPX_PORT_STA.OP 0) = 0 ∧ (s.port 0).demand = [(3, 64)]) ∧
    (let s := ({ upWith [(Reg.SPX_PORT_STA.OP 0, 1)] with spx := [(0, { (default : Spx) with xfer := some (0, 256, true) })] } : State)
     s.rd (Reg.SPX_PORT_STA.OP 0) = 1 ∧ (s.port 0).xfer = some (0, 256, true)) ∧
    (let s := upWith [(Reg.SPX_XIP_CFG.ENABLE 0 3, 1)]
     (s.reqLive .sec || s.reqLive .hook) ∧ s.xipServed 3 0xFFFFF8 ∧ s.xipServed 3 (0xFFFFF8 + 8 - 1) ∧ s.resetting 5 = false ∧ 0xFFFFF8 % 64 + 8 ≤ 64) ∧
    (let s := ({ upWith [(Reg.SPX_PORT_STA.OP 0, 2)] with spx := [(0, { (default : Spx) with fetch := some (0, 64, true, false) })] } : State)
     s.rd (Reg.SPX_PORT_STA.OP 0) = 2 ∧ (s.port 0).fetch.isSome) := by
  refine ⟨⟨⟨?_, ?_, ?_, ?_⟩, ⟨?_, ?_, ?_, ?_⟩, ?_⟩, ?_⟩ <;> decide +kernel

/-- SPX1 selected as a slave, with words in its FIFOs and a word begun. -/
def slave (tx rx : List Word) (w : Word × Bool) : State :=
  { upWith [(Reg.SPX_SLV_STA.SELECTED 1, 1)] with spx := [(1, { (default : Spx) with tx := tx, rx := rx, word := some w })] }

theorem hypotheses_SlaveWords :
    (up.controller 1 = false ∧ up.on (Reg.SPX_SLV_STA.SELECTED 1) = false) ∧
    (∀ s ∈ [slave [7] [] (7, true), slave [] [] (0, false), slave [7] (List.replicate 64 1) (7, true)],
      s.slaveOn ∧ s.stage ≠ Stage.HALTED ∧ s.bmc.due = []) ∧
    (((slave [7] [] (7, true)).port 1).word = some (7, true) ∧ ((slave [7] [] (7, true)).port 1).tx = [7] ∧ ((slave [7] [] (7, true)).port 1).rx.length < 64) ∧
    (((slave [] [] (0, false)).port 1).word = some (0, false) ∧ ((slave [] [] (0, false)).port 1).rx.length < 64) ∧
    64 ≤ ((slave [7] (List.replicate 64 1) (7, true)).port 1).rx.length := by
  refine ⟨?_, ?_, ?_, ?_, ?_⟩ <;> decide +kernel

/-- A request message with SEQ 9, and a device on whose pair it waits. -/
def msg (typ : Nat) (payload : List Byte) : Fetch := .ok (jzMessage 1 0 0 typ 0 0 9 payload)
def mail (a p : Nat) : State :=
  ({ upWith [(Reg.MBX_STA.STATE a p, 1), (Reg.MBX_STA.ATTACHED a p, 1), (Reg.BOOT_IMAGE.PROTO_MAJOR, 1)] with pairs := [(2 * a + p, ⟨9, 1, 0, [], 0, .ok⟩)] } : State)

/-- The request passes the checks of R310, has the type, and meets a condition. -/
def asked (s : State) (a p typ : Nat) (f : Fetch) (c : State → Jz → Bool) : Bool :=
  pairExists a p && s.rd (Reg.MBX_STA.STATE a p) = 1 && s.svcUp && match s.mbxCheck a p f with | .good m => m.typ = typ && c (s.speak a p f) m | _ => false

theorem hypotheses_DoorbellsAndBadMessages :
    (pairExists 3 0 ∧ up.fnLive 3 ∧ up.resetting 0x23 = false ∧ up.rd (Reg.MBX_STA.STATE 3 0) = 0) ∧ (mail 1 0).rd (Reg.MBX_STA.STATE 1 0) = 1 ∧
    (match (mail 1 0).mbxCheck 1 0 .timeout with | .early c => decide (c = Code.TIMEOUT) | _ => false) = true ∧
    (match (mail 1 0).mbxCheck 1 0 (msg 0x0030 []) with | .failed t c => decide (t = 0x0030 ∧ c = Code.PERMISSION) | _ => false) = true ∧
    (match ((mail 1 0).wr (Reg.MBX_STA.SEQ_VALID 1 0) 1 |>.wr (Reg.MBX_LAST_SEQ.SEQ 1 0) 9).mbxCheck 1 0 (msg 0x0020 []) with | .repeated => true | _ => false) = true := by
  refine ⟨?_, ?_, ?_, ?_, ?_⟩ <;> decide +kernel

/-- Account 0's window over the first GiB. -/
def windowed : State := put (mail 0 1) [(Reg.ACT_WIN_BASE.BASE 0 0, 0), (Reg.ACT_WIN_CTL.SIZE 0 0, 512), (Reg.ACT_WIN_CTL.RD 0 0, 1), (Reg.ACT_WIN_CTL.WR 0 0, 1)]

theorem hypotheses_SessionsAndServices :
    asked (mail 0 1) 0 1 0x0001 (msg 0x0001 (zeros 8)) (fun t m => m.payload.length = 8 && fieldAt m.payload 4 4 = 0 && t.stage ≠ Stage.LOADED_REFUSED && t.serves m) ∧
    asked ((mail 0 1).wr Reg.BOOT_IMAGE.PROTO_MAJOR 2) 0 1 0x0001 (msg 0x0001 (zeros 8)) (fun t m => m.payload.length = 8 && fieldAt m.payload 4 4 = 0 && !t.serves m) ∧
    asked ((mail 0 1).wr Reg.BOOT_STA.STAGE Stage.LOADED_REFUSED) 0 1 0x0001 (msg 0x0001 (zeros 8)) (fun t m =>
      m.payload.length = 8 && fieldAt m.payload 4 4 = 0 && t.stage = Stage.LOADED_REFUSED) ∧
    asked (mail 3 0) 3 0 0x0004 (msg 0x0004 []) (fun t m => m.payload = [] && t.serves m) ∧
    asked (mail 0 1) 0 1 0x0010 (msg 0x0010 (leBytes 4 0 ++ leBytes 4 4056)) (fun _ m => m.payload.length = 8 && decide (fieldAt m.payload 4 4 ≤ 4056)) ∧
    asked (mail 0 1) 0 1 0x0011 (msg 0x0011 (zeros 8)) (fun _ m => m.payload.length = 8 && decide (fieldAt m.payload 4 4 ≤ 4056)) ∧
    asked windowed 0 1 0x0012 (msg 0x0012 (leBytes 8 0x4000000 ++ zeros 36)) (fun t m => m.payload.length = 44 && decide (fieldAt m.payload 8 4 < 2) &&
      fieldAt m.payload 0 8 % 0x4000000 = 0 && View.inWindow t.rd 0 (fieldAt m.payload 0 8) 0x4000000 false false && !t.meetsFw (fieldAt m.payload 0 8) 0x4000000) ∧
    asked (mail 0 1) 0 1 0x0013 (msg 0x0013 (leBytes 4 7)) (fun _ m => m.payload.length = 4 && fieldAt m.payload 0 4 = 7) ∧
    asked (mail 0 1) 0 1 0x0013 (msg 0x0013 (leBytes 4 0xFF)) (fun _ m => m.payload.length = 4 && fieldAt m.payload 0 4 = 0xFF) := by
  refine ⟨?_, ?_, ?_, ?_, ?_, ?_, ?_, ?_, ?_⟩ <;> decide +kernel

theorem hypotheses_AccountAreas :
    asked (mail 3 0) 3 0 0x0020 (msg 0x0020 (leBytes 4 0x1FFB8 ++ leBytes 4 8)) (fun t m =>
      m.payload.length = 8 && t.areaCode 3 (fieldAt m.payload 0 4) (fieldAt m.payload 4 4) 4064 = Code.OK) ∧
    (∀ flags ∈ [0, 1], ∀ valid ∈ [0x1FFC0, 0xFFFFFFFF],
      asked (mail 3 0) 3 0 0x0021 (msg 0x0021 (leBytes 4 8 ++ leBytes 4 8 ++ leBytes 4 valid ++ leBytes 4 flags ++ zeros 8)) (fun t m =>
        m.payload.length = 16 + fieldAt m.payload 4 4 && fieldAt m.payload 12 4 = flags && fieldAt m.payload 8 4 = valid &&
          t.areaCode 3 (fieldAt m.payload 0 4) (fieldAt m.payload 4 4) 4048 = Code.OK)) := by
  refine ⟨?_, ?_⟩ <;> decide +kernel

/-- A request frame in the RX FIFO of SPX1, and the device that reads it. -/
def frame (op : Nat) (payload : List Word) : List Word :=
  let b := [BitVec.ofNat 32 (0xB5000000 + op * 0x10000 + 0x100 + payload.length)] ++ payload
  b ++ [frameCrc b]
def board (mode : Nat) (l : List (Fld × Nat)) (op : Nat) (payload : List Word) : State :=
  ({ put State.reset ([(Reg.BOOT_STA.STAGE, Stage.RUNNING), (Reg.FWP_STA.STATE 0, ClerkSt.RUNNING), (Reg.FWP_STA.STATE 1, ClerkSt.RUNNING),
    (Reg.FWP_STA.STATE 2, ClerkSt.RUNNING), (Reg.BOOT_STA.MODE, mode)] ++ l) with spx := [(1, { (default : Spx) with rx := frame op payload })] } : State)

/-- The server is ready, reads a good frame of the opcode that nothing excludes, and the frame meets a condition. -/
def framed (s : State) (op : Nat) (c : State → Frame → Bool) : Bool :=
  s.bmcReady && match s.bmcRead.bmcFrame with
    | some (f, true) => f.op = op && frameNeeds f && !(s.bmcRead.bmc.hasLast && s.bmcRead.bmc.lastOp = f.op && s.bmcRead.bmc.lastTag = f.tag)
        && s.bmcRead.bmcRefusal op = Code.OK && c s.bmcRead f
    | _ => false

theorem hypotheses_FuseProgramming :
    (let s := (mail 0 1).wr Reg.OTP_STA.STATE Lc.MANUFACTURE
     s.secUp ∧ s.lcRun.phase = .none ∧
     asked s 0 1 0x0030 (msg 0x0030 (leBytes 4 14 ++ zeros 4 ++ leBytes 8 1)) (fun t m => m.payload.length = 16 && decide (fieldAt m.payload 0 4 < 2048) &&
       fieldAt m.payload 4 4 = 0 && t.rowPermitted (fieldAt m.payload 0 4) && appendContent (fieldAt m.payload 0 4) ≠ some (fieldAt m.payload 8 8)) ∧
     asked s 0 1 0x0030 (msg 0x0030 (leBytes 4 2047 ++ zeros 4 ++ leBytes 8 1)) (fun t m => m.payload.length = 16 && decide (fieldAt m.payload 0 4 < 2048) &&
       fieldAt m.payload 4 4 = 0 && !t.rowPermitted (fieldAt m.payload 0 4)) ∧
     asked s 0 1 0x0031 (msg 0x0031 (leBytes 4 1)) (fun t m => m.payload.length = 4 && decide (fieldAt m.payload 0 4 < 9) && !t.sealed (fieldAt m.payload 0 4)
       && t.sealPermitted (fieldAt m.payload 0 4) && !t.regionUnretired (fieldAt m.payload 0 4))) ∧
    asked ((mail 0 1).wr Reg.OTP_STA.STATE Lc.FIELD) 0 1 0x0032 (msg 0x0032 (leBytes 4 2)) (fun t m => m.payload.length = 4 && decide (fieldAt m.payload 0 4 < 3)
      && t.rowPermitted (88 + fieldAt m.payload 0 4) && !t.lastKey (fieldAt m.payload 0 4)) ∧
    asked (put (mail 0 1) [(Reg.CTL.ENABLE 0x41, 0), (Reg.RING_STA.STATE 32, 0)]) 0 1 0x0033 (msg 0x0033 (leBytes 8 (cfOf 1))) (fun t m =>
      t.lcRefusal m.payload = Code.OK && cfVal (fieldAt m.payload 0 8) = some 1) ∧
    (let s := board Mode.MANUFACTURE_TEST [(Reg.FWP_STA.STATE 1, ClerkSt.RUNNING), (Reg.OTP_STA.STATE, Lc.MANUFACTURE)] 0x07 [14, 0, 1, 0]
     s.secUp ∧ s.lcRun.phase = .none ∧ framed s 0x07 (fun t f => (ofWords f.payload).length = 16 && decide (fieldAt (ofWords f.payload) 0 4 < 2048) &&
       fieldAt (ofWords f.payload) 4 4 = 0 && t.rowPermitted (fieldAt (ofWords f.payload) 0 4) &&
       appendContent (fieldAt (ofWords f.payload) 0 4) ≠ some (fieldAt (ofWords f.payload) 8 8))) ∧
    framed (board Mode.MANUFACTURE_TEST [(Reg.OTP_STA.STATE, Lc.MANUFACTURE)] 0x08 [1]) 0x08 (fun t f => (ofWords f.payload).length = 4 &&
      fieldAt (ofWords f.payload) 0 4 = 1 && !t.sealed 1 && t.sealPermitted 1 && !t.regionUnretired 1) ∧
    framed (board Mode.RECOVERY [(Reg.OTP_STA.STATE, Lc.FIELD)] 0x09 [2]) 0x09 (fun t f => (ofWords f.payload).length = 4 &&
      fieldAt (ofWords f.payload) 0 4 = 2 && t.rowPermitted 90 && !t.lastKey 2) ∧
    framed (board Mode.RECOVERY [] 0x0A (toWords 2 (leBytes 8 (cfOf 1)))) 0x0A (fun t f => t.lcRefusal (ofWords f.payload) = Code.OK
      && cfVal (fieldAt (ofWords f.payload) 0 8) = some 1) := by
  refine ⟨⟨?_, ?_, ?_, ?_, ?_⟩, ?_, ?_, ⟨?_, ?_, ?_⟩, ?_, ?_, ?_⟩ <;> decide +kernel

theorem hypotheses_VaultStores :
    (up.vltTakes (.fn 0) ∧ up.vltTakes .sec ∧ up.vault.run = none ∧ up.vault.clean = false) ∧ (up.svcUp ∧ up.on Reg.VLT_STA.ARMED = false) ∧
    (({ up with vault := { up.vault with clean := true } } : State).vault.clean) ∧
    (let s := ({ up with vault := { up.vault with run := some ⟨1, false, [(5, 9)], 7, []⟩ } } : State)
     s.vault.run = some ⟨1, false, [(5, 9)], 7, []⟩ ∧ s.vault.nextSources = [] ∧ s.vault.autoStore = false ∧ (7 : Nat) < 2 ^ 64 ∧ s.supply ≠ 2) := by decide +kernel

/-- The compute cut with a resume due, and LOST. -/
def cut : State :=
  ({ upWith [(Reg.VLT_STA.COMPUTE_CUT, 1), (Reg.VLT_STA.SUPPLY, Supply.CUT), (Reg.SUP_STA.SEQ, Seq.PARTIAL), (Reg.SUP_AUTO_RESUME.ENABLE, 1)] with
    uptime := 10000000, vault := { up.vault with storeRise := some 0, resetRise := none } } : State)
def lostState (rise : Option Nat) : State :=
  ({ put State.reset [(Reg.VLT_STA.SUPPLY, Supply.LOST)] with uptime := 10000000, vault := { up.vault with resetRise := rise } } : State)

theorem hypotheses_SupplyLoss :
    (up.lost = false ∧ 919 < up.vWarn ∧ up.vWarn + 20 ≤ 940 ∧ 849 < up.vStore ∧ up.vStore + 20 ≤ 870 ∧ up.vault.storeRise = none) ∧
    (799 < cut.vReset ∧ (cut.vmain 799).supply = 3 ∧ cut.lost = false) ∧ (799 < up.vReset ∧ (up.vmain 799).supply = 0) ∧
    (cut.resumeReady ∧ cut.upBlocked = false ∧ cut.pf (.fn 0) ∧ cut.resetting 7 = false ∧ cut.on Reg.SUP_AUTO_RESUME.ENABLE) ∧
    ((lostState none).lost ∧ (lostState none).vReset + 20 ≤ 820 ∧ (lostState none).vault.resetRise = none ∧ (lostState none).vault.run = none) ∧
    ((lostState (some 0)).vault.resetRise = some 0 ∧ 0 + 10000000 ≤ (lostState (some 0)).uptime) := by decide +kernel

/-- `up` with other facts of the health test. -/
def tested (t due run arm : Bool) : State :=
  ({ up with vault := { up.vault with tested := t, testDue := due, testRunning := run, reached := arm } } : State)

theorem hypotheses_HoldUp :
    up.vltTakes .pwr ∧ (tested false false true false).vault.testRunning ∧
    (∀ due, (tested false due false false).charges ∧ (tested false due false false).vault.testRunning = false ∧ (tested false due false false).vault.onHold = false
      ∧ (tested false due false false).vault.testDue = due) ∧
    (∀ low, let s := (tested false false false false).wrb Reg.CLK_STA.CLAMP_VWARN low
      s.vault.tested = false ∧ s.vault.testDue = false ∧ s.vault.testRunning = false ∧ s.vault.testRetry = false ∧ s.charges ∧ s.on Reg.CLK_STA.CLAMP_VWARN = low) ∧
    ((tested true false false false).vault.tested ∧ (tested true false false false).vault.testRunning = false ∧ (tested true false false false).vault.testDue = false) ∧
    up.vault.run = none ∧
    ((upWith [(Reg.VLT_STA.CHARGING, 1)]).on Reg.VLT_STA.CHARGING ∧ (upWith [(Reg.VLT_STA.CHARGING, 1)]).charges) ∧
    (upWith [(Reg.VLT_STA.CHARGING, 0), (Reg.SUP_HOLD_STA.VHOLD, 1600)]).vholdHeld ∧ ((upWith [(Reg.VLT_STA.CAP_LOST, 1)]).on Reg.VLT_STA.CAP_LOST) := by decide +kernel

theorem hypotheses_ClerkHalts :
    up.clerkUp 5 ∧ Req.clerk .dsb = some 5 ∧ ((up.clerk 5).lastKick + up.rd (Reg.FWP_WD.MIN 5) * 1000000 ≤ up.uptime) ∧
    (let s := upWith [(Reg.FWP_WD.MIN 5, 1)]
     s.uptime < (s.clerk 5).lastKick + s.rd (Reg.FWP_WD.MIN 5) * 1000000) ∧
    (regionPermits (up.clerk 5).regions (up.clerk 5).comp 0xFFFFFFFF 1 = false ∧ (0xFFFFFFFF : Nat) < 2 ^ 32) ∧
    (let s := ({ up with uptime := 1000000000 } : State)
     (s.clerk 5).lastKick + s.rd (Reg.FWP_WD.MAX 5) * 1000000 ≤ s.uptime) := by decide +kernel

theorem hypotheses_ClerkService :
    ({ up with dumps := [3] } : State).dumps = [3] ∧ ((upWith [(Reg.FWP_STA.STATE 5, ClerkSt.RESTARTING)]).clerkSt 5 = ClerkSt.RESTARTING ∧
      (upWith [(Reg.FWP_STA.STATE 5, ClerkSt.RESTARTING)]).secUp) ∧
    (let s := ({ up with ports := [(9, List.replicate 32 (0, []))] } : State)
     s.clerkUp 5 ∧ ((tblGet [] s.ports 9).drop 1).length < 32 ∧ 32 ≤ ((tblGet [] s.ports 9).drop 0).length) ∧
    0 ≤ up.rd (Reg.FWP_LOG_LEVEL.LEVEL 5) ∧ up.logQueue.length < 64 ∧
    (let s := ({ up.readyHeader logRegion with logQueue := [default], logLost := 0 } : State)
     s.logQueue = [default] ∧ s.logLost = 0 ∧ s.headerOk logRegion) ∧
    (let s := ({ up with trace := { (default : Trace) with on := true, mask := 2 ^ 255 } } : State)
     s.trace.on ∧ bit s.trace.mask 255 ∧ s.computeOn) := by decide +kernel

theorem hypotheses_ThermalAndPower :
    up.stage ≠ Stage.RESET ∧ up.stackPresent 7 ∧
    (({ up with uptime := 1000000, coolSince := some 0 } : State).coolSince = some 0 ∧ 0 + 1000000 ≤ ({ up with uptime := 1000000, coolSince := some 0 } : State).uptime) ∧
    (let s := ({ up with uptime := 100000, currentSince := some 0 } : State)
     s.currentHigh = false ∧ s.currentSince = some 0 ∧ 0 + 100000 ≤ s.uptime) ∧
    (799 < (upWith [(Reg.THM_ICC_MAX.A, 800), (Reg.THM_ICC_MAX.B, 800)]).rd Reg.THM_ICC_MAX.A ∧
      799 < (upWith [(Reg.THM_ICC_MAX.A, 800), (Reg.THM_ICC_MAX.B, 800)]).rd Reg.THM_ICC_MAX.B) ∧ up.clerkSt 2 = ClerkSt.RUNNING ∧
    (upWith [(Reg.FWP_STA.STATE 2, ClerkSt.ROM)]).clerkSt 2 = ClerkSt.ROM ∧ up.reqLive .pwr ∧ (up.direct (.fn 0) ∧ Req.fn 0 ≠ .pwr) := by decide +kernel

/-- Account 1 with a 2 MiB aperture onto its window. -/
def apertured : State := upWith [(Reg.ACT_APER.BASE 1, 16), (Reg.ACT_APER.ENABLE 1, 1), (Reg.PCX_BAR2.VF_LOG2, 21)]

theorem hypotheses_HostPort :
    (apertured.bar2Hit 1 0x1FFFFF 1 ∧ apertured.bar2Code 1 0x1FFFFF 1 false = Code.OK ∧ apertured.bar2Code 1 0x1FFFFF 1 true = Code.OK ∧ apertured.computeOn) ∧
    (let s := apertured.wr (Reg.ACT_APER.ENABLE 1) 0
     s.bar2Hit 1 0 1 ∧ s.bar2Code 1 0 1 true ≠ Code.OK) ∧
    (up.hostReady ∧ (upWith [(Reg.PCX_VF_STA.VF_ENABLE, 0)]).on Reg.PCX_VF_STA.VF_ENABLE = false ∧ (upWith [(Reg.PCX_VF_STA.VF_ENABLE, 0)]).hostReady) ∧
    (up.on Reg.PCX_VF_STA.VF_ENABLE ∧ up.fnExists 3 ∧ 63 < 64 ∧ ((some (16, 4, 15)).any fun x : Nat × Nat × Nat => badAccess x.1 x.2.1 x.2.2) = false) ∧
    (up.stage ≠ Stage.RESET ∧ up.stage ≠ Stage.HALTED ∧ up.stage ≠ Stage.RECOVERY) ∧
    (upWith [(Reg.PCX_LINK_STA.UP, 1)]).on Reg.PCX_LINK_STA.UP ∧ up.pf (.fn 0) ∧ cfOk 1 = false := by decide +kernel

theorem hypotheses_AccountLife :
    (up.pf (.fn 0) ∧ up.on (Reg.CTL.SOFT_RESET 0x43) = false ∧ up.enableRefusal 3 = Code.OK) ∧
    (let s := upWith [(Reg.ACT_STA.DRAINED 3, 0)]
     s.on (Reg.ACT_STA.DRAINED 3) = false ∧ s.oldOps 3 = [] ∧ s.oldHeld 3 = 0 ∧ s.oldReqs 3 = []) ∧
    (let s := upWith [(Reg.ACT_STA.SCRUBBING 3, 1), (Reg.ACT_STA.DRAINED 3, 1)]
     s.on (Reg.ACT_STA.SCRUBBING 3) ∧ s.on (Reg.ACT_STA.DRAINED 3) ∧ s.scrubOver 3) ∧
    (upWith [(Reg.ACT_STA.FLR 31, 1)]).on (Reg.ACT_STA.FLR 31) ∧ (up.hostReady ∧ up.fnExists 3) := by decide +kernel

theorem hypotheses_Administration :
    asked (mail 0 1) 0 1 0x0040 (msg 0x0040 []) (fun _ _ => true) ∧
    ((mail 0 1).zeroRun = none ∧ asked (mail 0 1) 0 1 0x0041 (msg 0x0041 (leBytes 8 0x100000000 ++ leBytes 4 1 ++ zeros 4)) (fun t m => t.hbmZeroCode m.payload = Code.OK)) ∧
    ({ up with zeroRun := some (32, 1, 0, 0x200000) } : State).zeroRun = some (32, 1, 0, 0x200000) ∧
    ((mail 0 1).clerkSt 3 = ClerkSt.RUNNING ∧ asked (mail 0 1) 0 1 0x0060 (msg 0x0060 []) (fun _ m => m.payload = [])) ∧
    asked (put (mail 0 1) [(Reg.TSY_CFG.ROLE, Role.ROOT)]) 0 1 0x0061 (msg 0x0061 (leBytes 8 5)) (fun t m => m.payload.length = 8 && t.role = Role.ROOT && !t.on Reg.TSY_STA.TIME_SET && !t.postArmed) ∧
    (let s := upWith [(Reg.POST_GRP.GROUP 0x41, 3)]
     let p := leBytes 4 1 ++ zeros 396
     p.length = 400 ∧ fieldAt p 4 4 < 4 ∧ rulesReservedOk (p.drop 16) ∧ fieldAt p 0 4 < 32 ∧ s.postGroup (0x40 + fieldAt p 0 4) = 3 ∧
       ((s.pagesIn 8).all fun q => q = 0x40 + fieldAt p 0 4 || s.rd (Reg.STAGE_DIRTY.CLUSTER q) = 0) ∧ s.slotBusy 1 = false ∧
       bit (s.rd Reg.GLB_POST_BUSY.GROUPS) 3 = false) := by
  refine ⟨?_, ⟨?_, ?_⟩, ?_, ⟨?_, ?_⟩, ?_, ?_⟩ <;> decide +kernel

/-- A device on whose admin pair a group request waits, with group 5 pending. -/
def grouped : State :=
  ({ put windowed [(Reg.POST_GRP.GROUP 0x280, 9)] with groups := [(5, { (default : Group) with pending := some ⟨1, 0, 0, 0, 1, 1, 10000, [0], 0⟩ })] } : State)

theorem hypotheses_GroupAdministration :
    grouped.clerkSt 3 = ClerkSt.RUNNING ∧
    asked grouped 0 1 0x0070 (msg 0x0070 (leBytes 2 4095 ++ zeros 2 ++ leBytes 4 1 ++ leBytes 8 (cfOf 1) ++ zeros 4 ++ leBytes 4 1 ++ leBytes 4 1 ++ zeros 4
        ++ leBytes 8 0x200000 ++ zeros 8)) (fun t m => t.groupFields 0 m.payload = Code.OK && t.groupCode (fieldAt m.payload 0 2) (t.groupDescriptor m.payload) = Code.OK) ∧
    asked grouped 0 1 0x0071 (msg 0x0071 (zeros 4 ++ leBytes 4 1 ++ zeros 8 ++ leBytes 2 5 ++ zeros 30)) (fun t m => m.payload.length = 48 && fieldAt m.payload 0 4 = 0 &&
      fieldAt m.payload 4 4 = 1 && fieldAt m.payload 16 2 = 5 && t.groupAllowed 0 5 && (t.group 5).pending.isSome && t.postGroup 0x280 = 9 && !t.slotBusy 3 &&
      !bit (t.rd Reg.GLB_POST_BUSY.GROUPS) 9) ∧
    asked grouped 0 1 0x0072 (msg 0x0072 (leBytes 8 5)) (fun t m => m.payload.length = 8 && fieldAt m.payload 2 6 = 0 && fieldAt m.payload 0 2 = 5 && t.groupAllowed 0 5 &&
      !t.groupInUse 5 && !t.promoting 5) ∧
    asked grouped 0 1 0x0073 (msg 0x0073 (leBytes 8 5)) (fun t m => m.payload.length = 8 && fieldAt m.payload 2 6 = 0 && t.groupAllowed 0 (fieldAt m.payload 0 2)) := by
  refine ⟨?_, ?_, ?_, ?_, ?_⟩ <;> decide +kernel

/-- A device whose log holds one entry. -/
def logged (op : Nat) (p : List Word) : State :=
  ({ board 0 [] op p with logQueue := [⟨1, 0, 3, 7, 0, 0, 0⟩] } : State) |> fun s => match exec .logPortWrite s with | .next t => t | _ => s

theorem hypotheses_BoardManagement :
    (let s := ({ board 0 [] 1 [] with spx := [(1, { (default : Spx) with rx := [0xB5010100, 0] })] } : State)
     s.bmcReady ∧ (match s.bmcRead.bmcFrame with | some (_, b) => !b | none => false) = true) ∧
    (let s := ({ board 0 [] 1 [] with spx := [(1, { (default : Spx) with rx := [0xB5010101, 0] })] } : State)
     s.bmcUp ∧ s.bmcRead.bmc.frame = [0xB5010101, 0] ∧ frameWhole [0xB5010101, 0] = false) ∧
    framed (board 0 [] 0x01 []) 0x01 (fun _ _ => true) ∧
    framed (logged 0x02 [0, 1]) 0x02 (fun t f => f.arg 1 = 1 && decide (f.arg 0 + 1 ≤ (t.readyHeader logRegion).ringCount logRegion) &&
      entryOk ((t.readyHeader logRegion).ringEntry logRegion (f.arg 0))) ∧
    framed (board 0 [] 0x03 [7, 0x7FFBC, 1]) 0x03 (fun _ f => decide (f.arg 0 < 8) && decide (1 ≤ f.arg 2) && decide (f.arg 2 ≤ 59) &&
      decide (f.arg 1 + 4 * f.arg 2 ≤ 0x7FFC0) && f.arg 1 % 4 = 0) ∧
    framed (board 0 [] 0x0B []) 0x0B (fun _ _ => true) ∧
    framed (board 0 [] 0x0C [0, 59]) 0x0C (fun _ f => decide (1 ≤ f.arg 1) && decide (f.arg 1 ≤ 59)) ∧
    framed (board 0 [] 0x0D [1, 2, 3]) 0x0D (fun _ _ => true) := by
  refine ⟨?_, ?_, ?_, ?_, ?_, ?_, ?_, ?_⟩ <;> decide +kernel

/-- The SFDP space of a flash of 2^25 bytes: header, two parameter headers, nine DWORDs with a 64 KiB erase 0xD8, and the 4-byte address
instructions of read, page program and that erase. -/
def sfdp : List Byte := leBytes 8 0xFF01010650444653 ++ leBytes 8 0xFF00001809010600 ++ leBytes 8 0xFF00003C02010084 ++ zeros 4 ++ leBytes 4 0x0FFFFFFF ++ zeros 20
  ++ leBytes 4 0xD810 ++ zeros 4 ++ leBytes 4 0x241 ++ leBytes 4 0xDC
def flash : FlashCheck := ⟨⟨0, 0, 0, 0xFFFF, true⟩, sfdp⟩

theorem test_sfdp : flashReadStep flash = 0 ∧ sfdpDensity sfdp = 25 ∧ eraseInstr sfdp false = some 0xD8 ∧ eraseInstr sfdp true = some 0xDC ∧ sfdpHas4 sfdp 6
    ∧ (sfdpChoice sfdp).xipCfg = 0x0B080001 ∧ midDelay 0x0E70 = some 5 := by decide +kernel

theorem hypotheses_FlashOpcodes :
    (∀ a ∈ [0xFFFFF0, 0xFFFFF8, 0x1000000], let s := board Mode.RECOVERY [] 0x04 [3, BitVec.ofNat 32 a, 4]
     s.rd (Reg.SPX_PORT_STA.OP 0) = 0 ∧ s.rd (Reg.SPX_XFER_STA.STATE 0) = 0 ∧ framed s 0x04 (fun t f =>
       let u := t.flashLearn (f.arg 0) flash
       decide (f.arg 0 < 4) && f.arg 1 = a && decide (1 ≤ f.arg 2) && decide (f.arg 2 ≤ 60) &&
         u.flashCode (f.arg 0) (f.arg 1) (4 * f.arg 2) (sfdpHas4 (u.sfdpOf (f.arg 0)) 0) = Code.OK)) ∧
    framed (board Mode.RECOVERY [] 0x05 [3, 0x10F0, 4, 1, 2, 3, 4]) 0x05 (fun t f =>
      let u := t.flashLearn (f.arg 0) flash
      decide (1 ≤ f.arg 2) && decide (f.arg 2 ≤ 59) && u.flashCode (f.arg 0) (f.arg 1) (4 * f.arg 2) (sfdpHas4 (u.sfdpOf (f.arg 0)) 6) = Code.OK
        && decide (f.arg 1 % 256 + 4 * f.arg 2 ≤ 256)) ∧
    framed (board Mode.RECOVERY [] 0x06 [3, 0xFF0000]) 0x06 (fun t f =>
      let u := t.flashLearn (f.arg 0) flash
      u.flashCode (f.arg 0) (f.arg 1) 0x10000 true = Code.OK && f.arg 1 % 0x10000 = 0 &&
        eraseInstr (u.sfdpOf (f.arg 0)) (decide (0x1000000 ≤ f.arg 1)) = some 0xD8) := by
  refine ⟨?_, ?_, ?_⟩ <;> decide +kernel

theorem hypotheses_RingControl :
    (up.RingTakes 1 1 3 ∧ up.RingTakes 0 1 0) ∧
    (up.acctOn 1 ∧ up.ringsBarred = false ∧ 0 < (32 + 2 ^ 32 - up.rd (Reg.RING_TAIL.COUNT 32)) % 2 ^ 32 ∧ (32 + 2 ^ 32 - up.rd (Reg.RING_HEAD.COUNT 32)) % 2 ^ 32 ≤ up.ringSize 32) ∧
    up.enableCode 32 = Code.OK ∧ up.enableCode 33 ≠ Code.OK ∧
    (∀ st ∈ [RingSt.DISABLED, RingSt.FAULT], (upWith [(Reg.RING_STA.STATE 35, st)]).ringSt 35 = st ∧ up.ringOps 35 = [] ∧ (up.ringX 35).held = []) ∧
    (up.ownsTally 1 64 ∧ up.ownsTally 1 191 ∧ up.ownsTally 1 192 = false ∧ up.ownsTally 1 63 = false) ∧
    up.on (Reg.RING_ABORT_STA.BUSY 32) = false ∧ ((upWith [(Reg.RING_ABORT_STA.BUSY 35, 1)]).on (Reg.RING_ABORT_STA.BUSY 35) ∧ up.computeOn) := by
  refine ⟨⟨⟨?_, ?_, ?_⟩, ⟨?_, ?_, ?_⟩⟩, ?_, ?_⟩ <;> decide +kernel

/-- An op of account 1, ring 0, SEQ 1, and the device that holds it. -/
def opWith (desc : Desc) (ph : OpPhase) : Op := { (default : Op) with acct := 1, seq := 1, desc := desc, phase := ph }
def holding (o : Op) : State := { up with ops := [o] }
/-- A descriptor of an opcode whose other fields are 0. -/
def bare (c : Nat) : Op := opWith (BitVec.ofNat 1024 c) .waiting
/-- COPY of 64 bytes from 0x2000000 to 0x2001000, in account 1's window. -/
def copyDesc : Desc := BitVec.ofNat 1024 (0x0100 + 2 ^ 64 + 0x2000000 * 2 ^ 512 + 64 * 2 ^ 576 + 1 * 2 ^ 608 + 0x2001000 * 2 ^ 640 + 64 * 2 ^ 704 + 1 * 2 ^ 736)

theorem hypotheses_AdmissionAndEnds :
    (let s := upWith [(Reg.RING_TAIL.COUNT 32, 1)]
     s.canFetch 32 ∧ s.acctOn 1 ∧ s.on (Reg.RING_BASE.LOC 32) = false) ∧
    (let s := upWith [(Reg.RING_TAIL.COUNT 32, 1), (Reg.RING_BASE.LOC 32, 1), (Reg.RING_BASE.ADDR 32, 0x2000)]
     s.canFetch 32 ∧ s.acctOn 1 ∧ s.on (Reg.RING_BASE.LOC 32) ∧ s.linkHolds (s.ringHalf 32) (s.headAddr 32) = false ∧ s.ringAccess 32 (s.headAddr 32) 128 false = none) ∧
    (let o := { opWith (BitVec.ofNat 1024 (0x0001 + (0x80000000 + 64) * 2 ^ 128 + 5 * 2 ^ 256)) .waiting with since := some 0 }
     let s := ({ upWith [(Reg.RING_CFG.WAIT_LIMIT 32, 1)] with ops := [o], uptime := 1000000 } : State)
     s.opAt 1 0 1 = some o ∧ s.waitOver o ∧ s.computeOn) ∧
    (let s := upWith [(Reg.RING_CPL_BASE.LOC 32, 1)]
     let t := ({ s with ops := [opWith 1 .done] } : State)
     t.opAt 1 0 1 = some (opWith 1 .done) ∧ t.computeOn ∧ t.signalsHeld (opWith 1 .done) = false ∧ DmaEnd.timeout ≠ .ok ∧ t.on (Reg.RING_CPL_BASE.LOC 32)) ∧
    (codeListed Code.OK ∧ codeListed Code.ABORTED ∧ Code.ABORTED ≠ Code.OK ∧ (opWith 1 .paused).phase = .paused ∧ (holding (opWith 1 .paused)).computeOn ∧ (holding (opWith 1 .paused)).clerkUp (4 + (holding (opWith 1 .paused)).opHalf (opWith 1 .paused)) ∧
      (opWith 1 .paused).abort = false) := by
  refine ⟨?_, ?_, ?_, ?_, ?_⟩ <;> decide +kernel

theorem hypotheses_TalliesAndPlainOps :
    (up.fnLive 1 ∧ up.ownsTally 1 64 ∧ up.fnLive 0 ∧ (262143 : Nat) < 262144) ∧ (holding (bare 1)).Issues 1 0 1 1 (bare 1) ∧
    ((holding (bare 2)).Issues 1 0 1 2 (bare 2) ∧ ((holding (bare 2)).begun (bare 2)).tally (descAt (bare 2).desc 0x40 4) = descAt (bare 2).desc 0x48 8) ∧
    (let o := opWith (BitVec.ofNat 1024 (2 + 2 ^ 576)) .waiting
     (holding o).Issues 1 0 1 2 o ∧ ((holding o).begun o).tally (descAt o.desc 0x40 4) ≠ descAt o.desc 0x48 8) ∧
    (let o := opWith (BitVec.ofNat 1024 (2 + 131072 * 2 ^ 512)) .waiting
     let s := { upWith [(Reg.DLK_STA.UP 0, 0), (Reg.DLK_STA.UP 1, 0)] with ops := [o] }
     (holding o).Issues 1 0 1 2 o ∧ tallyHome (descAt o.desc 0x40 4) ≠ ((holding o).begun o).opHalf o.run ∧ ((holding o).begun o).dlkUp ∧
       s.Issues 1 0 1 2 o ∧ tallyHome (descAt o.desc 0x40 4) ≠ (s.begun o).opHalf o.run ∧ (s.begun o).dlkUp = false) := by
  simp only [State.Issues]; refine ⟨?_, ?_, ?_, ?_, ?_⟩ <;> decide +kernel

theorem hypotheses_TileOpsAndTiles :
    (∀ c ∈ [0x0100, 0x0101, 0x0102, 0x0103, 0x0110, 0x0120, 0x0130, 0x0131], (holding (bare c)).Issues 1 0 1 c (bare c) ∧
      ((holding (bare c)).begunMem (bare c)).usesFault (((holding (bare c)).begunMem (bare c)).opHalf (bare c).run)
        (((holding (bare c)).begunMem (bare c)).opUses (bare c).run) = none) ∧
    (let o := opWith copyDesc .waiting
     (holding o).Issues 1 0 1 0x0100 o ∧ ((holding o).opUses o).length = 2 ∧
       ((holding o).begunMem o).usesFault (((holding o).begunMem o).opHalf o.run) (((holding o).begunMem o).opUses o.run) = none) ∧
    (up.computeOn ∧ up.tileWaits 47 = false ∧ up.on (Reg.STA.FAULT 0x12F) = false ∧ up.pf (.fn 0) ∧ up.on (Reg.TIL_STA.URGENT_ONLY 47) = false ∧ up.resetting 0x12F = false) ∧
    (upWith [(Reg.TIL_STA.STATE 47, 3)]).rd (Reg.TIL_STA.STATE 47) = 3 := by
  simp only [State.Issues]; refine ⟨?_, ?_, ?_, ?_⟩ <;> decide +kernel

theorem hypotheses_HbmAccesses :
    (up.computeOn ∧ up.stackAt 0x40 = some 0 ∧ up.stackFaulted 0 = false ∧ up.stackBusy 0x40 = false ∧ up.poisoned 0x40 = false) ∧
    (let s := ({ up with poisonLine := [(1, true)] } : State)
     s.stackAt 0x7F = some 0 ∧ s.poisoned (0x7F / 64 * 64)) ∧
    (up.stackPresent 7 ∧ up.computeOn ∧ up.stackFaulted 7 = false ∧ up.on (Reg.HMC_STA.RETRAINING 7) = false ∧ (upWith [(Reg.HMC_STA.RETRAINING 7, 1)]).on (Reg.HMC_STA.RETRAINING 7)) ∧
    (up.rd (Reg.HMC_SCRUB_CFG.PERIOD_H 7) ≠ 0 ∧ up.poisoned (up.scrubAddr 7 (tblGet 0 up.scrubPos 7)) = false ∧ tblGet 0 up.scrubPos 7 + 1 < stackLines) := by
  refine ⟨?_, ?_, ?_, ?_⟩ <;> decide +kernel

theorem hypotheses_BanksAndPower :
    (up.computeOn ∧ placeOf 0x1000000000008 = .bank 0 0 8 ∧ up.bankFaulted 0 0 = false ∧ (up.isSecure 0 0 && up.on (Reg.BNK_TAMPER.LATCHED 0)) = false ∧
      up.bankWiping 0 0 = false ∧ up.bankOffline 0 0 = false ∧ up.bankSta 0 0 = 0 ∧ up.poisoned (0x1000000000008 / 8 * 8) = false) ∧ up.direct (.fn 0) ∧
    (let s := upWith [(Reg.BNK_PWR_REQ.REQ 1 2, 2 ^ 30)]
     s.bankReq 1 47 ≠ 0 ∧ s.bankSta 1 47 = 0 ∧ tblGet false s.woken 95 = false ∧ (s.bankWait.any fun x => x.isFor 1 47) = false) ∧
    (upWith [(Reg.BNK_PWR_STA.STATE 1 2, 3 * 2 ^ 30)]).bankSta 1 47 = 3 ∧ (tblGet false ({ up with woken := [(95, true)] } : State).woken 95 = true ∧ up.bankSta 1 47 = 0) ∧
    (let s := upWith [(Reg.BNK_OFFLINE_REQ.MASK 1, 2 ^ 47)]
     bit (s.rd (Reg.BNK_OFFLINE_REQ.MASK 1)) 47 ∧ s.bankOffline 1 47 = false ∧ (s.bankWait.any fun x => x.isFor 1 47) = false) := by
  refine ⟨?_, ?_, ?_, ?_, ?_, ?_⟩ <;> decide +kernel

theorem hypotheses_WipesTestsAndLogs :
    (let s := ({ up with errFifo := [(0x140, [5]), (0x187, [7])] } : State)
     s.pageAbsent 0x187 = false ∧ tblGet [] s.errFifo 0x187 = [7] ∧ tblGet [] s.errFifo 0x140 = [5]) ∧
    (tblGet [] ({ up with mteLog := [(1, [6, 7])] } : State).mteLog 1 = [6, 7] ∧ tblGet [] up.mteLog 0 = []) ∧
    ({ up with wipeVerify := [(1, 3)] } : State).wiping 1 ≠ 0 ∧
    (up.pf (.fn 0) ∧ up.reqLive (.fn 0) ∧ up.resetting 0x143 = false ∧ up.rd (Reg.MTE_STA.STATE 1) ≠ 1 ∧ bit 0x2F01 31 = false) ∧
    (let v := 2 ^ 31 + 0x0101
     bit v 31 ∧ (up.mteFields 1 v).mteRefusal 1 (bits v 0 2) (bits v 8 6) (bit v 16) = Code.OK) ∧
    ((upWith [(Reg.MTE_STA.STATE 1, 1)]).rd (Reg.MTE_STA.STATE 1) = 1 ∧ up.computeOn) := by
  refine ⟨?_, ?_, ?_, ?_, ?_, ?_⟩ <;> decide +kernel

theorem hypotheses_FolioOps :
    (∀ c ∈ [0x0200, 0x0201, 0x0202, 0x0203, 0x0204], (holding (bare c)).Issues 1 0 1 c (bare c) ∧
      ((holding (bare c)).begunMem (bare c)).folioBlocked (bare c).run ((holding (bare c)).begunMem (bare c)).ops = false) ∧
    (∀ c ∈ [0x0200, 0x0201, 0x0202, 0x0203, 0x0204], let o := opWith (BitVec.ofNat 1024 c) .held
     (holding o).opAt 1 0 1 = some o ∧ (holding o).computeOn ∧ o.phase = .held ∧ o.opcode = c ∧ (holding o).folioBlocked o ((holding o).ops.takeWhile fun x => !x.is o.acct o.ring o.seq) = false ∧
       (((holding o).opUses o).any fun u => (holding o).extentBusy ((holding o).opHalf o) u.opd) = false) ∧
    (let m := { (default : PartReq) with peer := true, ref := 1023 }
     up.computeOn ∧ m.peer ∧ m.ref < 1024 ∧ (up.servePart m).code ≠ Code.OK) ∧
    (let m := { (default : PartReq) with peer := true, ref := 1023, srcNode := 9, qheads := 1 }
     let s := { up with folios := [(1023, { (default : Folio) with st := FolioSt.OPEN, kind := 1, homeNode := 9, layers := 1, kvHeads := 1 })] }
     (s.servePart m).code = Code.OK) ∧
    (let s := { up with requests := [{ (default : FabReq) with owner := (1, 0, 1), chan := 1, seq := 8 }] }
     (s.requests.any fun r => r.chan = 1 && r.seq = 8 && s.rspHeld r) = false) ∧ up.direct .fab := by
  simp only [State.Issues]; refine ⟨?_, ?_, ?_, ?_, ?_, ?_⟩ <;> decide +kernel

/-- A device with one whole message of a kind, and one request sent. -/
def inbox (k : Nat) (r : List FabReq) : State :=
  { up with inbox := [{ (default : RxMsg) with src := 5, first := 3, kind := k, complete := true, reqSeq := 8, dstAcct := 1 }], requests := r }
def aRequest : FabReq := { (default : FabReq) with owner := (1, 0, 1), dst := 5, seq := 8 }

theorem hypotheses_FabricMessages :
    (∀ c ∈ [0x0300, 0x0301], (holding (bare c)).Issues 1 0 1 c (bare c)) ∧
    (∀ k ∈ [Kind.WRITE, Kind.READ_REQ, Kind.READ_RSP, Kind.WRITE_DONE, Kind.CONTROL], ((inbox k []).takeMsg k 5 3).isSome ∧ (inbox k []).computeOn ∧
      ((inbox k []).takeMsg k 5 3).any fun x => !(inbox k []).readHeld x.1) ∧
    (∀ k ∈ [Kind.READ_RSP, Kind.WRITE_DONE], ((inbox k [aRequest]).takeMsg k 5 3).any fun x => (x.2.takeRequest x.1).any fun y => !(inbox k [aRequest]).rspHeld y.1) ∧
    (((inbox Kind.READ_RSP []).takeMsg Kind.READ_RSP 5 3).any fun x => (x.2.takeRequest x.1).isNone) ∧ up.clerkUp 3 ∧
    (let s := ({ up with requests := [aRequest], uptime := 10 ^ 12 } : State)
     s.queuedOf (1, 0, 1) = [] ∧ s.requests = [aRequest] ∧ aRequest.owner = (1, 0, 1) ∧ aRequest.entered + s.reqTimeout ≤ s.uptime) := by
  simp only [State.Issues]; refine ⟨?_, ?_, ?_, ?_, ?_, ?_⟩ <;> decide +kernel

/-- A device whose port 17, or 0, is in a state. -/
def port (p st : Nat) : State := upWith [(Reg.FPT_STA.STATE p, st)]

theorem hypotheses_FabricPorts :
    (up.portPresent 17 ∧ up.computeOn ∧ up.direct (.fn 0) ∧ up.resetting 0x251 = false) ∧
    ((port 17 PortSt.DISABLED).portSt 17 = PortSt.DISABLED ∧ (port 17 PortSt.UP).portSt 17 ≠ PortSt.DISABLED ∧ up.bringUpWaits = false) ∧
    (∀ st ∈ [PortSt.TRAINING, PortSt.VERIFY, PortSt.UP, PortSt.ADAPTING, PortSt.DOWN], (port 0 st).portSt 0 = st ∧ (port 0 st).portPresent 0) ∧
    (upWith [(Reg.XPT_MESH.PORTS 0, 0xFFFFFF00)]).isMesh 0 ∧
    (let s := ({ port 0 PortSt.DOWN with uptime := 1000000000 } : State)
     (s.fport 0).downAt + 1000000000 ≤ s.uptime ∧ (s.fport 0).heard + 1000000000 ≤ s.uptime) := by
  refine ⟨?_, ?_, ?_, ?_, ?_⟩ <;> decide +kernel

theorem hypotheses_FabricTransport :
    (up.portPresent 17 ∧ up.computeOn ∧ up.portUp 17 = false) ∧
    (let m := { (default : FabMsg) with dst := 5, chan := 2, port := 0 }
     let s := ({ port 0 PortSt.UP with txStreams := [(42, { (default : TxStream) with msgs := [m] })] } : State)
     s.portUp 0 ∧ s.nextGrant 0 = some m) ∧
    ((port 0 PortSt.UP).portSt 0 = PortSt.UP ∧ 0 < (({ up with rxStreams := [(42, { (default : RxStream) with unacked := 1 })] } : State).rx 5 2).unacked) ∧
    bit ((upWith [(Reg.FPT_PFC.PRIO_EN 0, 128)]).rd (Reg.FPT_PFC.PRIO_EN 0)) 7 ∧ (port 0 PortSt.UP).packetDropped 0 { (default : Packet) with chan := 6 } := by
  refine ⟨?_, ?_, ?_, ?_, ?_⟩ <;> decide +kernel

theorem hypotheses_GlobalTime :
    (let s := put (port 0 PortSt.UP) [(Reg.TSY_CFG.ROLE, Role.MEMBER), (Reg.TSY_SLAVE_PORT.PORT, 0)]
     s.slaved ∧ s.role ≠ Role.ROOT) ∧
    (let s := put (port 0 PortSt.UP) [(Reg.TSY_CFG.ROLE, Role.ROOT), (Reg.XPT_MESH.PORTS 0, 0xFFFFFF00)]
     s.portPresent 0 ∧ s.computeOn ∧ s.portUp 0 ∧ s.masterPort 0) ∧
    (up.reqLive .fab ∧ up.everSynced = false ∧ ({ up with everSynced := true } : State).everSynced) := by
  refine ⟨?_, ?_, ?_⟩ <;> decide +kernel

/-- Account 1 in group 5, whose live version this chip shares with node 9, and its step 4. -/
def version : GroupVer := ⟨1, 0, 0, 0, 1, 1, 1, [0, 9], 0⟩
def aStep : CollStep := { (default : CollStep) with owner := (1, 0, 1), group := 5, ver := version, step := 4 }
def stepping : State :=
  ({ upWith [(Reg.ACT_GROUPS.FIRST 1, 5), (Reg.ACT_GROUPS.COUNT 1, 1)] with groups := [(5, { (default : Group) with live := some version })], steps := [aStep], uptime := 1000000 } : State)
def collFrom (node stage : Nat) : CollMsg :=
  { (default : CollMsg) with srcNode := node, dstAcct := 1, group := 5, stage := stage, srcRank := 1, epoch := cfOf 1, step := 4 }

theorem hypotheses_Collectives :
    (∀ c ∈ [0x0400, 0x0401, 0x0402, 0x0403, 0x0404, 0x0500], (holding (bare c)).Issues 1 0 1 c (bare c) ∧
      ((holding (bare c)).begunMem (bare c)).groupFull (bare c).run ((holding (bare c)).begunMem (bare c)).ops = false) ∧
    (let o := opWith 0x0400 .held
     (holding o).opAt 1 0 1 = some o ∧ o.group.isSome ∧ (holding o).groupFull o ((holding o).ops.takeWhile fun x => !x.is o.acct o.ring o.seq) = false ∧ (holding o).computeOn) ∧
    (∀ st ∈ [Stage.READY, Stage.ROSTER, Stage.EXP, Stage.DATA, Stage.CLOSE, Stage.ERROR], stepping.collCheck (collFrom 9 st) = Code.OK ∧
      stepping.collStepOf (collFrom 9 st) = some aStep) ∧ stepping.collCheck (collFrom 8 Stage.DATA) ≠ Code.OK ∧
    (stepping.stepAt 1 0 1 = some aStep ∧ aStep.issued + aStep.ver.timeout * 1000000 ≤ stepping.uptime) ∧
    (let s := { stepping with early := [(collFrom 9 Stage.DATA, 0, 0)] }
     s.early = [(collFrom 9 Stage.DATA, 0, 0)] ∧ s.msgVersion (collFrom 9 Stage.DATA) = some version ∧ 0 + version.timeout * 1000000 ≤ s.uptime) ∧
    (let k := { (default : KeptRoster) with doneAt := some 0, timeout := 1 }
     let s := { stepping with rosters := [k] }
     s.rosters = [k] ∧ k.doneAt = some 0 ∧ 0 + k.timeout * 1000000 ≤ s.uptime) := by
  simp only [State.Issues]; refine ⟨?_, ?_, ?_, ?_, ?_, ?_, ?_⟩ <;> decide +kernel

theorem hypotheses_StepOps :
    (∀ c ∈ [0x0600, 0x0601, 0x0602, 0x0603], (holding (bare c)).Issues 1 0 1 c (bare c)) ∧ bit (descAt (bare 0x0602).desc 0x58 1) 0 = false ∧
    (let o := opWith (BitVec.ofNat 1024 (0x0602 + 2 ^ 704)) .waiting
     (holding o).Issues 1 0 1 0x0602 o ∧ bit (descAt o.desc 0x58 1) 0 = true) ∧
    (({ up with commits := [default] } : State).commits = [default] ∧ up.svcUp) := by
  simp only [State.Issues]; refine ⟨?_, ?_, ?_, ?_⟩ <;> decide +kernel

/-! Tests: expected values from the worked cases and tables of the spec. -/

/-- R153: the CRC of "123456789". -/
theorem test_crc : crc32c [0x31, 0x32, 0x33, 0x34, 0x35, 0x36, 0x37, 0x38, 0x39] = 0xE3069283 := by decide +kernel

/-- R193: the P-384 signature of "sample" with SHA-384 of RFC 6979, A.2.6. -/
theorem test_signature : ecdsaOk 0xEC3A4E415B4E19A4568618029F427FA5DA9A8BC4AE92E02E06AAE5286B300C64DEF8F0EA9055866064A254515480BC13
    0x8015D9B72D7D57244EA8EF9AC0C621896708A59367F9DFB9F54CA84B3F1C9DB1288B231C3AE0D4FE7344FD2533264720 (sha384 [0x73, 0x61, 0x6D, 0x70, 0x6C, 0x65])
    0x94EDBB92A5ECB8AAD4736E56C691916B3F88140666CE9FA73D64C4EA95AD133C81A648152E44ACF96E36DD1E80FABE46
    0x99EF4AEB15F178CEA1FE40DB2603138F130E740A19624526203B6351D0A3A94FA329C145786E679E7B82C71A38628AC8 = true := by decide +kernel

/-- The counterfoils of the worked cases: a UV of 630 mV, remap entry 2 of row 0x022, and epoch 42. -/
theorem test_counterfoils : cfOf 630 = 0xFFFFFD8900000276 ∧ remapEntry 2 0x22 = 0xFFFDFFDD00020022 ∧ cfOf 42 = 0xFFFFFFD50000002A := by decide +kernel

/-- RAIL_CFG[2] of the worked case: DEPS 0x2, group 1, reaction 1, retries 3, PG_USED and USED. -/
theorem test_railCfg :
    (put State.reset [(Reg.RAIL_CFG.DEPS 2, 2), (Reg.RAIL_CFG.GROUP 2, 1), (Reg.RAIL_CFG.REACTION 2, 1), (Reg.RAIL_CFG.RETRIES 2, 3), (Reg.RAIL_CFG.PG_USED 2, 1),
      (Reg.RAIL_CFG.USED 2, 1)]).cell 0x2180 = 0x6D100002 := by decide +kernel

/-- The torn row of the lifecycle worked case: PROVISIONED with a TORN row 34. -/
theorem test_lcTorn :
    let s : State := { State.reset with fuses := [(32, BitVec.ofNat 72 (rowWord (cfOf 1))), (33, BitVec.ofNat 72 (rowWord (cfOf 2))), (34, BitVec.ofNat 72 (rowWord 0x0FFFF00C00000003))] }
    s.lcFromRows = Lc.PROVISIONED ∧ s.lcTorn = some Lc.FIELD := by decide +kernel

/-- R150: a blank row is a valid codeword, and one bit in error is corrected. -/
theorem test_ecc : decodeRow 0 = ⟨0, 0, false, false⟩ ∧ (decodeRow (BitVec.ofNat 72 (rowWord 0x0123456789ABCDEF ^^^ 2 ^ 63))).data = 0x0123456789ABCDEF := by
  decide +kernel

/-- The memory worked case: an uncorrectable read-modify-write of 0x4_0C08 by a tile for account 5 poisons its line and logs 0x8502_0000_0000_1030. -/
theorem test_partialWritePoisons :
    (match exec (.hbmPartialWrite 0x40C08 0 5 2 [] []) up with
      | .next t => decide (tblGet [] t.errFifo 0x180 = [0x8502000000001030]) && t.poisoned 0x40C00 && t.rd (Reg.HMC_POISON_CNT.MADE 0) = 1
      | _ => false) = true := by decide +kernel

/-- The later whole write of that line clears the poison. -/
theorem test_fullWriteClears :
    (match exec (.hbmFullWrite 0x40C00 (List.replicate 64 1)) ({ up with poisonLine := [(0x40C00 / 64, true)] } : State) with
      | .next t => !t.poisoned 0x40C00 && decide (t.load 0x40C00 2 = [1, 1])
      | _ => false) = true := by decide +kernel

/-- The rings worked case: the header of slot 0 is a NOP with SEQ 1,001 that waits for tally 4,100 ≥ 3 and adds 1 to tally 4,101. -/
def slot0 : Desc := BitVec.ofNat 1024 (0x10001 + 0x3E9 * 2 ^ 64 + 0x80001004 * 2 ^ 128 + 0x80001005 * 2 ^ 192 + 3 * 2 ^ 256 + 2 ^ 384)
theorem test_descriptor : descAt slot0 8 8 = 1001 ∧ descWaits slot0 = [(4100, 3)] ∧ descSignals slot0 = [(4101, 1)] ∧ descHeaderOk slot0 := by decide +kernel

/-- R346, R350: the counterfoil of a wrong device reset sets CF_MISMATCH and nothing resets. -/
theorem test_wrongResetValue : (match exec (.deviceReset (.fn 0) 1 default) up with | .next t => decide (t.stage = Stage.RUNNING) && bit (t.rd (Reg.EVT_RAW.RAW 9)) 25 | _ => false) = true := by
  decide +kernel

/-- R174: the frame of halt reason 0x5. -/
theorem test_haltFrame :
    (match exec .haltFaultFrame (put (at_ Stage.HALTED) [(Reg.OTP_STA.HALT_REASON, 5)]) with
      | .next t => decide (t.out = [.faultFrame ([(false, 400), (true, 100), (true, 100), (true, 100), (true, 100), (true, 100), (true, 100), (false, 100), (true, 100), (false, 100), (true, 700)])])
      | _ => false) = true := by decide +kernel

/-- R436: an add wraps modulo 2^64, and a 32-bit write of the window adds nothing. -/
theorem test_tallyWraps :
    (match exec (.tallyWrite 1 64 8 2) ({ up with tallies := [(64, 0xFFFFFFFFFFFFFFFF)] } : State) with | .next t => decide (t.tally 64 = 1) | _ => false) = true := by decide +kernel

/-- R70: a VF's read behind its tally range reads 0 and leaves PERMISSION. -/
theorem test_readBeyondRange :
    (match exec (.splitReadLatch 1 0x80400) up with | .next t => decide (t.out = [.regRead 0x80400 0] ∧ t.rd (Reg.LAST_STATUS.CODE 0x41) = Code.PERMISSION) | _ => false) = true := by
  decide +kernel

/-- R27, R59: with the die link down a compare-and-set of the other half's tally ends LINK_NOT_READY. -/
theorem test_farTallyWithoutLink :
    (match exec (.tallyCas 1 0 1) ({ upWith [(Reg.DLK_STA.UP 0, 0), (Reg.DLK_STA.UP 1, 0)] with ops := [opWith (BitVec.ofNat 1024 (2 + 131072 * 2 ^ 512)) .waiting] } : State) with
      | .next t => (t.opAt 1 0 1).any fun o => o.code = Code.LINK_NOT_READY
      | _ => false) = true := by decide +kernel

/-- COPY moves its bytes and completes OK. -/
theorem test_copy :
    (match exec (.copy 1 0 1) ({ up with ops := [opWith copyDesc .waiting], mem := [(0x2000005, 7)] } : State) with | .next t => decide (t.load 0x2001005 1 = [7]) | _ => false) = true := by
  decide +kernel

/-- R455: E4M3 codes: 1.0 is 0x38, the largest is 448, and a larger value saturates. -/
theorem test_e4m3 : (convert Fmt.E4M3 (.fin false 1 0)).code = 0x38 ∧ (convert Fmt.E4M3 (.fin false 448 0)).code = 0x7E ∧ (convert Fmt.E4M3 (.fin false 1000 0)).sat := by
  decide +kernel

/-- No word spells a command: every row of the table has no bits. -/
theorem test_noWord : decodeTableWord 16 0 = none ∧ (State.reset.withFetchWord 16 0) = State.reset := ⟨rfl, rfl⟩

/-! An ill-formed command for each range check, which the check refuses: the operand stands at its bound. -/

theorem test_illFormed_1 : ([
    .hookReturn (2 ^ 32), .marchDone 0 0 0 1024 [], .registerWrite .sec 0x4000000 0 0 0, .registerWrite .sec 0 9 0 0,
    .registerWrite .sec 0 0 256 0, .registerWrite .sec 0 0 0 (2 ^ 64), .absentPageWrite .sec 0x4000000, .splitReadLatch 32 0,
    .splitReadLatch 0 0x4000000, .stagedWrite .sec 0x4000000 0 0, .stagedWrite .sec 0 9 0, .stagedWrite .sec 0 0 (2 ^ 64),
    .cfWrite .sec 0x4000000 0 0, .cfWrite .sec 0 9 0, .cfWrite .sec 0 0 (2 ^ 64), .evtRawClear .sec 0x4000 0, .evtRawClear .sec 0 (2 ^ 64),
    .evtEnWrite .sec 0x4000 0, .evtEnWrite .sec 0 (2 ^ 64), .evtForce .sec 0x4000 0, .evtForce .sec 0 (2 ^ 64), .softReset .sec 0x4000,
    .softResetDone 0x4000, .post .sec 4 0 0, .post .sec 0 (2 ^ 16) 0, .post .sec 0 0 (2 ^ 16), .checkOnly .sec 4 0 0,
    .checkOnly .sec 0 (2 ^ 16) 0, .checkOnly .sec 0 0 (2 ^ 16), .discard .sec 4 0 0, .discard .sec 0 (2 ^ 16) 0, .discard .sec 0 0 (2 ^ 16),
    .discardDone 4, .cancel .sec 4 0 0, .cancel .sec 0 (2 ^ 16) 0, .cancel .sec 0 0 (2 ^ 16), .postCheckDone 4, .postStrobe 4,
    .postApply 4 0, .postRecheckDone 4 false] : List Instr).all (fun i => !i.wf) = true := by decide +kernel

theorem test_illFormed_2 : ([
    .clkHostDiv .sec 4, .clkPwrDiv .sec 4, .clockGlitch ⟨false, 0x20000⟩, .dlkFlitCrcFail 2 0, .supGroupOn .sec 256, .supGroupOff .sec 256,
    .senseCheckDone 20 0, .railStartDelayDone 20, .ssTimeout 20, .railStopDelayDone 20, .dischargeTimeout 20, .railBackoffDone 20,
    .retryCounterReset 20, .railSetWrite .sec 20 0, .railSetWrite .sec 0 65536, .otpProgram 32 0 default default [],
    .otpProgram 0 2 default default [], .otpSeal 32 0 default default [], .otpSeal 0 2 default default [],
    .otpRevoke 32 0 default default [], .otpRevoke 0 2 default default [], .lcTransition 32 0 default default [],
    .lcTransition 0 2 default default [], .otpReadRow .sec 2048, .xferStart 2 .sec, .xferFlush 2 .sec, .spxPortGrant 2, .xferDone 2 [],
    .xipRead .sec (2 ^ 32) 0 false, .xipRead .sec 0 9 false, .spxTxdPush 2 .sec default, .spxRxdPop 2 .sec, .slaveWord ⟨33, default⟩, .slaveDeselect 32,
    .fwpKick 6 .sec, .watchdogExpiry 6, .protectionFault 6 0 0 false, .protectionFault 0 (2 ^ 52) 0 false, .protectionFault 0 0 3 false,
    .doubleFault 6] : List Instr).all (fun i => !i.wf) = true := by decide +kernel

theorem test_illFormed_3 : ([
    .clerkRestartDone 6, .dumpDone 6, .portSend 6 default [], .portSend 0 ⟨64, 0, none⟩ [], .logAppend 6 0 0 0 0 0 0, .logAppend 0 65536 0 0 0 0 0,
    .logAppend 0 0 8 0 0 0 0, .logAppend 0 0 0 (2 ^ 32) 0 0 0, .logAppend 0 0 0 0 (2 ^ 32) 0 0, .logAppend 0 0 0 0 0 (2 ^ 32) 0,
    .logAppend 0 0 0 0 0 0 (2 ^ 32), .tracePoint 65536 0 0 0 false, .tracePoint 0 65536 0 0 false, .tracePoint 0 0 65536 0 false,
    .tracePoint 0 0 0 (2 ^ 32) false, .mbxDoorbell 32 0 0 0, .mbxDoorbell 0 32 0 0, .mbxDoorbell 0 0 2 0, .mbxDoorbell 0 0 0 (2 ^ 32),
    .mbxBadMessage 32 0 default default, .mbxBadMessage 0 2 default default, .hello 32 0 default default, .hello 0 2 default default,
    .attach 32 0 default default, .attach 0 2 default default, .vpdRead 32 0 default default, .vpdRead 0 2 default default,
    .manifestRead 32 0 default default, .manifestRead 0 2 default default, .traceCfg 32 0 default default, .traceCfg 0 2 default default,
    .dumpClear 32 0 default default, .dumpClear 0 2 default default, .vaultRead 32 0 default default, .vaultRead 0 2 default default,
    .vaultWrite 32 0 default default, .vaultWrite 0 2 default default, .hbmTempReadout 8 none, .hbmCapWrite .sec 8 0,
    .hbmCapWrite .sec 0 17, .bar2Read 32 0 0] : List Instr).all (fun i => !i.wf) = true := by decide +kernel

theorem test_illFormed_4 : ([
    .bar2Read 0 (2 ^ 38) 0, .bar2Write 32 0 [] [], .bar2Write 0 (2 ^ 38) [] [], .accountEnable .sec 32 false, .drained 32, .scrubDone 32,
    .flr 32, .flrDone 32, .vfDisable 32 false, .deviceReset .sec (2 ^ 64) default, .acctRules 32 0 default default,
    .acctRules 0 2 default default, .hbmZero 32 0 default default, .hbmZero 0 2 default default, .ringDoorbell 32 0 0 0,
    .ringDoorbell 0 32 0 0, .ringDoorbell 0 0 32 0, .ringDoorbell 0 0 0 (2 ^ 32), .ringEnable 32 0 0, .ringEnable 0 32 0,
    .ringEnable 0 0 32, .ringDisable 32 0 0, .ringDisable 0 32 0, .ringDisable 0 0 32, .ringReset 32 0 0, .ringReset 0 32 0,
    .ringReset 0 0 32, .abortAll 32 0 0, .abortAll 0 32 0, .abortAll 0 0 32, .ringAbort 32 0 0 0, .ringAbort 0 32 0 0, .ringAbort 0 0 32 0,
    .ringAbort 0 0 0 (2 ^ 48), .abortDone 32 0, .abortDone 0 32, .ringCplAck 32 0 0 0, .ringCplAck 0 32 0 0, .ringCplAck 0 0 32 0,
    .ringCplAck 0 0 0 (2 ^ 32)] : List Instr).all (fun i => !i.wf) = true := by decide +kernel

theorem test_illFormed_5 : ([
    .ringWatch 32 0 0 0 0 false, .ringWatch 0 32 0 0 0 false, .ringWatch 0 0 32 0 0 false, .ringWatch 0 0 0 (2 ^ 18) 0 false,
    .ringWatch 0 0 0 0 2048 false, .descriptorAdmit 32 0 default default, .descriptorAdmit 0 32 default default, .waitTimeout 32 0 0,
    .waitTimeout 0 32 0, .waitTimeout 0 0 (2 ^ 48), .opComplete 32 0 0, .opComplete 0 32 0, .opComplete 0 0 (2 ^ 48),
    .cplWriteFail 32 0 0 default, .cplWriteFail 0 32 0 default, .cplWriteFail 0 0 (2 ^ 48) default, .exceptionResolve 32 0 0 false 0,
    .exceptionResolve 0 32 0 false 0, .exceptionResolve 0 0 (2 ^ 48) false 0, .exceptionResolve 0 0 0 false 256, .tallyWrite 32 0 0 0,
    .tallyWrite 0 262144 0 0, .tallyWrite 0 0 9 0, .tallyWrite 0 0 0 (2 ^ 64), .nop 32 0 0, .nop 0 32 0, .nop 0 0 (2 ^ 48),
    .tallyCas 32 0 0, .tallyCas 0 32 0, .tallyCas 0 0 (2 ^ 48), .copy 32 0 0, .copy 0 32 0, .copy 0 0 (2 ^ 48), .fill 32 0 0, .fill 0 32 0,
    .fill 0 0 (2 ^ 48), .quantise 32 0 0, .quantise 0 32 0, .quantise 0 0 (2 ^ 48), .gather 32 0 0] : List Instr).all (fun i => !i.wf) = true := by decide +kernel

theorem test_illFormed_6 : ([
    .gather 0 32 0, .gather 0 0 (2 ^ 48), .gemm 32 0 0, .gemm 0 32 0, .gemm 0 0 (2 ^ 48), .eltwise 32 0 0, .eltwise 0 32 0,
    .eltwise 0 0 (2 ^ 48), .norm 32 0 0, .norm 0 32 0, .norm 0 0 (2 ^ 48), .softmax 32 0 0, .softmax 0 32 0, .softmax 0 0 (2 ^ 48),
    .sliceBoundary 48 false, .tileScratchError 48, .tilePwrReq .sec 48 0, .tilePwrReq .sec 0 (2 ^ 64), .tileWakeDone 48,
    .hbmRead (2 ^ 52) 0 0 0, .hbmRead 0 16 0 0, .hbmRead 0 0 32 0, .hbmFullWrite (2 ^ 52) [], .hbmPartialWrite (2 ^ 52) 0 0 0 [] [],
    .hbmPartialWrite 0 16 0 0 [] [], .hbmPartialWrite 0 0 32 0 [] [], .hbmXferRetry 8 0, .hbmRetrainDone 8 false, .stackFault 8,
    .hbmRefresh 8, .scrubLine 8 0, .odeccPoll 8 0, .odeccPoll 0 (2 ^ 32), .errEntryRead 0x4000 0, .errEntryRead 0 9,
    .bankAccess 2 0 0 0 0 none, .bankAccess 0 (2 ^ 52) 0 0 0 none, .bankAccess 0 0 16 0 0 none, .bankAccess 0 0 0 32 0 none,
    .bankPwrReq .sec 2 0 0] : List Instr).all (fun i => !i.wf) = true := by decide +kernel

theorem test_illFormed_7 : ([
    .bankPwrReq .sec 0 3 0, .bankPwrReq .sec 0 0 (2 ^ 64), .bankPwrReached 2 0, .bankPwrReached 0 48, .bankWakeDone 2 0, .bankWakeDone 0 48,
    .bankIdleReturn 2 0, .bankIdleReturn 0 48, .supplyGlitch 2, .wipeDone 2 0, .bankOfflineReq .sec 2 0, .bankOfflineReq .sec 0 (2 ^ 48),
    .bankOffline 2 0, .bankOffline 0 48, .mteStart .sec 2 0, .mteStart .sec 0 (2 ^ 64), .mteDone 2 0 0 [] [], .repairLogRead 2 0,
    .repairLogRead 0 9, .folioOpen 32 0 0, .folioOpen 0 32 0, .folioOpen 0 0 (2 ^ 48), .folioClose 32 0 0, .folioClose 0 32 0,
    .folioClose 0 0 (2 ^ 48), .folioLink 32 0 0, .folioLink 0 32 0, .folioLink 0 0 (2 ^ 48), .appendKv 32 0 0, .appendKv 0 32 0,
    .appendKv 0 0 (2 ^ 48), .attend 32 0 0, .attend 0 32 0, .attend 0 0 (2 ^ 48), .folioOpUnblock 32 0 0, .folioOpUnblock 0 32 0,
    .folioOpUnblock 0 0 (2 ^ 48), .partRsp (2 ^ 32) default, .folQuery .sec 2 0, .folQuery .sec 0 (2 ^ 64)] : List Instr).all (fun i => !i.wf) = true := by decide +kernel

theorem test_illFormed_8 : ([
    .portEnable .sec 18, .portDisable .sec 18, .portRetrain .sec 18, .trainingDone 18 0 0, .trainingDone 0 16 0, .trainingDone 0 0 16,
    .trainingTimeout 18 false, .laneFail 18 0, .laneFail 0 16, .fabricHello 18 default, .helloTimer 18, .helloTimeout 18, .adaptStart 18,
    .adaptDone 18, .downRetry 18, .signalDetect 18, .partnerRetrain 18, .lossOfSignal 18, .linkWaitExpiry 18, .fabricGrant 18,
    .fabricData 18 default, .fabricAck 65536 0 0, .fabricAck 0 8 0, .fabricAck 0 0 (2 ^ 32), .fabricNack 65536 0 0, .fabricNack 0 8 0,
    .fabricNack 0 0 (2 ^ 32), .ackTimer 65536 0, .ackTimer 0 8, .rtoExpiry 65536 0, .rtoExpiry 0 8, .pfcPause 18 0 0, .pfcPause 0 8 0,
    .fabWrite 32 0 0, .fabWrite 0 32 0, .fabWrite 0 0 (2 ^ 48), .fabRead 32 0 0, .fabRead 0 32 0, .fabRead 0 0 (2 ^ 48), .write 65536 0] : List Instr).all (fun i => !i.wf) = true := by decide +kernel

theorem test_illFormed_9 : ([
    .write 0 (2 ^ 32), .readReq 65536 0, .readReq 0 (2 ^ 32), .readRsp 65536 0, .readRsp 0 (2 ^ 32), .writeDone 65536 0,
    .writeDone 0 (2 ^ 32), .control 65536 0, .control 0 (2 ^ 32), .fabricReqTimeout 32 0 0, .fabricReqTimeout 0 32 0,
    .fabricReqTimeout 0 0 (2 ^ 48), .syncTimer 18 false, .timeSet 32 0 default default, .timeSet 0 2 default default,
    .fabricStatus 32 0 default default, .fabricStatus 0 2 default default, .allReduce 32 0 0, .allReduce 0 32 0, .allReduce 0 0 (2 ^ 48),
    .reduceScatter 32 0 0, .reduceScatter 0 32 0, .reduceScatter 0 0 (2 ^ 48), .allGather 32 0 0, .allGather 0 32 0,
    .allGather 0 0 (2 ^ 48), .broadcast 32 0 0, .broadcast 0 32 0, .broadcast 0 0 (2 ^ 48), .allToAll 32 0 0, .allToAll 0 32 0,
    .allToAll 0 0 (2 ^ 48), .collIssueUnblock 32 0 0, .collIssueUnblock 0 32 0, .collIssueUnblock 0 0 (2 ^ 48), .rosterDecide 32 0 0,
    .rosterDecide 0 32 0, .rosterDecide 0 0 (2 ^ 48), .collTimeout 32 0 0, .collTimeout 0 32 0] : List Instr).all (fun i => !i.wf) = true := by decide +kernel

theorem test_illFormed_10 : ([
    .collTimeout 0 0 (2 ^ 48), .earlyArrivalExpiry 2, .groupDefine 32 0 default default, .groupDefine 0 2 default default,
    .groupPromote 32 0 default default, .groupPromote 0 2 default default, .groupRelease 32 0 default default,
    .groupRelease 0 2 default default, .groupQuery 32 0 default default, .groupQuery 0 2 default default, .mint 32 0 0, .mint 0 32 0,
    .mint 0 0 (2 ^ 48), .stepClose 32 0 0, .stepClose 0 32 0, .stepClose 0 0 (2 ^ 48), .update 32 0 0, .update 0 32 0, .update 0 0 (2 ^ 48),
    .mirror 32 0 0, .mirror 0 32 0, .mirror 0 0 (2 ^ 48), .mirrorRestore 32 0 0, .mirrorRestore 0 32 0, .mirrorRestore 0 0 (2 ^ 48),
    .commit 32 0 0, .commit 0 32 0, .commit 0 0 (2 ^ 48), .vfEnable 32 0 0, .msixUnmask 32 0 false default,
    .msixUnmask 0 2048 false default, .tileEnable .sec 48 false, .pfcPauseExpiry 18 0, .pfcPauseExpiry 0 8,
    .rosterRetentionExpiry 4096 0 0, .rosterRetentionExpiry 0 65536 0] : List Instr).all (fun i => !i.wf) = true := by decide +kernel

end Sys2Proof.Tests
end

section
/-!
SUPPORT. The machine right after reset: nothing is listed, so every register, staged view and tally reads its unlisted value, which for a register
is `regReset`.
-/
namespace Sys2Proof.Machine

/-! What the state after reset holds. -/

/-- R15: a live register reads its Reset column. -/
@[simp] theorem State.cell_reset (k : Nat) : State.reset.cell k = regReset k := rfl

/-- R77: a staged register reads what its live register reads. -/
@[simp] theorem State.stagedCell_reset (k : Nat) : State.reset.stagedCell k = regReset k := rfl

/-- R440. -/
@[simp] theorem State.tally_reset (i : Nat) : State.reset.tally i = 0 := rfl

@[simp] theorem State.pending_reset : State.reset.pending = [] := rfl

@[simp] theorem State.ops_reset : State.reset.ops = [] := rfl

/-- Device memory, the Vault's SRAM and its shadow list no byte, and no store runs. -/
theorem State.memoryWf_reset : State.reset.memoryWf = true := by
  have hmem : State.reset.mem = [] := rfl
  have hsram : State.reset.vault.sram = [] := rfl
  have hshadow : State.reset.vault.shadow = [] := rfl
  have hrun : State.reset.vault.run = none := rfl
  simp only [State.memoryWf, hmem, hsram, hshadow, hrun, Memory.wf_nil, Bool.and_self]

/-- A field reads its bits of the Reset column. -/
theorem State.rd_reset (f : Fld) : State.reset.rd f = f.get (regReset f.key) := rfl

/-! Reset columns of registers of the CLK and BOOT pages (R45, R211). -/

theorem regReset_clkHostDiv : regReset Reg.CLK_HOST_DIV.DIV.key = 0 := by decide

theorem regReset_clkPwrDiv : regReset Reg.CLK_PWR_DIV.DIV.key = 3 := by decide

theorem regReset_bootSta : regReset Reg.BOOT_STA.STAGE.key = 0 := by decide

/-- R45: the host asks for no divider, and the ROM safe loop holds /6. -/
theorem State.rd_clkDivs_reset : State.reset.rd Reg.CLK_HOST_DIV.DIV = 0 ∧ State.reset.rd Reg.CLK_PWR_DIV.DIV = 3 := by
  rw [State.rd_reset, State.rd_reset, regReset_clkHostDiv, regReset_clkPwrDiv]
  decide

/-- R211: the boot chain has not begun. -/
theorem State.stage_reset : State.reset.stage = Stage.RESET := by
  rw [State.stage, State.rd_reset, regReset_bootSta]
  decide

/-- Settles O2: no table of the state after reset lists anything, so its registers, staged view, tallies and memories read their unlisted values; the
clock dividers and the stage are fields of Reset columns. -/
theorem resetState : Obligations.ResetState := by
  unfold Obligations.ResetState
  obtain ⟨hhost, hpwr⟩ := State.rd_clkDivs_reset
  exact ⟨fun k => ⟨State.cell_reset k, State.stagedCell_reset k⟩, State.tally_reset, State.pending_reset, State.ops_reset, State.memoryWf_reset,
    hhost, hpwr, State.stage_reset⟩

end Sys2Proof.Machine
end

section
/-!
SUPPORT. Counters, frames and raised events: what the shared register operations leave in the fields they write, and what they leave alone.
-/
namespace Sys2Proof.Machine

/-! Counters. -/

/-- A saturating counter stops at its largest value. -/
theorem State.rd_count (s : State) (f : Fld) (n : Nat) (h : f.lo + f.width ≤ 64) : (s.count f n).rd f = min (s.rd f + n) (2 ^ f.width - 1) := by
  have hpos := Nat.two_pow_pos f.width
  rw [State.count, State.rd_wr _ _ _ h, Nat.mod_eq_of_lt (by omega)]

theorem State.rd_count_apart (s : State) (f g : Fld) (n : Nat) (h : g.key ≠ f.key ∨ f.apart g = true) (hg : g.lo + g.width ≤ 64) :
    (s.count f n).rd g = s.rd g := State.rd_wr_apart s f g _ h hg

theorem State.on_count_apart (s : State) (f g : Fld) (n : Nat) (h : g.key ≠ f.key ∨ f.apart g = true) (hg : g.lo + g.width ≤ 64) :
    (s.count f n).on g = s.on g := by
  rw [State.on, State.rd_count_apart s f g n h hg, State.on]

theorem State.cell_count_ne (s : State) (f : Fld) (n : Nat) {k : Nat} (h : k ≠ f.key) : (s.count f n).cell k = s.cell k := State.cell_wr_ne s f _ h

theorem State.rd_countWrap (s : State) (f : Fld) (n : Nat) (h : f.lo + f.width ≤ 64) : (s.countWrap f n).rd f = (s.rd f + n) % 2 ^ f.width :=
  State.rd_wr s f _ h

theorem State.rd_countWrap_key (s : State) (f g : Fld) (n : Nat) (h : g.key ≠ f.key) : (s.countWrap f n).rd g = s.rd g := State.rd_wr_key s f g _ h

/-! What only registers show. -/

@[simp] theorem onlyRegisters_refl (s : State) : OnlyRegisters s s := ⟨rfl, rfl, rfl, rfl, rfl, rfl, rfl, rfl⟩

@[simp] theorem onlyRegisters_wr (s t : State) (f : Fld) (v : Nat) : OnlyRegisters s (t.wr f v) ↔ OnlyRegisters s t := Iff.rfl

@[simp] theorem onlyRegisters_wrb (s t : State) (f : Fld) (b : Bool) : OnlyRegisters s (t.wrb f b) ↔ OnlyRegisters s t := Iff.rfl

@[simp] theorem onlyRegisters_count (s t : State) (f : Fld) (n : Nat) : OnlyRegisters s (t.count f n) ↔ OnlyRegisters s t := Iff.rfl

@[simp] theorem onlyRegisters_countWrap (s t : State) (f : Fld) (n : Nat) : OnlyRegisters s (t.countWrap f n) ↔ OnlyRegisters s t := Iff.rfl

@[simp] theorem onlyRegisters_raise (s t : State) (pg i : Nat) : OnlyRegisters s (t.raise pg i) ↔ OnlyRegisters s t := by simp [OnlyRegisters]

/-! Events and accesses. -/

theorem bit_eq_testBit (v i : Nat) : bit v i = v.testBit i := by rw [bit, Nat.testBit_eq_decide_div_mod_eq]

/-- A raised event shows in EVT_RAW. -/
theorem State.evtRaw_raise (s : State) (pg : Nat) {i : Nat} (h : i < 32) : bit ((s.raise pg i).rd (Reg.EVT_RAW.RAW pg)) i = true := by
  rw [State.raise, State.rd_raiseMask_raw, bit_eq_testBit, Nat.testBit_mod_two_pow, Nat.testBit_or]
  simp [h]

/-- An access that acts now runs. -/
theorem State.arrives_of_acts {s : State} {q : Req} {off : Nat} (h : s.Acts q off) (run : State → State) : s.arrives q off run = run s := by
  obtain ⟨hlive, hhook⟩ := h
  unfold State.arrives
  rw [if_neg (by simp [hlive]), if_neg (by simp; exact hhook)]

end Sys2Proof.Machine
end

section
/-!
SUPPORT. The CCLK divider and the die link: what each command of Machine/Clock.lean answers, and what it leaves in the status registers (R42-R47,
R51, R59).
-/
namespace Sys2Proof.Machine

/-! The divider. -/

@[simp] theorem State.rd_retarget (s : State) (f : Fld) : s.retarget.rd f = s.rd f := by unfold State.retarget; split <;> rfl

@[simp] theorem onlyRegisters_retarget (s t : State) : OnlyRegisters s t.retarget ↔ OnlyRegisters s t := by unfold State.retarget; split <;> rfl

/-- R43: with no change running, one to the wanted divider starts unless it is effective already. -/
theorem State.clkChange_retarget {s : State} (h : s.clkChange = none) :
    s.retarget.clkChange = some s.wantedDiv ∨ s.retarget.clkChange = none ∧ s.retarget.rd Reg.CLK_STA.EFF_DIV = s.wantedDiv := by
  rw [State.rd_retarget]
  unfold State.retarget
  split
  next hstay =>
    rw [h] at hstay
    exact .inr ⟨h, (hstay.resolve_left (by simp)).symm⟩
  next => exact .inl rfl

/-- The clamps stand in CLK_STA alone. -/
theorem State.clamped_wr (s : State) (f : Fld) (v : Nat) (h : f.key ≠ 0x1040) : (s.wr f v).clamped = s.clamped := by
  have hon : ∀ g : Fld, g.key = 0x1040 → (s.wr f v).on g = s.on g := fun g hg => by
    rw [State.on, State.rd_wr_key s f g v (by rw [hg]; exact h.symm), State.on]
  simp only [State.clamped, hon, Reg.CLK_STA.CLAMP_VWARN, Reg.CLK_STA.CLAMP_SAFE, Reg.CLK_STA.CLAMP_CURRENT, Reg.CLK_STA.CLAMP_THERMAL]

theorem State.rd_wr_hostDiv (s : State) {div : Nat} (h : div < 4) : (s.wr Reg.CLK_HOST_DIV.DIV div).rd Reg.CLK_HOST_DIV.DIV = div := by
  rw [State.rd_wr _ _ _ (by decide)]
  exact Nat.mod_eq_of_lt h

/-- R42: the divider that the requests ask for once the host has written its own. -/
theorem State.wantedDiv_wr_hostDiv (s : State) {div : Nat} (h : div < 4) :
    (s.wr Reg.CLK_HOST_DIV.DIV div).wantedDiv = if s.clamped then 3 else max div (s.rd Reg.CLK_PWR_DIV.DIV) := by
  rw [State.wantedDiv, State.clamped_wr _ _ _ (by decide), State.rd_wr_hostDiv s h, State.rd_wr_key _ _ Reg.CLK_PWR_DIV.DIV _ (by decide)]

theorem exec_clkHostDiv {s : State} {q : Req} (h : s.direct q) (div : Nat) :
    exec (.clkHostDiv q div) s = .next (s.wr Reg.CLK_HOST_DIV.DIV div).retarget := by
  show execClkHostDiv q div s = _
  rw [execClkHostDiv, if_pos h]

theorem exec_clkPwrDiv {s : State} (h : s.clerkSt 2 = ClerkSt.RUNNING) (div : Nat) : exec (.clkPwrDiv .pwr div) s = .next (s.pwrDiv div) := by
  show execClkPwrDiv .pwr div s = _
  rw [execClkPwrDiv, if_pos ⟨rfl, h⟩]

theorem exec_cclkChangeDone {s : State} {div : Nat} (h : s.clkChange = some div) :
    exec .cclkChangeDone s
      = .next ((((({ s with clkChange := none } : State).wr Reg.CLK_STA.EFF_DIV div).countWrap Reg.CLK_STEP_CNT.COUNT 1).raise 1 0).retarget) := by
  show execCclkChangeDone s = _
  rw [execCclkChangeDone, h]

/-- R43, R51: a change that ends shows in EFF_DIV and counts. -/
theorem ends_cclkChangeDone {s : State} {div : Nat} (hdiv : div < 4) (h : s.clkChange = some div) : Ends .cclkChangeDone s fun t =>
    t.rd Reg.CLK_STA.EFF_DIV = div ∧ t.rd Reg.CLK_STEP_CNT.COUNT = (s.rd Reg.CLK_STEP_CNT.COUNT + 1) % 2 ^ 32 ∧ OnlyRegisters s t := by
  refine ⟨_, exec_cclkChangeDone h, ?_, ?_, ?_⟩
  · rw [State.rd_retarget, State.rd_raise _ _ _ _ (by decide), State.rd_countWrap_key _ _ _ _ (by decide), State.rd_wr _ _ _ (by decide)]
    exact Nat.mod_eq_of_lt hdiv
  · rw [State.rd_retarget, State.rd_raise _ _ _ _ (by decide), State.rd_countWrap _ _ _ (by decide), State.rd_wr_key _ _ _ _ (by decide)]
    rfl
  · simp only [onlyRegisters_retarget, onlyRegisters_raise, onlyRegisters_countWrap, onlyRegisters_wr]
    exact onlyRegisters_refl s

/-! The root clock. -/

theorem refInRange_iff (khz : Nat) : refInRange khz = true ↔ 99900 ≤ khz ∧ khz ≤ 100100 := by simp [refInRange]

theorem State.rd_refKhz_refMeasured (s : State) (khz : Nat) : (s.refMeasured khz).rd Reg.CLK_REF_MON.REF_KHZ = min khz 0x1FFFF := by
  rw [State.refMeasured, State.wrb, State.rd_wr_apart _ _ _ _ (by decide) (by decide), State.rd_wr _ _ _ (by decide)]
  exact Nat.mod_eq_of_lt (Nat.lt_succ_of_le (Nat.min_le_right _ _))

theorem State.on_refOk_refMeasured (s : State) (khz : Nat) : (s.refMeasured khz).on Reg.CLK_REF_MON.REF_OK = refInRange khz :=
  State.on_wrb _ _ _ (by decide) (by decide)

theorem onlyRegisters_refMeasured (s : State) (khz : Nat) : OnlyRegisters s (s.refMeasured khz) := by simp [State.refMeasured]

/-- R46, R47: before the first glitch, a measurement in range with the PLL locked is only shown; any other loses the root clock. -/
theorem exec_clockGlitch {s : State} (h : s.on Reg.CLK_STA.GLITCH = false) (pll : Bool) (khz : Nat) :
    exec (.clockGlitch ⟨pll, khz⟩) s
      = .next (if refInRange khz && !pll then s.refMeasured khz else (s.refMeasured khz).clockLost pll) := by
  show execClockGlitch ⟨pll, khz⟩ s = _
  simp only [execClockGlitch, h, Bool.or_false]

/-! The die link. -/

@[simp] theorem onlyRegisters_dlkRetrain (s t : State) : OnlyRegisters s t.dlkRetrain ↔ OnlyRegisters s t := Iff.rfl

/-- R59: a retrain takes the link out of UP on both halves. -/
theorem State.on_dlkRetrain (s : State) : s.dlkRetrain.on (Reg.DLK_STA.UP 0) = false ∧ s.dlkRetrain.on (Reg.DLK_STA.UP 1) = false
    ∧ s.dlkRetrain.on (Reg.DLK_STA.RETRAINING 0) = true ∧ s.dlkRetrain.on (Reg.DLK_STA.RETRAINING 1) = true := by
  simp (disch := decide) only [State.dlkRetrain, State.dlkBoth, State.on_count_apart, State.on_wrb_apart, State.on_wrb, and_self]

/-- R59: a flit that arrives by its eighth replay counts its replays. -/
theorem exec_dlkFlitCrcFail_replayed {s : State} {half n : Nat} (hhalf : half < 2) (hup : s.on (Reg.DLK_STA.UP half)) (hclk : s.clkStopped = false)
    (h1 : 1 ≤ n) (h8 : n ≤ 8) :
    exec (.dlkFlitCrcFail half n) s = .next ((s.count (Reg.DLK_CRC_CNT.COUNT half) n).count (Reg.DLK_REPLAY_CNT.COUNT half) n) := by
  show execDlkFlitCrcFail half n s = _
  have hn : min (max 1 n) 8 = n := by omega
  simp only [execDlkFlitCrcFail, if_pos (show half < 2 ∧ s.on (Reg.DLK_STA.UP half) ∧ !s.clkStopped from ⟨hhalf, hup, by simp [hclk]⟩),
    if_neg (Nat.not_lt.mpr h8), hn]

/-- R59: a flit that does not arrive by its eighth replay makes the link retrain. -/
theorem exec_dlkFlitCrcFail_lost {s : State} {half n : Nat} (hhalf : half < 2) (hup : s.on (Reg.DLK_STA.UP half)) (hclk : s.clkStopped = false)
    (h8 : 8 < n) :
    exec (.dlkFlitCrcFail half n) s
      = .next ({ (s.count (Reg.DLK_CRC_CNT.COUNT half) 9).count (Reg.DLK_REPLAY_CNT.COUNT half) 8 with dlkAttempts := 0 } : State).dlkRetrain := by
  show execDlkFlitCrcFail half n s = _
  have hn : min (max 1 n) 8 = 8 := by omega
  simp only [execDlkFlitCrcFail, if_pos (show half < 2 ∧ s.on (Reg.DLK_STA.UP half) ∧ !s.clkStopped from ⟨hhalf, hup, by simp [hclk]⟩),
    if_pos h8, hn]

theorem ends_dlkFlitCrcFail_replayed {s : State} {half n : Nat} (hhalf : half < 2) (hup : s.on (Reg.DLK_STA.UP half)) (hclk : s.clkStopped = false)
    (h1 : 1 ≤ n) (h8 : n ≤ 8) : Ends (.dlkFlitCrcFail half n) s fun t =>
      t.rd (Reg.DLK_REPLAY_CNT.COUNT half) = min (s.rd (Reg.DLK_REPLAY_CNT.COUNT half) + n) (2 ^ 32 - 1) ∧ t.on (Reg.DLK_STA.UP half) ∧ OnlyRegisters s t := by
  have hup_crc : (Reg.DLK_STA.UP half).key ≠ (Reg.DLK_CRC_CNT.COUNT half).key := by simp [Reg.DLK_STA.UP, Reg.DLK_CRC_CNT.COUNT]
  have hup_replay : (Reg.DLK_STA.UP half).key ≠ (Reg.DLK_REPLAY_CNT.COUNT half).key := by simp [Reg.DLK_STA.UP, Reg.DLK_REPLAY_CNT.COUNT]
  have hreplay_crc : (Reg.DLK_REPLAY_CNT.COUNT half).key ≠ (Reg.DLK_CRC_CNT.COUNT half).key := by simp [Reg.DLK_REPLAY_CNT.COUNT, Reg.DLK_CRC_CNT.COUNT]
  have hwide : ∀ f ∈ [Reg.DLK_STA.UP half, Reg.DLK_REPLAY_CNT.COUNT half], f.lo + f.width ≤ 64 := by simp [Reg.DLK_STA.UP, Reg.DLK_REPLAY_CNT.COUNT]
  refine ⟨_, exec_dlkFlitCrcFail_replayed hhalf hup hclk h1 h8, ?_, ?_, ?_⟩
  · rw [State.rd_count _ _ _ (hwide _ (by simp)), State.rd_count_apart _ _ _ _ (.inl hreplay_crc) (hwide _ (by simp))]
    rfl
  · rw [State.on_count_apart _ _ _ _ (.inl hup_replay) (hwide _ (by simp)), State.on_count_apart _ _ _ _ (.inl hup_crc) (hwide _ (by simp))]
    exact hup
  · simp

theorem ends_dlkFlitCrcFail_lost {s : State} {half n : Nat} (hhalf : half < 2) (hup : s.on (Reg.DLK_STA.UP half)) (hclk : s.clkStopped = false)
    (h8 : 8 < n) : Ends (.dlkFlitCrcFail half n) s fun t =>
      t.on (Reg.DLK_STA.UP 0) = false ∧ t.on (Reg.DLK_STA.UP 1) = false ∧ t.on (Reg.DLK_STA.RETRAINING 0) ∧ t.on (Reg.DLK_STA.RETRAINING 1)
        ∧ OnlyRegisters s t := by
  obtain ⟨hup0, hup1, hre0, hre1⟩ := State.on_dlkRetrain
    ({ (s.count (Reg.DLK_CRC_CNT.COUNT half) 9).count (Reg.DLK_REPLAY_CNT.COUNT half) 8 with dlkAttempts := 0 } : State)
  exact ⟨_, exec_dlkFlitCrcFail_lost hhalf hup hclk h8, hup0, hup1, hre0, hre1, onlyRegisters_refl s⟩

theorem exec_dlkRetrainDone_ok {s : State} (h : s.on (Reg.DLK_STA.RETRAINING 0)) (hclk : s.clkStopped = false) :
    exec (.dlkRetrainDone true) s
      = .next ((({ s with dlkAttempts := 0 } : State).dlkBoth Reg.DLK_STA.RETRAINING false |>.dlkBoth Reg.DLK_STA.UP true).dlkResume) := by
  show execDlkRetrainDone true s = _
  rw [execDlkRetrainDone, if_neg (by simp [h, hclk]), if_pos rfl]

theorem exec_dlkRetrainDone_again {s : State} (h : s.on (Reg.DLK_STA.RETRAINING 0)) (hclk : s.clkStopped = false) (hn : s.dlkAttempts + 1 < 3) :
    exec (.dlkRetrainDone false) s = .next ({ s with dlkAttempts := s.dlkAttempts + 1 } : State).dlkRetrain := by
  show execDlkRetrainDone false s = _
  rw [execDlkRetrainDone, if_neg (by simp [h, hclk]), if_neg (by simp)]
  exact congrArg _ (if_pos hn)

/-- Settles O9: a write of CLK_HOST_DIV changes neither clamp nor the other register, so the divider it asks for is known, and `retarget` starts
towards it or finds it effective. -/
theorem effectiveDivider : Obligations.EffectiveDivider := by
  unfold Obligations.EffectiveDivider
  intro s q div hdiv hq hidle
  have hframe : OnlyRegisters s (s.wr Reg.CLK_HOST_DIV.DIV div).retarget := by simp
  have hchange := State.clkChange_retarget (s := s.wr Reg.CLK_HOST_DIV.DIV div) hidle
  rw [State.wantedDiv_wr_hostDiv s hdiv] at hchange
  refine ⟨fun hclamp => ⟨_, exec_clkHostDiv hq div, ?_, hframe⟩, fun hfree => ⟨_, exec_clkHostDiv hq div, ?_, hframe, ?_⟩⟩
  · rw [if_pos hclamp] at hchange
    exact hchange.imp_right fun h => h.2
  · rw [State.rd_retarget, State.rd_wr_hostDiv s hdiv]
  · rwa [if_neg (by simp [hfree])] at hchange

/-- Settles O26: each clause is what one command of the clocks and the die link answers. -/
theorem clocksAndDieLink : Obligations.ClocksAndDieLink := by
  unfold Obligations.ClocksAndDieLink
  refine ⟨fun s div hdiv => ⟨fun q hq => exec_clkHostDiv hq div, fun hrun => exec_clkPwrDiv hrun div, fun h => ends_cclkChangeDone hdiv h⟩,
    fun s hg pll khz => ⟨fun hlost => ?_, fun hpll hlo hhi => ?_⟩,
    fun s => ⟨fun half n hhalf hup hclk h1 h8 => ends_dlkFlitCrcFail_replayed hhalf hup hclk h1 h8,
      fun half n hhalf hup hclk h8 => ends_dlkFlitCrcFail_lost hhalf hup hclk h8,
      fun h hclk => exec_dlkRetrainDone_ok h hclk, fun h hclk hn => exec_dlkRetrainDone_again h hclk hn⟩⟩
  · rw [exec_clockGlitch hg, if_neg]
    rw [Bool.and_eq_true, refInRange_iff]
    rintro ⟨⟨hlo, hhi⟩, hpll⟩
    rcases hlost with rfl | h | h
    · cases hpll
    · omega
    · omega
  · have hok := (refInRange_iff khz).mpr ⟨hlo, hhi⟩
    have hexec := exec_clockGlitch hg pll khz
    rw [if_pos (by simp [hok, hpll])] at hexec
    refine ⟨_, hexec, ?_, ?_, rfl, onlyRegisters_refMeasured s khz⟩
    · rw [State.rd_refKhz_refMeasured]
      omega
    · rw [State.on_refOk_refMeasured, hok]

end Sys2Proof.Machine
end

section
/-!
SUPPORT. Accesses of register pages: a write to an absent page, the split read of a 64-bit register, and what a word of a page reads (R38, R48, R56,
R61, R66, R67, R70, R76, R78).
-/
namespace Sys2Proof.Machine

/-! Absent pages. -/

theorem State.rd_page_absentWrite (s : State) {pg : Nat} (h : pg < 2 ^ 14) : (s.absentWrite pg).rd Reg.GLB_ABSENT_LOG.PAGE = pg := by
  rw [State.absentWrite, State.rd_raise _ _ _ _ (by decide), State.rd_count_apart _ _ _ _ (by decide) (by decide), State.rd_wr _ _ _ (by decide)]
  exact Nat.mod_eq_of_lt h

theorem State.rd_count_absentWrite (s : State) (pg : Nat) :
    (s.absentWrite pg).rd Reg.GLB_ABSENT_LOG.COUNT = min (s.rd Reg.GLB_ABSENT_LOG.COUNT + 1) 65535 := by
  rw [State.absentWrite, State.rd_raise _ _ _ _ (by decide), State.rd_count _ _ _ (by decide), State.rd_wr_apart _ _ _ _ (by decide) (by decide)]
  rfl

/-- R56: a write to an absent page changes GLB_ABSENT_LOG and EVT_RAW of GLB, no other register. -/
theorem State.cell_absentWrite (s : State) (pg : Nat) {k : Nat} (hlog : k ≠ 0x5C) (hevt : k ≠ 0x10) : (s.absentWrite pg).cell k = s.cell k := by
  rw [State.absentWrite, State.cell_raise _ _ _ hevt, State.cell_count_ne _ _ _ hlog, State.cell_wr_ne _ _ _ hlog]

theorem exec_absentPageWrite {s : State} {q : Req} {off pg : Nat} (hacts : s.Acts q off) (hhit : hitOf q off = .page (0x1000 * pg))
    (habs : s.pageAbsent pg) : exec (.absentPageWrite q off) s = .next (s.absentWrite pg) := by
  show execAbsentPageWrite q off s = _
  have hpg : 0x1000 * pg / 0x1000 = pg := by omega
  simp only [execAbsentPageWrite, State.arrives_of_acts hacts, hhit, hpg, habs, if_true]

/-! Split reads. -/

theorem State.split_latch_same (s : State) (fn off : Nat) (high : Word) : tblGet none (s.latch fn off high).split fn = some (off, high) :=
  tblGet_set_same none s.split fn (some (off, high))

theorem State.split_latch_ne (s : State) (fn off : Nat) (high : Word) {j : Nat} (h : j ≠ fn) :
    tblGet none (s.latch fn off high).split j = tblGet none s.split j :=
  tblGet_set_ne none s.split (some (off, high)) h

/-- R67, R78: a read of the low half returns it and latches the high one, and one of GLB_TIME the fraction too. -/
theorem exec_splitReadLatch_low {s : State} {fn off v : Nat} (hlive : s.fnLive fn) (hv : s.wideRead fn off = some v) :
    exec (.splitReadLatch fn off) s
      = .next ((if fn = 0 ∧ off = Reg.GLB_TIME.NS.key
          then (s.latch fn off (BitVec.ofNat 32 (v / 2 ^ 32))).wr Reg.GLB_TIME_FRAC.FRAC (s.timeFine % 2 ^ 56 / 2 ^ 40)
          else s.latch fn off (BitVec.ofNat 32 (v / 2 ^ 32))).emit (.regRead off (v % 2 ^ 32))) := by
  show execSplitReadLatch fn off s = _
  simp only [execSplitReadLatch, hlive, hv, Bool.not_true, Bool.false_eq_true, if_false]

/-- A read of a high half that is no 64-bit register of its own. -/
theorem exec_splitReadLatch_high {s : State} {fn off : Nat} (hlive : s.fnLive fn) (hnone : s.wideRead fn (off + 4) = none)
    (hreach : s.beyond fn (off + 4) = false) (hvmain : hitOf (.fn fn) (off + 4) ≠ .page Reg.VLT_VMAIN.NOW.key) (halign : off % 8 = 0) :
    exec (.splitReadLatch fn (off + 4)) s = .next (s.readHigh fn (off + 4)) := by
  show execSplitReadLatch fn (off + 4) s = _
  have hhigh : (off + 4) % 8 = 4 := by omega
  simp only [execSplitReadLatch, hlive, hnone, hreach, if_neg hvmain, hhigh, Bool.not_true, Bool.false_eq_true, if_false, if_true]

/-- R67: the latched half is returned once. -/
theorem State.readHigh_latched {s : State} {fn off : Nat} {h : Word} (hl : tblGet none s.split fn = some (off, h)) :
    s.readHigh fn (off + 4) = ({ s with split := tblSet none s.split fn none } : State).emit (.regRead (off + 4) h.toNat) := by
  simp only [State.readHigh, hl, if_true]

theorem ends_splitReadLatch_low {s : State} {fn off v : Nat} (hlive : s.fnLive fn) (hv : s.wideRead fn off = some v) :
    Ends (.splitReadLatch fn off) s fun t =>
      t.out = .regRead off (v % 2 ^ 32) :: s.out ∧ tblGet none t.split fn = some (off, BitVec.ofNat 32 (v / 2 ^ 32))
        ∧ (∀ j, j ≠ fn → tblGet none t.split j = tblGet none s.split j)
        ∧ (fn = 0 → off = 0x100 → t.rd Reg.GLB_TIME_FRAC.FRAC = s.timeFine % 2 ^ 56 / 2 ^ 40) ∧ ∀ k, k ≠ 0x108 → t.cell k = s.cell k := by
  have hfrac : s.timeFine % 2 ^ 56 / 2 ^ 40 < 2 ^ 16 := by omega
  refine ⟨_, exec_splitReadLatch_low hlive hv, ?_⟩
  split
  next =>
    refine ⟨rfl, State.split_latch_same _ _ _ _, fun j hj => State.split_latch_ne _ _ _ _ hj, fun _ _ => ?_, fun k hk => State.cell_wr_ne _ _ _ hk⟩
    exact (State.rd_wr _ _ _ (by decide)).trans (Nat.mod_eq_of_lt hfrac)
  next hother =>
    exact ⟨rfl, State.split_latch_same _ _ _ _, fun j hj => State.split_latch_ne _ _ _ _ hj, fun h0 h100 => absurd ⟨h0, h100⟩ hother, fun _ _ => rfl⟩

/-! Words of a page. -/

/-- Offset `o` of page `pg` as an offset of PF BAR 0. -/
theorem pageOffset_parts {pg o : Nat} (ho : o < 0x1000) (hw : o % 4 = 0) :
    (0x1000 * pg + o) / 4 * 4 = 0x1000 * pg + o ∧ (0x1000 * pg + o) / 0x1000 = pg ∧ (0x1000 * pg + o) % 0x1000 = o := by omega

/-- R38: of an absent page only STA.ABSENT reads 1. -/
theorem State.pageWord_absent {s : State} {pg o : Nat} (hk : (pageKind pg).isSome) (habs : s.pageAbsent pg) (ho : o < 0x1000) (hw : o % 4 = 0) :
    s.pageWord (0x1000 * pg + o) = if o = 0x0C then 8 else 0 := by
  obtain ⟨hword, hpage, hoff⟩ := pageOffset_parts (pg := pg) ho hw
  obtain ⟨⟨k, i⟩, hki⟩ := Option.isSome_iff_exists.mp hk
  simp only [State.pageWord, hword, hpage, hoff, hki, habs, if_true]

section Present

variable {s : State} {pg i : Nat} {k : PageKind}

theorem State.pageWord_id (hk : pageKind pg = some (k, i)) (hr : k ≠ .ring) (hp : s.pageAbsent pg = false) :
    s.pageWord (0x1000 * pg) = idWord k i := by
  obtain ⟨hword, hpage, hoff⟩ := pageOffset_parts (pg := pg) (o := 0) (by decide) rfl
  rw [Nat.add_zero] at hword hpage hoff
  simp [State.pageWord, hword, hpage, hoff, hk, hp, hr]

theorem State.pageWord_sta (hk : pageKind pg = some (k, i)) (hr : k ≠ .ring) (hp : s.pageAbsent pg = false) :
    s.pageWord (0x1000 * pg + 0x0C) = s.staWord k pg := by
  obtain ⟨hword, hpage, hoff⟩ := pageOffset_parts (pg := pg) (o := 0x0C) (by decide) rfl
  simp [State.pageWord, hword, hpage, hoff, hk, hp, hr]

theorem State.pageWord_evtPend (hk : pageKind pg = some (k, i)) (hr : k ≠ .ring) (hp : s.pageAbsent pg = false) :
    s.pageWord (0x1000 * pg + 0x18) = s.evtPend pg := by
  obtain ⟨hword, hpage, hoff⟩ := pageOffset_parts (pg := pg) (o := 0x18) (by decide) rfl
  simp [State.pageWord, hword, hpage, hoff, hk, hp, hr]

/-- R76: a staged offset that holds no postable register reads 0. -/
theorem State.pageWord_unstaged {o : Nat} (hk : pageKind pg = some (k, i)) (hr : k ≠ .ring) (hlo : 0x800 ≤ o) (ho : o < 0x1000) (hw : o % 4 = 0)
    (hplain : ∀ r key, regRowAt (0x1000 * pg + o - 0x800) = some (r, key) → r.posted = false) : s.pageWord (0x1000 * pg + o) = 0 := by
  obtain ⟨hword, hpage, hoff⟩ := pageOffset_parts (pg := pg) ho hw
  have htime : (0x1000 * pg + o) / 8 * 8 ≠ Reg.GLB_TIME.NS.key := by simp only [Reg.GLB_TIME.NS]; omega
  have hid : ¬(k ≠ .ring ∧ o = 0x00) := by omega
  have hcap : ¬(k ≠ .ring ∧ o = 0x04) := by omega
  have hsta : ¬(k ≠ .ring ∧ o = 0x0C) := by omega
  have hpend : ¬(k ≠ .ring ∧ o = 0x18) := by omega
  by_cases habs : s.pageAbsent pg
  · rw [State.pageWord_absent (by rw [hk]; rfl) habs ho hw, if_neg (by omega)]
  · simp only [State.pageWord, hword, hpage, hoff, hk, if_neg habs, if_neg hid, if_neg hcap, if_neg hsta, if_neg hpend, if_neg htime]
    simp only [ne_eq, hr, not_false_eq_true, hlo, decide_true, Bool.and_self, if_true]
    cases hrow : regRowAt (0x1000 * pg + o - 0x800) with
    | none => rfl
    | some row =>
      obtain ⟨r, key⟩ := row
      simp [hplain r key hrow]

end Present

/-! ID and STA (R48, R61). -/

theorem some_of_ite {α : Type} {c : Prop} [Decidable c] {a x : α} {o : Option α} (h : (if c then some a else o) = some x) :
    c ∧ a = x ∨ o = some x := by
  by_cases hc : c
  · rw [if_pos hc] at h
    exact .inl ⟨hc, Option.some.inj h⟩
  · exact .inr (by rwa [if_neg hc] at h)

/-- R68: how many pages of a kind there may be, by the page index. -/
theorem pageKind_inst_bound {pg i : Nat} {k : PageKind} (h : pageKind pg = some (k, i)) : i < if k = .ring then 1024 else 256 := by
  unfold pageKind at h
  iterate 28
    obtain ⟨hrange, heq⟩ | h := some_of_ite h
    · cases heq
      simp only [reduceCtorEq, if_true, if_false]
      omega
  cases h

theorem pageKind_inst_lt {pg i : Nat} {k : PageKind} (h : pageKind pg = some (k, i)) (hr : k ≠ .ring) : i < 256 := by
  have hbound := pageKind_inst_bound h
  rwa [if_neg hr] at hbound

theorem classCode_lt (k : PageKind) : classCode k < 2 ^ 16 := by cases k <;> decide

theorem classCode_eq_zero_iff (k : PageKind) : classCode k = 0 ↔ k = .ring := by cases k <;> decide

/-- The parts of an ID. -/
theorem bits_idWord {i : Nat} (k : PageKind) (hi : i < 256) :
    bits (idWord k i) 0 16 = classCode k ∧ bits (idWord k i) 16 8 = i ∧ bits (idWord k i) 24 8 = 1 := by
  have hc := classCode_lt k
  simp only [bits, idWord]
  omega

theorem b2n_le (b : Bool) : b2n b ≤ 1 := by cases b <;> decide

theorem State.staWord_lt (s : State) (k : PageKind) (pg : Nat) : s.staWord k pg < 8 := by
  have hready := b2n_le (s.unitReady k pg)
  have hbusy := b2n_le (s.unitBusy pg)
  have hfault : s.rd (Reg.STA.FAULT pg) < 2 := State.rd_lt s (Reg.STA.FAULT pg)
  rw [State.staWord]
  omega

/-- R38: ID.CLASS of a page tells whether its unit is present. -/
theorem State.class_ne_zero_iff {s : State} {pg i : Nat} {k : PageKind} (hk : pageKind pg = some (k, i)) (hr : k ≠ .ring) :
    bits (s.pageWord (0x1000 * pg)) 0 16 ≠ 0 ↔ s.pageAbsent pg = false := by
  cases habs : s.pageAbsent pg with
  | true =>
    have h := State.pageWord_absent (o := 0) (by rw [hk]; rfl) habs (by decide) rfl
    simp only [Nat.add_zero] at h
    simp [h, bits]
  | false =>
    rw [State.pageWord_id hk hr habs, (bits_idWord k (pageKind_inst_lt hk hr)).1]
    simp [classCode_eq_zero_iff, hr]

/-! Presence (R49). -/

theorem pageKind_hmc {n : Nat} (h : n < 8) : pageKind (0x180 + n) = some (.hmc, n) := by
  have hall : ∀ m, m < 8 → pageKind (0x180 + m) = some (.hmc, m) := by decide
  exact hall n h

theorem pageKind_fpt {p : Nat} (h : p < 18) : pageKind (0x240 + p) = some (.fpt, p) := by
  have hall : ∀ m, m < 18 → pageKind (0x240 + m) = some (.fpt, m) := by decide
  exact hall p h

theorem State.stackAbsent_iff {s : State} {n : Nat} (h : n < 8) :
    s.pageAbsent (0x180 + n) = false ↔ bit (s.rd Reg.GLB_STACK_MAP.PRESENT) n = true := by
  simp [State.pageAbsent, pageKind_hmc h, State.stackPresent, h]

theorem State.portAbsent_iff {s : State} {p : Nat} (h : p < 18) :
    s.pageAbsent (0x240 + p) = false ↔ bit (s.rd Reg.GLB_PORT_MAP.PRESENT) p = true := by
  simp [State.pageAbsent, pageKind_fpt h, State.portPresent, h]

/-- Settles O10: each clause is one case of `pageWord`, and the maps are the presence that `pageAbsent` reads. -/
theorem readsOfPages : Obligations.ReadsOfPages := by
  unfold Obligations.ReadsOfPages
  intro s
  refine ⟨fun pg o hk habs ho hw => State.pageWord_absent hk habs ho hw, fun pg k i hk hr hp => ?_, fun n hn => ?_, fun p hp => ?_,
    fun pg k i o hk hr hlo ho hw hplain => State.pageWord_unstaged hk hr hlo ho hw hplain, fun fn off hhit => ?_⟩
  · obtain ⟨hclass, hinst, hrev⟩ := bits_idWord k (pageKind_inst_lt hk hr)
    rw [State.pageWord_id hk hr hp, State.pageWord_sta hk hr hp, State.pageWord_evtPend hk hr hp, bit_eq_testBit]
    exact ⟨hclass, mt (classCode_eq_zero_iff k).mp hr, hinst, hrev, Nat.testBit_lt_two_pow (State.staWord_lt s k pg), rfl⟩
  · rw [← State.stackAbsent_iff hn, ← State.class_ne_zero_iff (pageKind_hmc hn) (by decide), Nat.mul_add]
  · rw [← State.portAbsent_iff hp, ← State.class_ne_zero_iff (pageKind_fpt hp) (by decide), Nat.mul_add]
  · rw [State.readWord, hhit]

/-- Settles O22: plain, staged and counterfoil writes are `pageWrite` as they stand; an absent page takes `absentWrite`; a split read latches, or
returns what was latched. -/
theorem registerAccesses : Obligations.RegisterAccesses := by
  unfold Obligations.RegisterAccesses
  refine ⟨fun s q off size v => ⟨fun be => rfl, rfl, rfl⟩, fun s q off pg hacts hhit habs hpg => ?_, fun s fn off v hlive hv => ⟨?_, ?_⟩⟩
  · exact ⟨_, exec_absentPageWrite hacts hhit habs, State.rd_page_absentWrite s hpg, State.rd_count_absentWrite s pg, State.evtRaw_raise _ 0 (by decide),
      fun k hlog hevt => State.cell_absentWrite s pg hlog hevt⟩
  · exact ends_splitReadLatch_low hlive hv
  · intro h halign hnone hreach hvmain hlatch
    have hexec := exec_splitReadLatch_high hlive hnone hreach hvmain halign
    rw [State.readHigh_latched hlatch] at hexec
    exact ⟨_, hexec, rfl, tblGet_set_same none s.split fn none, rfl⟩

end Sys2Proof.Machine
end

section
/-!
SUPPORT. A rail channel's own steps: what each event of Machine/Rails.lean answers in the state of the channel that it is for (R110-R117, R121-R126,
R141).
-/
namespace Sys2Proof.Machine

section Steps
variable {s : State} {n : Nat}

/-! The sense check (R126). -/

theorem State.checking_of_senseCheck (h : s.railSt n = RailSt.SENSE_CHECK) : s.checking n = true := by simp [State.checking, h]

theorem exec_senseCheckDone_passed (hn : n < 20) {mv : Int} (hlo : -50 ≤ mv) (hhi : mv ≤ 1000) (h : s.railSt n = RailSt.SENSE_CHECK) :
    exec (.senseCheckDone n mv) s
      = .next (((s.setRail n { s.rail n with sensed := true }).setRailSt n RailSt.WAIT_DEPS).settleRails) := by
  show execSenseCheckDone n mv s = _
  rw [execSenseCheckDone, if_pos ⟨hn, State.checking_of_senseCheck h⟩, if_neg (by omega), if_neg (by omega), if_pos h]

theorem exec_senseCheckDone_open (hn : n < 20) {mv : Int} (hmv : 1000 < mv) (h : s.checking n) :
    exec (.senseCheckDone n mv) s = .next (s.senseFault n Cause.SENSE_OPEN 1).settleRails := by
  show execSenseCheckDone n mv s = _
  rw [execSenseCheckDone, if_pos ⟨hn, h⟩, if_pos hmv]

theorem exec_senseCheckDone_reversed (hn : n < 20) {mv : Int} (hmv : mv < -50) (h : s.checking n) :
    exec (.senseCheckDone n mv) s = .next (s.senseFault n Cause.SENSE_REVERSED 2).settleRails := by
  show execSenseCheckDone n mv s = _
  rw [execSenseCheckDone, if_pos ⟨hn, h⟩, if_neg (by omega), if_pos hmv]

/-! Starting (R113, R141). -/

theorem exec_railStartDelayDone (hn : n < 20) (h : s.railSt n = RailSt.START_DELAY) (hdue : s.checksDue = false) :
    exec (.railStartDelayDone n) s
      = .next (((s.setRailSt n RailSt.SOFT_START).setRail n { s.rail n with en := true, shown := 0 }).settleRails) := by
  show execRailStartDelayDone n s = _
  rw [execRailStartDelayDone, if_pos ⟨hn, h, by rw [hdue]; rfl⟩]

/-- R141: the cause of a soft start that times out follows from the sense against the UV threshold. -/
theorem exec_ssTimeout {uv ov : Nat} (hn : n < 20) (h : s.railSt n = RailSt.SOFT_START) (hw : s.railWindow n = some (uv, ov)) :
    exec (.ssTimeout n) s
      = .next (s.railFaults [(n, if s.rd (Reg.RAIL_STA.SENSE n) < uv then Cause.SHORT_SUSPECT else Cause.PG_MISSING)]).settleRails := by
  show execSsTimeout n s = _
  rw [execSsTimeout, if_pos ⟨hn, h⟩, hw]

/-! Stopping (R115, R116). -/

theorem exec_railStopDelayDone (hn : n < 20) (h : s.railSt n = RailSt.STOP_WAIT) (hfree : (s.rail n).waitOn = 0) :
    exec (.railStopDelayDone n) s = .next ((s.dropRail n RailSt.OFF false).settleRails).bootWaits := by
  show execRailStopDelayDone n s = _
  rw [execRailStopDelayDone, if_pos ⟨hn, h, hfree⟩]

theorem exec_dischargeTimeout (hn : n < 20) (h : s.railSt n = RailSt.DISCHARGE) :
    exec (.dischargeTimeout n) s = .next (((s.confirmOff n).raise 2 10).settleRails).bootWaits := by
  show execDischargeTimeout n s = _
  rw [execDischargeTimeout, if_pos ⟨hn, h⟩]

/-! Retries (R121). -/

theorem exec_railBackoffDone (hn : n < 20) (h : s.railSt n = RailSt.BACKOFF) :
    exec (.railBackoffDone n) s = .next ((s.setRailSt n RailSt.WAIT_DEPS).count (Reg.RAIL_STA.RETRY_N n) 1).settleRails := by
  show execRailBackoffDone n s = _
  rw [execRailBackoffDone, if_pos ⟨hn, h⟩]

theorem exec_retryCounterReset (hn : n < 20) (h : s.railSt n = RailSt.ON) :
    exec (.retryCounterReset n) s = .next (s.wr (Reg.RAIL_STA.RETRY_N n) 0) := by
  show execRetryCounterReset n s = _
  rw [execRetryCounterReset, if_pos ⟨hn, h⟩]

end Steps

/-- Settles O28: each clause is the answer to one event, and the cause of a soft-start timeout falls by the side of UV on which the sense lies. -/
theorem railSteps : Obligations.RailSteps := by
  unfold Obligations.RailSteps
  intro s n hn
  refine ⟨fun mv hlo hhi h => exec_senseCheckDone_passed hn hlo hhi h, fun mv hmv h => exec_senseCheckDone_open hn hmv h,
    fun mv hmv h => exec_senseCheckDone_reversed hn hmv h, fun h hdue => exec_railStartDelayDone hn h hdue, fun uv ov h hw hlow => ?_,
    fun uv ov h hw hhigh _ => ?_, fun h hfree => exec_railStopDelayDone hn h hfree, fun h => exec_dischargeTimeout hn h,
    fun h => exec_railBackoffDone hn h, fun h => exec_retryCounterReset hn h⟩
  · rw [exec_ssTimeout hn h hw, if_pos hlow]
  · rw [exec_ssTimeout hn h hw, if_neg (by omega)]

end Sys2Proof.Machine
end

section
/-!
SUPPORT. Entries of the log and of the Vault's rings, and VLT_STA.ARMED: which registers they leave alone (R263, R272, R283, R326).
-/
namespace Sys2Proof.Machine

/-! Entries. They show in registers only in VLT_HDR_RESET and in the clerks' pages. -/

@[simp] theorem State.cell_vaultWrite (s : State) (off : Nat) (bs : List Byte) (k : Nat) : (s.vaultWrite off bs).cell k = s.cell k := rfl

@[simp] theorem State.cell_setPtr (s : State) (r : VaultRegion) (o v k : Nat) : (s.setPtr r o v).cell k = s.cell k := by
  rw [State.setPtr, State.cell_vaultWrite]

@[simp] theorem State.cell_emptyHeader (s : State) (r : VaultRegion) (k : Nat) : (s.emptyHeader r).cell k = s.cell k := by
  rw [State.emptyHeader, State.cell_vaultWrite]

/-- R326: an offered log entry changes no register below the clerks' pages. -/
theorem State.cell_offerLog (s : State) (n : Option Nat) (e : LogEntry) {k : Nat} (h : k < 0x10000) : (s.offerLog n e).cell k = s.cell k := by
  unfold State.offerLog
  split
  · rfl
  · cases n with
    | none => rfl
    | some c =>
      have hdropped : k ≠ (Reg.FWP_LOG_DROPPED.COUNT c).key := by simp only [Reg.FWP_LOG_DROPPED.COUNT]; omega
      simp only
      rw [State.cell_raise _ _ _ (by omega), State.cell_count_ne _ _ _ hdropped]
      rfl

theorem State.cell_logClerk (s : State) (n level code a0 a1 a2 : Nat) {k : Nat} (h : k < 0x10000) :
    (s.logClerk n level code a0 a1 a2).cell k = s.cell k := by
  unfold State.logClerk
  simp only
  split
  · rfl
  · exact State.cell_offerLog s _ _ h

/-- R263: an invalid header that is made empty shows in VLT_HDR_RESET. -/
theorem State.cell_readyHeader (s : State) (r : VaultRegion) {k : Nat} (h : k < 0x10000) (hhdr : k ≠ 0x7090) :
    (s.readyHeader r).cell k = s.cell k := by
  unfold State.readyHeader
  split
  · rfl
  · rw [State.resetHeader, State.cell_logClerk _ _ _ _ _ _ _ h, State.cell_wr_ne _ _ _ hhdr, State.cell_emptyHeader]

theorem State.cell_ringAppend (s : State) (r : VaultRegion) (entry : Nat → List Byte) {k : Nat} (h : k < 0x10000) (hhdr : k ≠ 0x7090) :
    (s.ringAppend r entry).cell k = s.cell k := by
  have hready := State.cell_readyHeader s r h hhdr
  simp only [State.ringAppend, apply_ite (State.cell · k), State.cell_setPtr, State.cell_vaultWrite, ite_self, hready]

/-- R283: a history entry leaves the registers of the supervisor and the Vault's status alone. -/
theorem State.rd_history (s : State) (kind channel cause reaction cut retry arg0 arg1 : Nat) {f : Fld} (h : f.key < 0x10000) (hhdr : f.key ≠ 0x7090) :
    (s.history kind channel cause reaction cut retry arg0 arg1).rd f = s.rd f := by
  rw [State.rd, State.history, State.cell_ringAppend s _ _ h hhdr, State.rd]

theorem State.on_history (s : State) (kind channel cause reaction cut retry arg0 arg1 : Nat) {f : Fld} (h : f.key < 0x10000) (hhdr : f.key ≠ 0x7090) :
    (s.history kind channel cause reaction cut retry arg0 arg1).on f = s.on f := by
  rw [State.on, State.rd_history s _ _ _ _ _ _ _ _ h hhdr, State.on]

theorem State.on_raise (s : State) (pg i : Nat) (f : Fld) (h : f.key ≠ 0x1000 * pg + 0x10) : (s.raise pg i).on f = s.on f := by
  rw [State.on, State.rd_raise s pg i f h, State.on]

/-! ARMED (R272). -/

theorem State.armedNow_of_reversed {s : State} (h : s.on Reg.SUP_HOLD_STA.REVERSED = true) : s.armedNow = false := by
  simp [State.armedNow, h]

theorem State.on_armed_refreshArmed (s : State) : s.refreshArmed.on Reg.VLT_STA.ARMED = s.armedNow := by
  unfold State.refreshArmed
  split
  next hsame => exact hsame
  next => rw [State.on_raise _ _ _ _ (by decide), State.on_wrb _ _ _ (by decide) (by decide)]

/-- Only ARMED follows, and the VLT page's events. -/
theorem State.rd_refreshArmed (s : State) (f : Fld) (h : f.key ≠ Reg.VLT_STA.ARMED.key ∨ Reg.VLT_STA.ARMED.apart f = true) (hg : f.lo + f.width ≤ 64)
    (hevt : f.key ≠ 0x7010) : s.refreshArmed.rd f = s.rd f := by
  unfold State.refreshArmed
  split
  · rfl
  · rw [State.rd_raise _ _ _ _ hevt, State.wrb, State.rd_wr_apart _ _ _ _ h hg]

theorem State.on_refreshArmed (s : State) (f : Fld) (h : f.key ≠ Reg.VLT_STA.ARMED.key ∨ Reg.VLT_STA.ARMED.apart f = true) (hg : f.lo + f.width ≤ 64)
    (hevt : f.key ≠ 0x7010) : s.refreshArmed.on f = s.on f := by
  rw [State.on, State.rd_refreshArmed s f h hg hevt, State.on]

end Sys2Proof.Machine
end

section
/-!
SUPPORT. The supervisor: what its commands, the thermal trip, a reversed VHOLD, PMBus reads and set-points answer, and what they leave in the
registers (R127, R130-R133, R135, R136).
-/
namespace Sys2Proof.Machine

/-! A reversed VHOLD (R127, R143). -/

/-- The state that a reversed VHOLD leaves before its history entry: the readout at a level below −0.5 V, the charger off and refused. -/
def State.holdRefused (s : State) : State :=
  (((((s.setVhold (reversedVhold (Config.freeNat s.free))).skipFree 1).wrb Reg.SUP_HOLD_STA.REVERSED true).raise 2 8).wrb Reg.VLT_STA.CHARGING
    false).wrb Reg.VLT_STA.REFUSED true

theorem exec_holdReversed {s : State} (h : s.on Reg.SUP_HOLD_STA.REVERSED = false) :
    ∃ vmain vhold, exec .holdReversed s = .next (s.holdRefused.refreshArmed.history 8 0xFF 0 0 0 0 vmain vhold) := by
  show ∃ vmain vhold, execHoldReversed s = _
  simp only [execHoldReversed, h, Bool.false_eq_true, if_false]
  exact ⟨_, _, rfl⟩

@[simp] theorem State.rd_skipFree (s : State) (n : Nat) (f : Fld) : (s.skipFree n).rd f = s.rd f := rfl

/-- R135: a level below −0.5 V in the readout's two's complement. -/
theorem reversedVhold_readout (n : Nat) : 32768 ≤ (reversedVhold n % 65536).toNat ∧ (reversedVhold n % 65536).toNat < 65486 := by
  unfold reversedVhold
  omega

theorem State.rd_setVhold (s : State) (v : Int) : (s.setVhold v).rd Reg.SUP_HOLD_STA.VHOLD = (v % 65536).toNat := by
  rw [State.setVhold, State.rd_wr _ _ _ (by decide)]
  exact Nat.mod_eq_of_lt (show _ < 65536 by omega)

theorem State.rd_vhold_holdRefused (s : State) :
    s.holdRefused.rd Reg.SUP_HOLD_STA.VHOLD = (reversedVhold (Config.freeNat s.free) % 65536).toNat := by
  simp (disch := decide) only [State.holdRefused, State.wrb, State.rd_wr_apart, State.rd_raise, State.rd_skipFree, State.rd_setVhold]

theorem State.on_holdRefused (s : State) : s.holdRefused.on Reg.SUP_HOLD_STA.REVERSED = true ∧ s.holdRefused.on Reg.VLT_STA.REFUSED = true
    ∧ s.holdRefused.on Reg.VLT_STA.CHARGING = false := by
  simp (disch := decide) only [State.holdRefused, State.on_wrb_apart, State.on_raise, State.on_wrb, and_self]

theorem ends_holdReversed {s : State} (h : s.on Reg.SUP_HOLD_STA.REVERSED = false) : Ends .holdReversed s fun t =>
    32768 ≤ t.rd Reg.SUP_HOLD_STA.VHOLD ∧ t.rd Reg.SUP_HOLD_STA.VHOLD < 65486 ∧ t.on Reg.SUP_HOLD_STA.REVERSED ∧ t.on Reg.VLT_STA.REFUSED
      ∧ t.on Reg.VLT_STA.CHARGING = false ∧ t.on Reg.VLT_STA.ARMED = false := by
  obtain ⟨vmain, vhold, hexec⟩ := exec_holdReversed h
  obtain ⟨hlo, hhi⟩ := reversedVhold_readout (Config.freeNat s.free)
  obtain ⟨hrev, href, hchg⟩ := State.on_holdRefused s
  refine ⟨_, hexec, ?_⟩
  simp (disch := decide) only [State.rd_history, State.on_history, State.rd_refreshArmed, State.on_refreshArmed, State.rd_vhold_holdRefused,
    State.on_armed_refreshArmed, State.armedNow_of_reversed hrev]
  exact ⟨hlo, hhi, hrev, href, hchg, trivial⟩

/-! PMBus (R130, R132). -/

@[simp] theorem State.rail_setRail_same (s : State) (n : Nat) (r : Rail) : (s.setRail n r).rail n = r := tblGet_set_same _ _ _ _

@[simp] theorem State.rd_setRail (s : State) (n : Nat) (r : Rail) (f : Fld) : (s.setRail n r).rd f = s.rd f := rfl

@[simp] theorem State.on_setRail (s : State) (n : Nat) (r : Rail) (f : Fld) : (s.setRail n r).on f = s.on f := rfl

/-- The two registers of a channel that a transaction writes are apart. -/
theorem railSta_key_ne_telem (n : Nat) :
    (Reg.RAIL_STA.PMB_STALE n).key ≠ (Reg.RAIL_TELEM.VOUT n).key ∧ (Reg.RAIL_STA.PMB_STALE n).key ≠ (Reg.RAIL_TELEM.IOUT n).key := by
  simp [Reg.RAIL_STA.PMB_STALE, Reg.RAIL_TELEM.VOUT, Reg.RAIL_TELEM.IOUT]

theorem State.on_stale_wrb (s : State) (n : Nat) (b : Bool) : (s.wrb (Reg.RAIL_STA.PMB_STALE n) b).on (Reg.RAIL_STA.PMB_STALE n) = b :=
  State.on_wrb _ _ _ (by simp [Reg.RAIL_STA.PMB_STALE]) (by simp [Reg.RAIL_STA.PMB_STALE])

section Pmbus
variable {s : State} {n : Nat} (hn : n < 20) (hbound : s.on (Reg.RAIL_PMB.BOUND n)) (hheld : (s.rail n).held = none)
include hn hbound hheld

/-- A good poll of a channel without a held set-point: the channel is fresh and the telemetry is the regulator's. -/
theorem exec_pmbPoll_one (vout iout temp status : Nat) :
    exec (.pmbPoll [⟨n, false, vout, iout, temp, status⟩]) s
      = .next ((((s.wrb (Reg.RAIL_STA.PMB_STALE n) false).wr (Reg.RAIL_TELEM.VOUT n) vout).wr (Reg.RAIL_TELEM.IOUT n) iout).setRail n
        { s.rail n with temp := temp, status := status, held := none }) := by
  show execPmbPoll [⟨n, false, vout, iout, temp, status⟩] s = _
  rw [execPmbPoll, List.foldl_cons, List.foldl_nil, State.pmbResult, if_neg (by simp [hbound]; omega), if_neg Bool.false_ne_true]
  simp only [hheld, if_true]

/-- A good transaction of an alert: the channel is fresh and its STATUS_WORD is known. -/
theorem exec_pmbAlert_one (vout iout temp status : Nat) :
    exec (.pmbAlert [⟨n, false, vout, iout, temp, status⟩]) s
      = .next ((s.wrb (Reg.RAIL_STA.PMB_STALE n) false).setRail n { s.rail n with status := status, held := none }) := by
  show execPmbAlert [⟨n, false, vout, iout, temp, status⟩] s = _
  rw [execPmbAlert, List.foldl_cons, List.foldl_nil, State.pmbResult, if_neg (by simp [hbound]; omega), if_neg Bool.false_ne_true]
  simp only [hheld, Bool.false_eq_true, if_false]

theorem ends_pmbPoll_one (vout iout temp status : Nat) : Ends (.pmbPoll [⟨n, false, vout, iout, temp, status⟩]) s fun t =>
    t.rd (Reg.RAIL_TELEM.VOUT n) = vout % 65536 ∧ t.rd (Reg.RAIL_TELEM.IOUT n) = iout % 65536 ∧ !t.on (Reg.RAIL_STA.PMB_STALE n)
      ∧ (t.rail n).temp = temp ∧ (t.rail n).status = status := by
  obtain ⟨hvout, hiout⟩ := railSta_key_ne_telem n
  refine ⟨_, exec_pmbPoll_one hn hbound hheld vout iout temp status, ?_, ?_, ?_, ?_, ?_⟩
  · rw [State.rd_setRail, State.rd_wr_apart _ _ _ _ (.inr rfl) (by simp [Reg.RAIL_TELEM.VOUT]), State.rd_wr _ _ _ (by simp [Reg.RAIL_TELEM.VOUT])]
    rfl
  · rw [State.rd_setRail, State.rd_wr _ _ _ (by simp [Reg.RAIL_TELEM.IOUT])]
    rfl
  · rw [State.on_setRail, State.on, State.rd_wr_key _ _ _ _ hiout, State.rd_wr_key _ _ _ _ hvout, ← State.on, State.on_stale_wrb]
    rfl
  · rw [State.rail_setRail_same]
  · rw [State.rail_setRail_same]

theorem ends_pmbAlert_one (vout iout temp status : Nat) : Ends (.pmbAlert [⟨n, false, vout, iout, temp, status⟩]) s fun t =>
    (t.rail n).status = status ∧ !t.on (Reg.RAIL_STA.PMB_STALE n) ∧ t.rd (Reg.RAIL_TELEM.VOUT n) = s.rd (Reg.RAIL_TELEM.VOUT n) := by
  refine ⟨_, exec_pmbAlert_one hn hbound hheld vout iout temp status, ?_, ?_, ?_⟩
  · rw [State.rail_setRail_same]
  · rw [State.on_setRail, State.on_stale_wrb]
    rfl
  · rw [State.rd_setRail, State.wrb, State.rd_wr_key _ _ _ _ (railSta_key_ne_telem n).1.symm]

end Pmbus

/-! Set-points (R131). -/

theorem exec_railSetWrite_inRange {s : State} {n mv : Nat} (hn : n < 20) (hlive : s.reqLive .pwr) (hlo : s.rd (Reg.RAIL_VOUT.VMIN n) ≤ mv)
    (hhi : mv ≤ s.rd (Reg.RAIL_VOUT.VMAX n)) (hbound : s.on (Reg.RAIL_PMB.BOUND n)) (hformat : s.on (Reg.RAIL_STA.PMB_FORMAT n) = false)
    (hfresh : s.on (Reg.RAIL_STA.PMB_STALE n) = false) :
    exec (.railSetWrite .pwr n mv) s = .next ((s.wr (Reg.RAIL_SET.VOUT n) mv).emit (.vout n mv)) := by
  show execRailSetWrite .pwr n mv s = _
  rw [execRailSetWrite, if_pos ⟨rfl, hlive, hn⟩, State.railSet, if_pos ⟨hlo, hhi⟩]
  simp only [hbound, hformat, hfresh, Bool.not_true, Bool.false_eq_true, or_self, if_false]

theorem exec_railSetWrite_tooHigh {s : State} {n mv : Nat} (hn : n < 20) (hlive : s.reqLive .pwr) (hhi : s.rd (Reg.RAIL_VOUT.VMAX n) < mv) :
    exec (.railSetWrite .pwr n mv) s = .next ((s.raise 2 9).lastStatus 2 Code.BOUNDS) := by
  show execRailSetWrite .pwr n mv s = _
  rw [execRailSetWrite, if_pos ⟨rfl, hlive, hn⟩, State.railSet, if_neg (by omega)]

/-! Commands (R135, R136) and the thermal trip (R133). -/

section Commands
variable {s : State} {q : Req} (h : s.supTakes q)
include h

theorem exec_supPowerUp (hfree : s.upBlocked = false) (hused : s.usedMask ≠ 0) : exec (.supPowerUp q) s = .next (s.powerUp s.usedMask) := by
  show execSupPowerUp q s = _
  rw [execSupPowerUp, if_pos h, State.supPowerUp, if_neg (by simp [hfree, hused])]

theorem exec_supPowerDown (hon : s.enMask ≠ 0) : exec (.supPowerDown q) s = .next (s.powerDown s.usedMask) := by
  show execSupPowerDown q s = _
  rw [execSupPowerDown, if_pos h, State.supPowerDown, if_neg fun hoff => hon hoff.1]

theorem exec_supGroupOn {g : Nat} (hg : g < 256) : exec (.supGroupOn q g) s = .next (s.supGroupOn g) := by
  show execSupGroupOn q g s = _
  rw [execSupGroupOn, if_pos h, Nat.mod_eq_of_lt hg]

theorem exec_supGroupOff {g : Nat} (hg : g < 256) : exec (.supGroupOff q g) s = .next (s.powerDown (s.groupMask g)) := by
  show execSupGroupOff q g s = _
  rw [execSupGroupOff, if_pos h, Nat.mod_eq_of_lt hg]

end Commands

theorem exec_thermtrip {s : State} (h : s.on Reg.SUP_STA.THERMTRIP = false) : exec .thermtrip s = .next s.thermTrip.bootWaits := by
  show execThermtrip s = _
  rw [execThermtrip, if_neg (by simp [h])]

/-- Settles O27: a command, sample or trip that is taken is the supervisor's shared operation; a reversal and the PMBus reads end in the fields that
they write, and a set-point goes by the side of VMAX on which it lies. -/
theorem supplyControl : Obligations.SupplyControl := by
  unfold Obligations.SupplyControl
  refine ⟨fun s q hq => ⟨fun hfree hused => exec_supPowerUp hq hfree hused, fun hon => exec_supPowerDown hq hon, fun g hg => exec_supGroupOn hq hg,
      fun g hg => exec_supGroupOff hq hg⟩,
    fun s => ⟨fun samples pg => rfl, fun h => exec_thermtrip h, fun h => ends_holdReversed h, ?_, ?_, ?_, ?_⟩⟩
  · exact fun n vout iout temp status hn hbound hheld => ends_pmbPoll_one hn hbound hheld vout iout temp status
  · exact fun n vout iout temp status hn hbound hheld => ends_pmbAlert_one hn hbound hheld vout iout temp status
  · exact fun n mv hn hlive hlo hhi hbound hformat hfresh => exec_railSetWrite_inRange hn hlive hlo hhi hbound hformat hfresh
  · exact fun n mv hn hlive hhi => exec_railSetWrite_tooHigh hn hlive hhi

end Sys2Proof.Machine
end

section
/-!
SUPPORT. The boot stage, the end of a hook, and loading and unloading firmware: what each command of Machine/Boot.lean and Machine/Firmware.lean
answers, and what it leaves in the BOOT page (R199, R200, R203, R204, R208-R211).
-/
namespace Sys2Proof.Machine

/-! The stage (R211). -/

theorem State.stage_setStage (s : State) {g : Nat} (h : g < 16) : (s.setStage g).stage = g := by
  unfold State.setStage
  split
  next hstays => exact hstays
  next =>
    rw [State.stage, State.rd_raise _ _ _ _ (by decide), State.rd_wr _ _ _ (by decide)]
    exact Nat.mod_eq_of_lt h

/-- A stage shows in BOOT_STA and its change in EVT_RAW, nowhere else. -/
theorem State.rd_setStage (s : State) (g : Nat) {f : Fld} (hsta : f.key ≠ Reg.BOOT_STA.STAGE.key) (hevt : f.key ≠ 0x4010) :
    (s.setStage g).rd f = s.rd f := by
  unfold State.setStage
  split
  · rfl
  · rw [State.rd_raise _ _ _ _ hevt, State.rd_wr_key _ _ _ _ hsta]

@[simp] theorem State.setStage_boot (s : State) (g : Nat) : (s.setStage g).boot = s.boot := by
  unfold State.setStage
  split <;> simp

/-! Hooks (R199, R200). -/

theorem bit_setBit_true (v i : Nat) : bit (setBit v i true) i = true := by
  unfold setBit
  split
  next hset => exact hset
  next hclear =>
    have hodd : (v + 2 ^ i) / 2 ^ i = v / 2 ^ i + 1 := Nat.add_div_right v (Nat.two_pow_pos i)
    simp only [bit, decide_eq_true_eq] at hclear ⊢
    simp only [if_true, hodd]
    omega

/-- R326: a log entry leaves the boot's own state alone. -/
@[simp] theorem State.logClerk_boot (s : State) (n level code a0 a1 a2 : Nat) : (s.logClerk n level code a0 a1 a2).boot = s.boot := by
  unfold State.logClerk State.offerLog
  simp only
  split
  · rfl
  · split
    · rfl
    · rw [State.raise_boot, State.count, State.wr_boot]

/-- What a hook's failure leaves of the boot's own state: the hook is marked. -/
theorem State.hookFailed_boot (s : State) (h : Nat) (cause : HookCause) :
    (s.hookFailed h cause).boot = { s.boot with hooksFailed := setBit s.boot.hooksFailed h true } := by
  simp only [State.hookFailed, State.logSec, State.raise_boot, State.wrb_boot, State.logClerk_boot]

theorem State.on_hookFault_hookFailed (s : State) (h : Nat) (cause : HookCause) : (s.hookFailed h cause).on Reg.BOOT_STA.HOOK_FAULT = true := by
  rw [State.hookFailed, State.on_raise _ _ _ _ (by decide), State.on_wrb _ _ _ (by decide) (by decide)]

section Hooks
variable {s : State} {h : Nat} (hrun : s.boot.hook = some h)
include hrun

theorem exec_hookReturn_zero : exec (.hookReturn 0) s = .next (s.hookOver.afterHook h) := by
  show execHookReturn 0 s = _
  rw [execHookReturn, if_pos (Nat.zero_mod _), State.endHook, hrun]
  rfl

theorem exec_hookReturn_code {code : Nat} (hpos : 0 < code) (hword : code < 2 ^ 32) :
    exec (.hookReturn code) s = .next ((s.hookOver.hookFailed h (.returned code)).afterHook h) := by
  show execHookReturn code s = _
  rw [execHookReturn, Nat.mod_eq_of_lt hword, if_neg (by omega), State.endHook, hrun]
  rfl

theorem exec_hookTimeout : exec .hookTimeout s = .next ((s.hookOver.hookFailed h .timeout).afterHook h) := by
  show execHookTimeout s = _
  rw [execHookTimeout, State.endHook, hrun]
  rfl

end Hooks

/-! Loading (R203, R204). -/

theorem State.rd_code_bootCmdEnd (s : State) {code : Nat} (check : Nat) (h : code < 256) :
    (s.bootCmdEnd code check).rd Reg.BOOT_LOAD_STA.CODE = code := by
  rw [State.bootCmdEnd, State.lastStatus, State.rd_wr_key _ _ _ _ (by decide), State.rd_wr_apart _ _ _ _ (by decide) (by decide),
    State.rd_wr _ _ _ (by decide)]
  exact Nat.mod_eq_of_lt h

/-- R203: a LOAD that passes checks 1 and 2 notes where it came from and enters LOADING. -/
theorem State.bootLoad_passed {s : State} (hstage : s.stage = Stage.AWAIT_FIRMWARE ∨ s.stage = Stage.LOADED_REFUSED)
    (hrails : s.on Reg.BOOT_STA.RAILS_FAULT = false) (halign : s.rd Reg.BOOT_FW_ADDR.ADDR % 4096 = 0) (hlo : 0x200 ≤ s.rd Reg.BOOT_FW_LEN.LEN)
    (hhi : s.rd Reg.BOOT_FW_LEN.LEN ≤ 0x2000000) :
    s.bootLoad = ({ s with boot := { s.boot with loadFrom := s.stage } } : State).setStage Stage.LOADING := by
  simp only [State.bootLoad]
  rw [if_neg (by omega), if_neg (by simp [hrails]), if_neg (by omega), if_neg (by omega)]

section Firmware
variable {s : State} (hsec : s.secUp)
include hsec

theorem exec_bootLoad {q : Req} (hq : s.pf q) (hlive : s.resetting 4 = false) : exec (.bootLoad q) s = .next s.bootLoad := by
  show execBootLoad q s = _
  rw [execBootLoad, if_pos ⟨hq, hsec, by simp [hlive]⟩]

theorem exec_loadComplete (h : s.stage = Stage.LOADING) (dma : DmaEnd) (bytes : List Byte) :
    exec (.loadComplete dma bytes) s = .next (s.loadComplete dma bytes) := by
  show execLoadComplete dma bytes s = _
  rw [execLoadComplete, if_pos ⟨h, hsec⟩]

/-- R208: an UNLOAD of a loaded image. -/
theorem exec_bootUnload {q : Req} (hq : s.pf q) (hlive : s.resetting 4 = false)
    (h : s.stage = Stage.LOADED ∨ s.stage = Stage.RUNNING ∨ s.stage = Stage.LOADED_REFUSED) : exec (.bootUnload q) s = .next s.startUnload := by
  show execBootUnload q s = _
  rw [execBootUnload, if_neg (by simp [hq, hsec, hlive]), if_pos h]

/-- R208, R209: with no ring in use no abort is settled, and with no op left the clerks unload. -/
theorem exec_unloadComplete (h : s.stage = Stage.UNLOADING) (hops : s.ops = []) (hrings : s.ringsInUse = []) :
    exec .unloadComplete s = .next ((s.unloadClerks.bootCmdEnd Code.OK 0).setStage Stage.AWAIT_FIRMWARE) := by
  have hsettled : s.settleAborts = s := by rw [State.settleAborts, hrings, List.foldl_nil]
  show execUnloadComplete s = _
  simp only [execUnloadComplete, hsettled, hops]
  rw [if_neg (by simp [h, hsec]), if_neg (by simp)]

end Firmware

/-- R204: a staged copy that passes every check is loaded. -/
theorem State.loadComplete_passed {s : State} {bytes : List Byte} (h : ((s.stageImage bytes).imageCode (s.stageImage bytes).stagedCopy).1 = Code.OK) :
    s.loadComplete .ok bytes
      = ((s.stageImage bytes).wr Reg.BOOT_LOAD_STA.KEY_SLOT (Img.keySlot (s.stageImage bytes).stagedCopy)).fwLoaded (s.stageImage bytes).stagedCopy := by
  simp only [State.loadComplete, h, if_true]

/-- R203: a host read that fails leaves what it brought. -/
theorem State.loadComplete_failed (s : State) {dma : DmaEnd} (bytes : List Byte) (h : dma ≠ .ok) :
    s.loadComplete dma bytes = (s.stagePart bytes).loadFailed (dmaCode dma) 3 := by
  cases dma
  case ok => exact absurd rfl h
  all_goals rfl

/-- A command's end as BOOT shows it: its code, and the stage it leads to. -/
theorem State.bootCmdEnd_stage (s : State) {code g : Nat} (check : Nat) (hcode : code < 256) (hg : g < 16) :
    ((s.bootCmdEnd code check).setStage g).stage = g ∧ ((s.bootCmdEnd code check).setStage g).rd Reg.BOOT_LOAD_STA.CODE = code :=
  ⟨State.stage_setStage _ hg, (State.rd_setStage _ _ (by decide) (by decide)).trans (State.rd_code_bootCmdEnd s check hcode)⟩

theorem State.stage_fwLoaded (s : State) (img : List Byte) : (s.fwLoaded img).stage = Stage.LOADED := State.stage_setStage _ (by decide)

theorem State.rd_code_fwLoaded (s : State) (img : List Byte) : (s.fwLoaded img).rd Reg.BOOT_LOAD_STA.CODE = Code.OK := by
  rw [State.fwLoaded, State.rd_setStage _ _ (by decide) (by decide), State.rd_raise _ _ _ _ (by decide), State.rd_code_bootCmdEnd _ _ (by decide)]

theorem State.stage_startUnload (s : State) : s.startUnload.stage = Stage.UNLOADING := State.stage_setStage _ (by decide)

/-- Settles O21: a hook's end is `hookOver`, with `hookFailed` before the boot goes on unless it returned 0; each firmware command answers its shared
operation, whose last step enters the stage. -/
theorem hooksAndFirmware : Obligations.HooksAndFirmware := by
  unfold Obligations.HooksAndFirmware
  refine ⟨fun s h hrun => ⟨exec_hookReturn_zero hrun, fun code hpos hword => exec_hookReturn_code hrun hpos hword, exec_hookTimeout hrun,
      fun cause => ⟨State.on_hookFault_hookFailed _ h cause, ?_, ?_⟩⟩,
    fun s hsec => ⟨?_, ?_, ?_, ?_, ?_⟩⟩
  · rw [State.hookFailed_boot]
    rfl
  · rw [State.hookFailed_boot]
    exact bit_setBit_true _ h
  · intro q hq hlive hstage hrails halign hlo hhi
    have hexec := exec_bootLoad hsec hq hlive
    rw [State.bootLoad_passed hstage hrails halign hlo hhi] at hexec
    exact ⟨_, hexec, State.stage_setStage _ (by decide), by rw [State.setStage_boot]⟩
  · intro bytes hstage hpassed
    have hexec := exec_loadComplete hsec hstage .ok bytes
    rw [State.loadComplete_passed hpassed] at hexec
    exact ⟨_, hexec, State.stage_fwLoaded _ _, State.rd_code_fwLoaded _ _⟩
  · intro dma bytes hstage hfail
    rw [exec_loadComplete hsec hstage, State.loadComplete_failed s bytes hfail]
  · exact fun q hq hlive hstage => ⟨_, exec_bootUnload hsec hq hlive hstage, State.stage_startUnload s⟩
  · exact fun hstage hops hrings => ⟨_, exec_unloadComplete hsec hstage hops hrings, State.bootCmdEnd_stage _ 0 (by decide) (by decide)⟩

end Sys2Proof.Machine
end

section
/-!
SUPPORT. The requests that open sessions, read stored data, and set up the trace and the dumps: what each answers to a request that passes the
checks of its server (R205, R215, R312, R316, R328, R331).
-/
namespace Sys2Proof.Machine

/-- The versions that the image serves stand in BOOT_IMAGE alone, so a pair that attaches leaves them. -/
theorem State.protoBytes_attach (s : State) (a p : Nat) (x : Pair) (b : Bool) :
    ((s.setPair a p x).wrb (Reg.MBX_STA.ATTACHED a p) b).protoBytes = s.protoBytes := by
  have hkey : Reg.BOOT_IMAGE.PROTO_MAJOR.key ≠ (Reg.MBX_STA.ATTACHED a p).key := by
    simp only [Reg.BOOT_IMAGE.PROTO_MAJOR, Reg.MBX_STA.ATTACHED]
    omega
  rw [State.protoBytes, State.wrb, State.rd_wr_key _ _ Reg.BOOT_IMAGE.PROTO_MAJOR _ hkey, State.rd_wr_key _ _ Reg.BOOT_IMAGE.PROTO_MINOR _ hkey]
  rfl

section Requests
variable {s : State} {a p typ : Nat} {f : Fetch} {m : Jz}

theorem State.typ_of_asked (h : s.Asked a p typ f m) : m.typ = typ := by
  obtain ⟨-, -, -, -, htyp⟩ := h
  exact htyp

/-! Sessions (R205, R312). -/

/-- R205: a well-formed HELLO is refused in LOADED_REFUSED and at a version that the image does not serve, and welcomed otherwise. -/
theorem exec_hello (h : s.Asked a p 0x0001 f m) (hlen : m.payload.length = 8) (hzero : fieldAt m.payload 4 4 = 0) (wr : DmaEnd) :
    exec (.hello a p f wr) s
      = .next (if (s.speak a p f).stage = Stage.LOADED_REFUSED ∨ !(s.speak a p f).serves m then (s.speak a p f).refuseHello wr
          else (s.speak a p f).welcome m wr) := by
  show execHello a p f wr s = _
  rw [execHello, State.request_of_asked h, if_neg (by simp [hlen, hzero])]

/-- R312: an ATTACH at a version that the image serves. -/
theorem exec_attach (h : s.Asked a p 0x0004 f m) (hempty : m.payload = []) (hserves : (s.speak a p f).serves m) (wr : DmaEnd) :
    exec (.attach a p f wr) s
      = .next ((((s.speak a p f).setPair a p { (s.speak a p f).pair a p with major := m.major, minor := m.minor }).wrb
          (Reg.MBX_STA.ATTACHED a p) true).reply a p 0x0005 Code.OK (s.speak a p f).protoBytes wr) := by
  show execAttach a p f wr s = _
  rw [execAttach, State.request_of_asked h, if_neg (by simp [hempty]), if_pos hserves]
  simp only [State.protoBytes_attach]

/-! Reads of stored data (R215, R316). -/

theorem State.readRequest_answered (s : State) (hlen : m.payload.length = 8) (hmost : fieldAt m.payload 4 4 ≤ 4056) (data : List Byte) (wr : DmaEnd) :
    s.readRequest a p m data wr
      = s.reply a p m.typ Code.OK (leBytes 4 data.length ++ zeros 4 ++ (data.drop (fieldAt m.payload 0 4)).take (fieldAt m.payload 4 4)) wr := by
  rw [State.readRequest, if_neg (by omega), if_neg (by omega), State.respond]

theorem exec_vpdRead (h : s.Asked a p 0x0010 f m) (wr : DmaEnd) :
    exec (.vpdRead a p f wr) s = .next ((s.speak a p f).readRequest a p m (s.speak a p f).vpd wr) := by
  show execVpdRead a p f wr s = _
  rw [execVpdRead, State.request_of_asked h]

theorem exec_manifestRead (h : s.Asked a p 0x0011 f m) (wr : DmaEnd) :
    exec (.manifestRead a p f wr) s = .next ((s.speak a p f).readRequest a p m (s.speak a p f).boot.manifest wr) := by
  show execManifestRead a p f wr s = _
  rw [execManifestRead, State.request_of_asked h]

/-! Trace and dumps (R328, R331). -/

/-- R328: a TRACE_CFG whose buffer is aligned, in a window of the PF and clear of the firmware regions is taken. -/
theorem State.traceCfg_answered (s : State) (hlen : m.payload.length = 44) (hen : fieldAt m.payload 8 4 < 2)
    (halign : fieldAt m.payload 0 8 % 0x4000000 = 0) (hwin : View.inWindow s.rd 0 (fieldAt m.payload 0 8) 0x4000000 false false)
    (hfw : s.meetsFw (fieldAt m.payload 0 8) 0x4000000 = false) (wr : DmaEnd) :
    s.traceCfg a p m wr
      = (({ s with trace := ⟨fieldAt m.payload 0 8, fieldAt m.payload 8 4 = 1, fieldAt m.payload 12 32, 0, 0⟩ } : State).zeroRange
          (fieldAt m.payload 0 8) 4096).reply a p m.typ Code.OK [] wr := by
  simp only [State.traceCfg]
  rw [if_neg (by omega), if_neg (by simp [halign, hwin, hfw]), State.respond]

theorem exec_traceCfg (h : s.Asked a p 0x0012 f m) (wr : DmaEnd) : exec (.traceCfg a p f wr) s = .next ((s.speak a p f).traceCfg a p m wr) := by
  show execTraceCfg a p f wr s = _
  rw [execTraceCfg, State.request_of_asked h]

/-- R331: a number below 8 names one dump area. -/
theorem dumpAreas_one {n : Nat} (h : n < 8) : ((List.range 8).filter fun d => n = 0xFF || d = n) = [n] := by
  have hall : ∀ n, n < 8 → ((List.range 8).filter fun d => n = 0xFF || d = n) = [n] := by decide
  exact hall n h

/-- R331: 0xFF names all of them. -/
theorem dumpAreas_all : ((List.range 8).filter fun d => 0xFF = 0xFF || d = 0xFF) = List.range 8 := by decide

theorem State.dumpClear_answered (s : State) (hlen : m.payload.length = 4) (hn : fieldAt m.payload 0 4 < 8 ∨ fieldAt m.payload 0 4 = 0xFF) (wr : DmaEnd) :
    s.dumpClear a p m wr
      = (((List.range 8).filter fun d => fieldAt m.payload 0 4 = 0xFF || d = fieldAt m.payload 0 4).foldl
          (fun t d => (t.readyHeader (dumpRegion d)).setPtr (dumpRegion d) 0x10 0) s).reply a p m.typ Code.OK [] wr := by
  simp only [State.dumpClear]
  rw [if_neg (by omega), if_neg (by omega), State.respond]

theorem exec_dumpClear (h : s.Asked a p 0x0013 f m) (wr : DmaEnd) : exec (.dumpClear a p f wr) s = .next ((s.speak a p f).dumpClear a p m wr) := by
  show execDumpClear a p f wr s = _
  rw [execDumpClear, State.request_of_asked h]

end Requests

/-- Settles O32: a request that passes its server's checks answers its own meaning on the state that the pair speaks in; each clause is the case of
that meaning in which nothing is refused, or the HELLO is. -/
theorem sessionsAndServices : Obligations.SessionsAndServices := by
  unfold Obligations.SessionsAndServices
  refine ⟨fun s a p f m wr => ⟨?_, ?_, ?_, fun h hempty hserves => exec_attach h hempty hserves wr⟩, fun s a p f m wr => ⟨?_, ?_, ?_, ?_, ?_⟩⟩
  · intro h hlen hzero hstage hserves
    rw [exec_hello h hlen hzero, if_neg (by simp [hstage, hserves])]
  · intro h hlen hzero hserves
    rw [exec_hello h hlen hzero, if_pos (.inr (by simp [hserves]))]
  · intro h hlen hzero hstage
    rw [exec_hello h hlen hzero, if_pos (.inl hstage)]
  · intro h hlen hmost
    rw [exec_vpdRead h, State.readRequest_answered _ hlen hmost, State.typ_of_asked h]
  · intro h hlen hmost
    rw [exec_manifestRead h, State.readRequest_answered _ hlen hmost, State.typ_of_asked h]
  · intro h hlen hen halign hwin hfw
    rw [exec_traceCfg h, State.traceCfg_answered _ hlen hen halign hwin hfw, State.typ_of_asked h]
  · rintro d hd h hlen rfl
    rw [exec_dumpClear h, State.dumpClear_answered _ hlen (.inl hd), State.typ_of_asked h, dumpAreas_one hd]
    rfl
  · intro h hlen hn
    rw [exec_dumpClear h, State.dumpClear_answered _ hlen (.inr hn), State.typ_of_asked h, hn, dumpAreas_all]

end Sys2Proof.Machine
end

section
/-!
SUPPORT. A serial port's FIFOs: what the operations that carry and set them keep of the registers, the port and the outputs (R246, R248).
-/
namespace Sys2Proof.Machine

/-! The port beside its registers. It is read from `spx` alone; the proofs go through the laws of `spx`, because `simp` takes a lemma proved by `rfl` for a
definitional equality, which the kernel would check here by comparing whole states. -/

@[simp] theorem State.port_wr (s : State) (f : Fld) (v u : Nat) : (s.wr f v).port u = s.port u := congrArg (tblGet default · u) (State.wr_spx s f v)

@[simp] theorem State.port_wrb (s : State) (f : Fld) (b : Bool) (u : Nat) : (s.wrb f b).port u = s.port u := congrArg (tblGet default · u) (State.wrb_spx s f b)

@[simp] theorem State.port_count (s : State) (f : Fld) (n u : Nat) : (s.count f n).port u = s.port u := State.port_wr s f _ u

@[simp] theorem State.port_emit (s : State) (o : Out) (u : Nat) : (s.emit o).port u = s.port u := congrArg (tblGet default · u) (State.emit_spx s o)

@[simp] theorem State.port_raise (s : State) (pg i u : Nat) : (s.raise pg i).port u = s.port u := by simp [State.port]

@[simp] theorem State.port_setPort_same (s : State) (u : Nat) (x : Spx) : (s.setPort u x).port u = x := tblGet_set_same _ _ _ _

/-- The levels of the FIFOs show in SPX_FIFO_STA alone. -/
theorem State.rd_setPort (s : State) (u : Nat) (x : Spx) (f : Fld) (h : f.key ≠ 0x50E8 + 0x1000 * u) : (s.setPort u x).rd f = s.rd f := by
  simp only [State.setPort]
  rw [State.rd_wr_key _ _ _ _ h, State.rd_wr_key _ _ _ _ h]
  rfl

@[simp] theorem onlyRegisters_setPort (s t : State) (u : Nat) (x : Spx) : OnlyRegisters s (t.setPort u x) ↔ OnlyRegisters s t := Iff.rfl

theorem State.rd_emit (s : State) (o : Out) (f : Fld) : (s.emit o).rd f = s.rd f := rfl

/-! Outputs are only added. -/

theorem State.mem_out_raiseVec {s : State} {o : Out} (h : o ∈ s.out) (fn v : Nat) : o ∈ (s.raiseVec fn v).out := by
  unfold State.raiseVec
  split
  · exact h
  · split
    · exact List.mem_cons_of_mem _ h
    · exact h

theorem State.mem_out_raise {s : State} {o : Out} (h : o ∈ s.out) (pg i : Nat) : o ∈ (s.raise pg i).out := by
  unfold State.raise State.raiseMask
  simp only
  split
  · exact State.mem_out_raiseVec (s := s.wr _ _) h _ _
  · exact h

/-! Marks of the FIFOs (R248). -/

/-- The FIFO events only raise events of the port's page: what every such event keeps, they keep. -/
theorem State.fifoEvents_keeps {P : State → Prop} {s : State} {u : Nat} (hraise : ∀ t i, P t → P (t.raise (5 + u) i)) (h : P s) : P (s.fifoEvents u) := by
  have hlow : P (if (s.port u).tx.length ≤ s.rd (Reg.SPX_FIFO_STA.TX_LOW u) then s.raise (5 + u) 2 else s) := by
    split
    · exact hraise _ _ h
    · exact h
  unfold State.fifoEvents
  simp only
  split
  · exact hraise _ _ hlow
  · exact hlow

@[simp] theorem State.port_setFifo_same (s : State) (u : Nat) (x : Spx) : (s.setFifo u x).port u = x :=
  State.fifoEvents_keeps (P := fun t => t.port u = x) (fun t i h => (State.port_raise t _ i u).trans h) (State.port_setPort_same s u x)

theorem State.rd_setFifo (s : State) (u : Nat) (x : Spx) (f : Fld) (hsta : f.key ≠ 0x50E8 + 0x1000 * u) (hevt : f.key ≠ 0x1000 * (5 + u) + 0x10) :
    (s.setFifo u x).rd f = s.rd f :=
  State.fifoEvents_keeps (P := fun t => t.rd f = s.rd f) (fun t i h => (State.rd_raise t _ i f hevt).trans h) (State.rd_setPort s u x f hsta)

@[simp] theorem State.setFifo_bmc (s : State) (u : Nat) (x : Spx) : (s.setFifo u x).bmc = s.bmc :=
  State.fifoEvents_keeps (P := fun t => t.bmc = s.bmc) (fun t i h => (State.raise_bmc t _ i).trans h) rfl

theorem State.mem_out_setFifo {s : State} {o : Out} (h : o ∈ s.out) (u : Nat) (x : Spx) : o ∈ (s.setFifo u x).out :=
  State.fifoEvents_keeps (P := fun t => o ∈ t.out) (fun _ i h => State.mem_out_raise h _ i) h

end Sys2Proof.Machine
end

section
/-!
SUPPORT. SPX1 as a slave: how a word starts, what the 32nd bit of a word does, and what each command of the slave answers (R244-R246, R251).
-/
namespace Sys2Proof.Machine

/-! A word starts (R246). -/

theorem State.port_startWord_fifos (s : State) (u : Nat) : ((s.startWord u).port u).tx = (s.port u).tx ∧ ((s.startWord u).port u).rx = (s.port u).rx := by
  simp [State.startWord]

theorem State.word_startWord_cons {s : State} {u : Nat} {h : Word} {rest : List Word} (htx : (s.port u).tx = h :: rest) :
    ((s.startWord u).port u).word = some (h, true) := by
  simp [State.startWord, htx]

theorem State.word_startWord_nil {s : State} {u : Nat} (htx : (s.port u).tx = []) :
    ((s.startWord u).port u).word = some (BitVec.ofNat 32 (s.rd (Reg.SPX_SLV_IDLE.WORD u)), false) := by
  simp [State.startWord, htx]

theorem State.rd_startWord (s : State) (u : Nat) (f : Fld) (hsta : f.key ≠ 0x50E8 + 0x1000 * u)
    (hbit : f.key ≠ (Reg.SPX_SLV_STA.BIT u).key ∨ (Reg.SPX_SLV_STA.BIT u).apart f = true) (hg : f.lo + f.width ≤ 64) :
    (s.startWord u).rd f = s.rd f := by
  simp only [State.startWord]
  rw [State.rd_wr_apart _ _ _ _ hbit hg, State.rd_setPort _ _ _ _ hsta]

theorem State.on_startWord (s : State) (u : Nat) (f : Fld) (hsta : f.key ≠ 0x50E8 + 0x1000 * u)
    (hbit : f.key ≠ (Reg.SPX_SLV_STA.BIT u).key ∨ (Reg.SPX_SLV_STA.BIT u).apart f = true) (hg : f.lo + f.width ≤ 64) :
    (s.startWord u).on f = s.on f := by rw [State.on, State.rd_startWord s u f hsta hbit hg, State.on]

theorem State.rd_bit_startWord (s : State) (u : Nat) : (s.startWord u).rd (Reg.SPX_SLV_STA.BIT u) = 0 := by
  simp only [State.startWord]
  rw [State.rd_wr _ _ _ (by simp [Reg.SPX_SLV_STA.BIT]), Nat.zero_mod]

@[simp] theorem onlyRegisters_startWord (s t : State) (u : Nat) : OnlyRegisters s (t.startWord u) ↔ OnlyRegisters s t := Iff.rfl

/-- R244, R246: the select of a slave starts a word, with the level of SCK that tells its mode. -/
theorem ends_slaveSelect {s : State} (hslave : s.controller 1 = false) (hfree : s.on (Reg.SPX_SLV_STA.SELECTED 1) = false) (hi : Bool) :
    Ends (.slaveSelect hi) s fun t =>
      t.on (Reg.SPX_SLV_STA.SELECTED 1) ∧ t.on (Reg.SPX_SLV_STA.MODE3 1) = hi ∧ t.rd (Reg.SPX_SLV_STA.BIT 1) = 0 ∧ OnlyRegisters s t ∧
        (t.port 1).word = some (match (s.port 1).tx with | h :: _ => (h, true) | [] => (BitVec.ofNat 32 (s.rd (Reg.SPX_SLV_IDLE.WORD 1)), false)) := by
  have hexec : exec (.slaveSelect hi) s
      = .next ((((s.wrb (Reg.SPX_SLV_STA.SELECTED 1) true).wrb (Reg.SPX_SLV_STA.MODE3 1) hi).raise 6 10).startWord 1) := by
    show execSlaveSelect hi s = _
    rw [execSlaveSelect, if_neg (by simp [hslave, hfree])]
  refine ⟨_, hexec, ?_, ?_, State.rd_bit_startWord _ 1, by simp, ?_⟩
  · simp (disch := decide) only [State.on_startWord, State.on_raise, State.on_wrb_apart, State.on_wrb]
  · simp (disch := decide) only [State.on_startWord, State.on_raise, State.on_wrb]
  · cases htx : (s.port 1).tx with
    | cons h rest => exact State.word_startWord_cons (by simpa using htx)
    | nil =>
      rw [State.word_startWord_nil (by simpa using htx)]
      simp (disch := decide) only [State.wrb, State.rd_raise, State.rd_wr_key]

/-! Bits and the end of a transaction (R245, R251). -/

theorem exec_slaveWord_partial {s : State} (hon : s.slaveOn) {n : Nat} (hn : n < 32) (w : Word) :
    exec (.slaveWord ⟨n, w⟩) s = .next (s.wr (Reg.SPX_SLV_STA.BIT 1) (max n (s.rd (Reg.SPX_SLV_STA.BIT 1)))) := by
  show execSlaveWord ⟨n, w⟩ s = _
  rw [execSlaveWord, if_neg (by simp [hon]), if_pos hn]

theorem exec_slaveWord_whole {s : State} (hon : s.slaveOn) {n : Nat} (hn : 32 ≤ n) (w : Word) : exec (.slaveWord ⟨n, w⟩) s = .next (s.slaveWord w) := by
  show execSlaveWord ⟨n, w⟩ s = _
  rw [execSlaveWord, if_neg (by simp [hon]), if_neg (Nat.not_lt.mpr hn)]

theorem exec_slaveDeselect {s : State} (hon : s.slaveOn) (n : Nat) :
    exec (.slaveDeselect n) s = .next (s.endWord 1 (max n (s.rd (Reg.SPX_SLV_STA.BIT 1)))) := by
  show execSlaveDeselect n s = _
  rw [execSlaveDeselect, if_pos hon]

/-! The received word (R246). -/

theorem State.slaveTakes_room {s : State} (h : (s.port 1).rx.length < 64) (w : Word) :
    s.slaveTakes w = s.setFifo 1 { s.port 1 with rx := (s.port 1).rx ++ [w] } := if_pos h

theorem State.slaveTakes_full {s : State} (h : 64 ≤ (s.port 1).rx.length) (w : Word) :
    s.slaveTakes w = (s.count (Reg.SPX_SLV_CNT.OVERRUN 1) 1).raise 6 5 := if_neg (Nat.not_lt.mpr h)

@[simp] theorem State.slaveTakes_bmc (s : State) (w : Word) : (s.slaveTakes w).bmc = s.bmc := by
  unfold State.slaveTakes
  simp only
  split
  · exact State.setFifo_bmc s 1 _
  · exact State.raise_bmc _ 6 5

/-- With no reply of the server waiting, the TX FIFO takes none. -/
theorem State.pushDue_of_empty {s : State} (h : s.bmc.due = []) : s.pushDue = s := if_pos (.inl (by simp [h]))

/-! The 32nd bit of a word (R244, R246). -/

/-- The word on DQ1: its levels, bit 31 first, and whether they start at the select. -/
def State.shown (s : State) (v : Word) : Out :=
  .spiWord v ((List.range 32).map fun i => v.toNat.testBit (31 - i)) (!s.on (Reg.SPX_SLV_STA.MODE3 1))

theorem State.spiWord_eq_shown (s : State) (v : Word) :
    Out.spiWord v ((List.range 32).map fun i => bit v.toNat (31 - i)) (!s.on (Reg.SPX_SLV_STA.MODE3 1)) = s.shown v := by
  simp only [State.shown, bit_eq_testBit]

/-- The state after the word has gone out and, where the TX FIFO still has it at its head, has left the FIFO. -/
def State.sentFromTx (s : State) (v : Word) : State :=
  if (s.port 1).tx.head? = some v then (s.emit (s.shown v)).setFifo 1 { s.port 1 with tx := (s.port 1).tx.drop 1 } else s.emit (s.shown v)

/-- The state after a word of SPX_SLV_IDLE has gone out, counted in UNDERRUN. -/
def State.sentIdle (s : State) (v : Word) : State := ((s.emit (s.shown v)).count (Reg.SPX_SLV_UNDER.UNDERRUN 1) 1).raise 6 6

section Sent
variable {s : State} {v : Word}

theorem State.port_sentFromTx_head {rest : List Word} (htx : (s.port 1).tx = v :: rest) : (s.sentFromTx v).port 1 = { s.port 1 with tx := rest } := by
  simp [State.sentFromTx, htx]

theorem State.rx_sentFromTx : ((s.sentFromTx v).port 1).rx = (s.port 1).rx := by
  unfold State.sentFromTx
  split <;> simp

theorem State.rd_overrun_sentFromTx : (s.sentFromTx v).rd (Reg.SPX_SLV_CNT.OVERRUN 1) = s.rd (Reg.SPX_SLV_CNT.OVERRUN 1) := by
  unfold State.sentFromTx
  split
  · exact State.rd_setFifo _ 1 _ _ (by decide) (by decide)
  · rfl

@[simp] theorem State.sentFromTx_bmc : (s.sentFromTx v).bmc = s.bmc := by
  unfold State.sentFromTx
  split
  · exact State.setFifo_bmc _ 1 _
  · rfl

theorem State.shown_mem_out_sentFromTx : s.shown v ∈ (s.sentFromTx v).out := by
  have hshown : s.shown v ∈ (s.emit (s.shown v)).out := List.mem_cons_self
  unfold State.sentFromTx
  split
  · exact State.mem_out_setFifo hshown 1 _
  · exact hshown

@[simp] theorem State.port_sentIdle : (s.sentIdle v).port 1 = s.port 1 := by simp [State.sentIdle]

@[simp] theorem State.sentIdle_bmc : (s.sentIdle v).bmc = s.bmc := State.raise_bmc _ 6 6

theorem State.rd_underrun_sentIdle : (s.sentIdle v).rd (Reg.SPX_SLV_UNDER.UNDERRUN 1) = min (s.rd (Reg.SPX_SLV_UNDER.UNDERRUN 1) + 1) 0xFFFF := by
  rw [State.sentIdle, State.rd_raise _ _ _ _ (by decide), State.rd_count _ _ _ (by decide), State.rd_emit]
  rfl

end Sent

section Exchange
variable {s : State} {v : Word} (hon : s.slaveOn) (hrun : s.stage ≠ Stage.HALTED) (hdue : s.bmc.due = [])
include hon hrun hdue

/-- The whole exchange with a word of the TX FIFO: it is sent, the received word is taken, and the next word starts. -/
theorem exec_slaveWord_fromTx (hword : (s.port 1).word = some (v, true)) (w : Word) :
    exec (.slaveWord ⟨32, w⟩) s = .next (((s.sentFromTx v).slaveTakes w).startWord 1) := by
  have hidle : (s.emit (s.shown v)).underrun 1 = s.emit (s.shown v) := by simp [State.underrun, State.idleWord, hword]
  have hpush := State.pushDue_of_empty (s := (s.sentFromTx v).slaveTakes w) (by simp [hdue])
  rw [exec_slaveWord_whole hon (Nat.le_refl 32)]
  simp only [State.slaveWord, hword, State.spiWord_eq_shown, hidle, if_neg hrun]
  simpa [State.sentFromTx] using congrArg (fun t => t.startWord 1) hpush

/-- The whole exchange with a word of SPX_SLV_IDLE. -/
theorem exec_slaveWord_idle (hword : (s.port 1).word = some (v, false)) (w : Word) :
    exec (.slaveWord ⟨32, w⟩) s = .next (((s.sentIdle v).slaveTakes w).startWord 1) := by
  have hidle : (s.emit (s.shown v)).underrun 1 = s.sentIdle v := by simp [State.underrun, State.idleWord, hword, State.sentIdle]
  have hpush := State.pushDue_of_empty (s := (s.sentIdle v).slaveTakes w) (by simp [hdue])
  rw [exec_slaveWord_whole hon (Nat.le_refl 32)]
  simp only [State.slaveWord, hword, State.spiWord_eq_shown, hidle, if_neg hrun, Bool.false_and, Bool.false_eq_true, if_false, hpush]

theorem ends_slaveWord_fromTx {rest : List Word} (hword : (s.port 1).word = some (v, true)) (htx : (s.port 1).tx = v :: rest)
    (hroom : (s.port 1).rx.length < 64) (w : Word) : Ends (.slaveWord ⟨32, w⟩) s fun t =>
      (t.port 1).tx = rest ∧ (t.port 1).rx = (s.port 1).rx ++ [w] ∧
        Out.spiWord v ((List.range 32).map fun i => v.toNat.testBit (31 - i)) (!s.on (Reg.SPX_SLV_STA.MODE3 1)) ∈ t.out := by
  have hsent := State.port_sentFromTx_head htx
  have htakes := State.slaveTakes_room (s := s.sentFromTx v) (by rw [State.rx_sentFromTx]; exact hroom) w
  obtain ⟨htx', hrx'⟩ := State.port_startWord_fifos ((s.sentFromTx v).slaveTakes w) 1
  refine ⟨_, exec_slaveWord_fromTx hon hrun hdue hword w, ?_, ?_, ?_⟩
  · rw [htx', htakes, State.port_setFifo_same, hsent]
  · rw [hrx', htakes, State.port_setFifo_same, hsent]
  · have hout : s.shown v ∈ ((s.sentFromTx v).slaveTakes w).out := by
      rw [htakes]
      exact State.mem_out_setFifo State.shown_mem_out_sentFromTx 1 _
    exact hout

theorem ends_slaveWord_idle (hword : (s.port 1).word = some (v, false)) (hroom : (s.port 1).rx.length < 64) (w : Word) :
    Ends (.slaveWord ⟨32, w⟩) s fun t =>
      (t.port 1).tx = (s.port 1).tx ∧ (t.port 1).rx = (s.port 1).rx ++ [w] ∧
        t.rd (Reg.SPX_SLV_UNDER.UNDERRUN 1) = min (s.rd (Reg.SPX_SLV_UNDER.UNDERRUN 1) + 1) 0xFFFF := by
  have htakes := State.slaveTakes_room (s := s.sentIdle v) (by simpa using hroom) w
  obtain ⟨htx', hrx'⟩ := State.port_startWord_fifos ((s.sentIdle v).slaveTakes w) 1
  refine ⟨_, exec_slaveWord_idle hon hrun hdue hword w, ?_, ?_, ?_⟩
  · rw [htx', htakes, State.port_setFifo_same, State.port_sentIdle]
  · rw [hrx', htakes, State.port_setFifo_same, State.port_sentIdle]
  · rw [State.rd_startWord _ _ _ (by decide) (by decide) (by decide), htakes, State.rd_setFifo _ _ _ _ (by decide) (by decide),
      State.rd_underrun_sentIdle]

theorem ends_slaveWord_overrun (hword : (s.port 1).word = some (v, true)) (hfull : 64 ≤ (s.port 1).rx.length) (w : Word) :
    Ends (.slaveWord ⟨32, w⟩) s fun t =>
      (t.port 1).rx = (s.port 1).rx ∧ t.rd (Reg.SPX_SLV_CNT.OVERRUN 1) = min (s.rd (Reg.SPX_SLV_CNT.OVERRUN 1) + 1) 0xFFFF := by
  have htakes := State.slaveTakes_full (s := s.sentFromTx v) (by rw [State.rx_sentFromTx]; exact hfull) w
  obtain ⟨-, hrx'⟩ := State.port_startWord_fifos ((s.sentFromTx v).slaveTakes w) 1
  refine ⟨_, exec_slaveWord_fromTx hon hrun hdue hword w, ?_, ?_⟩
  · rw [hrx', htakes, State.port_raise, State.port_count, State.rx_sentFromTx]
  · rw [State.rd_startWord _ _ _ (by decide) (by decide) (by decide), htakes, State.rd_raise _ _ _ _ (by decide), State.rd_count _ _ _ (by decide),
      State.rd_overrun_sentFromTx]
    rfl

end Exchange

/-- Settles O30: the select starts a word, fewer than 32 bits only show in BIT, and the 32nd bit sends the word, takes the received one and starts the
next; each clause of an exchange says what those steps leave in the FIFOs, the counters and the outputs. -/
theorem slaveWords : Obligations.SlaveWords := by
  unfold Obligations.SlaveWords
  exact ⟨fun s => ⟨fun hi hslave hfree => ends_slaveSelect hslave hfree hi, fun n w hon hn => exec_slaveWord_partial hon hn w,
      fun n w hon hn => exec_slaveWord_whole hon hn w, fun n hon => exec_slaveDeselect hon n⟩,
    fun s v w hon hrun hdue => ⟨fun rest hword htx hroom => ends_slaveWord_fromTx hon hrun hdue hword htx hroom w,
      fun hword hroom => ends_slaveWord_idle hon hrun hdue hword hroom w,
      fun hword hfull => ends_slaveWord_overrun hon hrun hdue hword hfull w⟩⟩

end Sys2Proof.Machine
end

section
/-!
SUPPORT. The serial ports as controllers: what each command of a port's owner, of the grant and of the execute-in-place windows answers (R231-R238).
-/
namespace Sys2Proof.Machine

/-! The owner of a port (R223, R231, R246). -/

/-- A write of the owner runs. -/
theorem State.ownerWrite_of_owns {s : State} {u : Nat} {q : Req} (h : s.OwnsPort u q) (run : State → State) : s.ownerWrite u q run = run s := by
  obtain ⟨hu, hlive, hreach, howner⟩ := h
  rw [State.ownerWrite, if_neg (by simp [hu, hlive, hreach]), if_pos howner]

section Owner
variable {s : State} {u : Nat} {q : Req} (h : s.OwnsPort u q)
include h

theorem exec_spxTxdPush_room (hroom : (s.port u).tx.length < 64) (w : Word) :
    exec (.spxTxdPush u q w) s = .next (s.setFifo u { s.port u with tx := (s.port u).tx ++ [w] }) := by
  show execSpxTxdPush u q w s = _
  rw [execSpxTxdPush, State.ownerWrite_of_owns h]
  exact congrArg _ (if_pos hroom)

theorem exec_spxRxdPop_cons {w : Word} {rest : List Word} (hrx : (s.port u).rx = w :: rest) :
    exec (.spxRxdPop u q) s = .next ((s.setFifo u { s.port u with rx := rest }).emit (.regRead (0x50E4 + 0x1000 * u) w.toNat)) := by
  obtain ⟨hu, hlive, hreach, howner⟩ := h
  show execSpxRxdPop u q s = _
  rw [execSpxRxdPop, if_neg (by simp [hu, hlive, hreach])]
  simp only [hrx, if_pos howner]
  rfl

theorem exec_xferStart_ok (hlive : s.resetting (5 + u) = false) (hcode : s.xferCode u = Code.OK) :
    exec (.xferStart u q) s = .next (s.wr (Reg.SPX_XFER_STA.STATE u) 1) := by
  show execXferStart u q s = _
  rw [execXferStart, State.ownerWrite_of_owns h, if_neg (by simp [hlive])]
  exact congrArg _ (if_pos hcode)

theorem exec_xferFlush_idle (hpending : s.rd (Reg.SPX_XFER_STA.STATE u) ≠ 1) (hrunning : s.rd (Reg.SPX_XFER_STA.STATE u) ≠ 2) :
    exec (.xferFlush u q) s = .next (s.setFifo u { s.port u with tx := [], rx := [] }) := by
  show execXferFlush u q s = _
  rw [execXferFlush, State.ownerWrite_of_owns h]
  exact congrArg _ (if_neg (by simp [hpending, hrunning]))

end Owner

/-! The grant of a free port and the end of a transfer (R232, R238). -/

section Port
variable {s : State} {u : Nat} (hu : u < 2)
include hu

theorem exec_spxPortGrant_free (hctl : s.controller u) (hfree : s.rd (Reg.SPX_PORT_STA.OP u) = 0) :
    exec (.spxPortGrant u) s = .next (s.portGrant u) := by
  show execSpxPortGrant u s = _
  rw [execSpxPortGrant, if_pos ⟨hu, hctl, hfree⟩]

theorem exec_xferDone_read {sel n : Nat} (hop : s.rd (Reg.SPX_PORT_STA.OP u) = 1) (hxfer : (s.port u).xfer = some (sel, n, true)) (rx : List Byte) :
    exec (.xferDone u rx) s
      = .next ((((((s.setFifo u { s.port u with rx := (s.port u).rx ++ toWords (wordsFor n) (padTo n rx), xfer := none }).wr
        (Reg.SPX_XFER_STA.STATE u) 3).wr (Reg.SPX_XFER_STA.CODE u) Code.OK).raise (5 + u) 0).lastStatus (5 + u) Code.OK).dropLines u sel |>.portFree u) := by
  show execXferDone u rx s = _
  rw [execXferDone, if_pos ⟨hu, hop⟩]
  simp only [State.xferDone, hxfer, if_true]

end Port

theorem State.portGrant_demand {s : State} {u sel a : Nat} {rest : List (Nat × Nat)} (h : (s.port u).demand = (sel, a) :: rest) :
    s.portGrant u = (s.setPort u { s.port u with demand := rest }).beginFetch sel a true := by
  simp only [State.portGrant, h]

theorem State.portGrant_xfer {s : State} {u : Nat} (hdemand : (s.port u).demand = []) (hlive : s.resetting (5 + u) = false)
    (hpending : s.rd (Reg.SPX_XFER_STA.STATE u) = 1) : s.portGrant u = s.beginXfer u := by
  simp only [State.portGrant, hdemand]
  rw [if_neg (by simp [hlive]), if_pos hpending]

/-! The windows of SPX0 (R233-R236). -/

/-- R233: an access within the window of a select reaches that select at the window's offset. -/
theorem exec_xipRead_window {s : State} {q : Req} {sel off n : Nat} (hsel : sel < 4) (hoff : off < 0x4000000) (hn : n = 1 ∨ n = 2 ∨ n = 4 ∨ n = 8)
    (hq : q = .sec ∨ q = .hook) (hlive : s.reqLive q) (write : Bool) :
    exec (.xipRead q (0x60000000 + 0x4000000 * sel + off) n write) s = .next (s.xipRead sel off n write) := by
  have hlow : xipBase 0 ≤ 0x60000000 + 0x4000000 * sel + off := by simp only [xipBase]; omega
  have hhigh : 0x60000000 + 0x4000000 * sel + off < xipBase 4 := by simp only [xipBase]; omega
  have hsel' : (0x60000000 + 0x4000000 * sel + off - xipBase 0) / 0x4000000 = sel := by simp only [xipBase]; omega
  have hoff' : (0x60000000 + 0x4000000 * sel + off - xipBase 0) % 0x4000000 = off := by simp only [xipBase]; omega
  show execXipRead q _ n write s = _
  rw [execXipRead, if_pos ⟨hlow, hhigh, hn, hq, hlive⟩, hsel', hoff']

/-- R234: a window takes no write. -/
theorem State.xipRead_write (s : State) (sel off n : Nat) : s.xipRead sel off n true = (s.emit (.xipError sel off)).raise 5 7 := if_pos (.inl rfl)

/-- A read that its window serves and that crosses no line boundary is one line access. -/
theorem State.xipRead_line {s : State} {sel off n : Nat} (hfirst : s.xipServed sel off) (hlast : s.xipServed sel (off + n - 1))
    (hlive : s.resetting 5 = false) (hin : off % 64 + n ≤ 64) :
    s.xipRead sel off n false = s.xipLine sel (off / 64 * 64) (off - off / 64 * 64) n := by
  have hmin : min n (off / 64 * 64 + 64 - off) = n := by omega
  simp only [State.xipRead, hmin]
  rw [if_neg (by simp [hfirst, hlast, hlive]), if_neg (Nat.lt_irrefl n)]

theorem exec_xipFetchDone {s : State} (hop : s.rd (Reg.SPX_PORT_STA.OP 0) = 2) (bytes : List Byte) :
    exec (.xipFetchDone bytes) s = .next (s.xipFetchDone bytes) := by
  show execXipFetchDone bytes s = _
  rw [execXipFetchDone, if_pos hop]

/-- Settles O29: each clause is what one command of a port answers in the case that its hypotheses name. -/
theorem serialPorts : Obligations.SerialPorts := by
  unfold Obligations.SerialPorts
  refine ⟨fun s u q h => have hu : u < 2 := h.1; ⟨fun w hroom => exec_spxTxdPush_room h hroom w, fun w rest hrx => exec_spxRxdPop_cons h hrx,
      fun hlive hcode => exec_xferStart_ok h hlive hcode, fun hpending hrunning => exec_xferFlush_idle h hpending hrunning, ?_, ?_,
      fun sel n rx hop hxfer => exec_xferDone_read hu hop hxfer rx⟩,
    fun s q sel off n hsel hoff hn hq hlive => ⟨?_, ?_, fun bytes hop _ => exec_xipFetchDone hop bytes⟩⟩
  · intro sel a rest hctl hfree hdemand
    rw [exec_spxPortGrant_free hu hctl hfree, State.portGrant_demand hdemand]
  · intro hlive hctl hfree hdemand hpending
    rw [exec_spxPortGrant_free hu hctl hfree, State.portGrant_xfer hdemand hlive hpending]
  · rw [exec_xipRead_window hsel hoff hn hq hlive, State.xipRead_write]
  · intro hfirst hlast hreset hin
    rw [exec_xipRead_window hsel hoff hn hq hlive, State.xipRead_line hfirst hlast hreset hin]

end Sys2Proof.Machine
end

section
/-!
SUPPORT. The account areas of the Vault: what a read and a write that pass their checks answer (R264, R316).
-/
namespace Sys2Proof.Machine

/-- A store is asked for after a write of the SRAM, so the request finds something to store (R269). -/
theorem State.requestStore_snd_of_unclean {s : State} (h : s.vault.clean = false) (source : Nat) (w : List StoreWaiter) :
    (s.requestStore source w).2 = false := by
  unfold State.requestStore
  split
  · rfl
  · rw [if_neg (by simp [h])]

/-- The state in which a write of an account area has stored DATA, and behind it VALID in HEAD_PTR where a valid length is given (R316). -/
def State.areaWritten (s : State) (a : Nat) (m : Jz) : State :=
  let t := (s.readyHeader (accountRegion a)).vaultWrite ((accountRegion a).base + 0x40 + fieldAt m.payload 0 4) (m.payload.drop 16)
  if fieldAt m.payload 8 4 = 0xFFFFFFFF then t else t.setPtr (accountRegion a) 0x10 (fieldAt m.payload 8 4)

theorem State.clean_areaWritten (s : State) (a : Nat) (m : Jz) : (s.areaWritten a m).vault.clean = false := by
  unfold State.areaWritten
  simp only
  split <;> rfl

section Areas
variable {s : State} {a p : Nat} {f : Fetch} {m : Jz}

theorem exec_vaultRead (h : s.Asked a p 0x0020 f m) (wr : DmaEnd) :
    exec (.vaultRead a p f wr) s = .next ((s.speak a p f).vaultReadReq a p m wr) := by
  show execVaultRead a p f wr s = _
  rw [execVaultRead, State.request_of_asked h]

theorem exec_vaultWrite (h : s.Asked a p 0x0021 f m) (wr : DmaEnd) :
    exec (.vaultWrite a p f wr) s = .next ((s.speak a p f).vaultWriteReq a p m wr) := by
  show execVaultWrite a p f wr s = _
  rw [execVaultWrite, State.request_of_asked h]

theorem State.vaultReadReq_ok (hlen : m.payload.length = 8) (hcode : s.areaCode a (fieldAt m.payload 0 4) (fieldAt m.payload 4 4) 4064 = Code.OK)
    (wr : DmaEnd) :
    s.vaultReadReq a p m wr
      = s.reply a p m.typ Code.OK (bytesAt s.vault.sram ((accountRegion a).base + 0x40 + fieldAt m.payload 0 4) (fieldAt m.payload 4 4)) wr := by
  simp only [State.vaultReadReq, hcode, if_true]
  rw [if_neg (by simp [hlen]), State.respond]

section Write
variable (hlen : m.payload.length = 16 + fieldAt m.payload 4 4)
  (hcode : s.areaCode a (fieldAt m.payload 0 4) (fieldAt m.payload 4 4) 4048 = Code.OK)
include hlen hcode

theorem State.vaultWriteReq_plain (hflags : fieldAt m.payload 12 4 = 0) (wr : DmaEnd) :
    s.vaultWriteReq a p m wr = (s.areaWritten a m).reply a p m.typ Code.OK [] wr := by
  simp only [State.vaultWriteReq, hflags, if_true]
  rw [if_neg (by omega), if_neg (by simp [hcode]), State.respond]
  rfl

theorem State.vaultWriteReq_store (hflags : fieldAt m.payload 12 4 = 1) (wr : DmaEnd) :
    s.vaultWriteReq a p m wr = (((s.areaWritten a m).busy a p m.typ wr).requestStore 1 [.vaultWrite a p]).1 := by
  have hstored := State.requestStore_snd_of_unclean (s := (s.areaWritten a m).busy a p m.typ wr) (s.clean_areaWritten a m) 1 [.vaultWrite a p]
  simp only [State.vaultWriteReq, hflags]
  rw [if_neg (by omega), if_neg (by simp [hcode]), if_neg Nat.one_ne_zero]
  exact if_neg (ne_true_of_eq_false hstored)

end Write

end Areas

/-- Settles O33: a request that passes its server's checks and those of its area answers OK; a write leaves the SRAM unclean, so the store that it asks
for is never done already. -/
theorem accountAreas : Obligations.AccountAreas := by
  unfold Obligations.AccountAreas
  refine fun s a p f m wr => ⟨?_, ?_⟩
  · intro h hlen hcode
    rw [exec_vaultRead h, State.vaultReadReq_ok hlen hcode, State.typ_of_asked h]
  · rintro t u h hlen hcode rfl rfl
    have htyp := State.typ_of_asked h
    refine ⟨fun hflags => ?_, fun hflags => ?_⟩
    · rw [exec_vaultWrite h, State.vaultWriteReq_plain hlen hcode hflags, htyp]
      rfl
    · rw [exec_vaultWrite h, State.vaultWriteReq_store hlen hcode hflags, htyp]
      rfl

end Sys2Proof.Machine
end

section
/-!
SUPPORT. Stores of the Vault: how a request starts one or finds it done, and what the end of a store leaves (R266-R269, R274).
-/
namespace Sys2Proof.Machine

/-! A request for a store (R266, R269). -/

section Request
variable {s : State} (hidle : s.vault.run = none)
include hidle

theorem State.requestStore_starts (hclean : s.vault.clean = false) (source : Nat) (w : List StoreWaiter) :
    (s.requestStore source w).1 = s.startStore source w := by
  simp only [State.requestStore, hidle]
  rw [if_neg (by simp [hclean])]

/-- R269: with the SRAM unwritten since the last completed snapshot, only the registers show the request. -/
theorem State.requestStore_alreadyDone (hclean : s.vault.clean) {source : Nat} (hsource : source ≠ 2) (w : List StoreWaiter) :
    (s.requestStore source w).1
      = ((s.wr Reg.VLT_STORE_INFO.SOURCE source).wr Reg.VLT_STORE_INFO.CODE Code.ALREADY_DONE).lastStatus 7 Code.ALREADY_DONE := by
  simp only [State.requestStore, hidle]
  rw [if_pos ⟨hsource, hclean⟩]

theorem exec_safeIntervalStore_starts (hsvc : s.svcUp) (harmed : s.on Reg.VLT_STA.ARMED = false) (hclean : s.vault.clean = false) :
    exec .safeIntervalStore s = .next (s.startStore 1 []) := by
  show execSafeIntervalStore s = _
  rw [execSafeIntervalStore, if_pos ⟨hsvc, by simp [harmed]⟩, State.requestStore_starts hidle hclean]

end Request

theorem exec_vltCmdStore {s : State} {q : Req} (h : s.vltTakes q) : exec (.vltCmdStore q) s = .next (s.requestStore 1 []).1 := by
  show execVltCmdStore q s = _
  rw [execVltCmdStore, if_pos h]

theorem ends_vltCmdStore_alreadyDone {s : State} {q : Req} (h : s.vltTakes q) (hidle : s.vault.run = none) (hclean : s.vault.clean) :
    Ends (.vltCmdStore q) s fun t =>
      t.rd Reg.VLT_STORE_INFO.CODE = Code.ALREADY_DONE ∧ t.rd (Reg.LAST_STATUS.CODE 7) = Code.ALREADY_DONE ∧ OnlyRegisters s t := by
  refine ⟨_, exec_vltCmdStore h, ?_⟩
  rw [State.requestStore_alreadyDone hidle hclean (by decide), State.lastStatus]
  refine ⟨?_, State.rd_wr _ _ _ (by decide), by simp⟩
  rw [State.rd_wr_key _ _ _ _ (by decide), State.rd_wr _ _ _ (by decide)]
  rfl

/-! The end of a store (R268). -/

theorem exec_storeDone {s : State} {r : StoreRun} (h : s.vault.run = some r) (us : Nat) :
    exec (.storeDone us) s = .next ((r.waiters.foldl State.storeWaiter (s.finishStore us)).startPending) := by
  show execStoreDone us s = _
  simp only [execStoreDone, State.storeDone, h]

theorem State.startPending_of_none {s : State} (h : s.vault.nextSources = []) : s.startPending = s := by simp only [State.startPending, h]

/-- The store seals: the shadow takes the snapshot, and the registers of the last store show it. -/
def State.sealStore (s : State) (r : StoreRun) (us : Nat) : State :=
  let t := { s with vault := { s.vault with shadow := r.snapshot, sealOpen := false, run := none, autoStore := false } }
  let t := ((t.countWrap Reg.VLT_STORE_CNT.COUNT 1).wr Reg.VLT_LAST_STORE.NS r.time).wrb Reg.VLT_STA.STORING false
  ((t.wr Reg.VLT_STORE_INFO.SOURCE r.source).wr Reg.VLT_STORE_INFO.CODE Code.OK).wr Reg.VLT_STORE_INFO.DURATION (min us 65535)

/-- A store that software asked for counts as such, and STORE_DONE is raised. -/
def State.softwareStored (s : State) : State := (s.count Reg.VLT_CNT2.SW_STORES 1).raise 7 0

/-- The wear that VLT_STORE_CNT shows, and the status of the store (R271). -/
def State.showWear (s : State) : State :=
  let n := s.rd Reg.VLT_STORE_CNT.COUNT
  ((if n = 900001 then s.raise 7 12 else s).wrb Reg.VLT_STA.WORN (decide (1000000 < n))).lastStatus 7 Code.OK

@[simp] theorem State.vault_showWear (s : State) : s.showWear.vault = s.vault := by
  unfold State.showWear
  simp only
  split <;> simp [State.lastStatus]

theorem State.rd_showWear (s : State) (f : Fld) (hworn : f.key ≠ Reg.VLT_STA.WORN.key ∨ Reg.VLT_STA.WORN.apart f = true) (hg : f.lo + f.width ≤ 64)
    (hraw : f.key ≠ 0x7010) (hlast : f.key ≠ (Reg.LAST_STATUS.CODE 7).key) : s.showWear.rd f = s.rd f := by
  unfold State.showWear
  simp only
  rw [State.lastStatus, State.rd_wr_key _ _ _ _ hlast, State.wrb, State.rd_wr_apart _ _ _ _ hworn hg]
  split
  · exact State.rd_raise _ _ _ _ hraw
  · rfl

theorem State.rd_softwareStored (s : State) (f : Fld) (hcnt : f.key ≠ Reg.VLT_CNT2.SW_STORES.key) (hraw : f.key ≠ 0x7010) :
    s.softwareStored.rd f = s.rd f := by
  rw [State.softwareStored, State.rd_raise _ _ _ _ hraw, State.count, State.rd_wr_key _ _ _ _ hcnt]

@[simp] theorem State.vault_softwareStored (s : State) : s.softwareStored.vault = s.vault := State.raise_vault _ 7 0

theorem State.rd_supply_sealStore (s : State) (r : StoreRun) (us : Nat) : (s.sealStore r us).rd Reg.VLT_STA.SUPPLY = s.rd Reg.VLT_STA.SUPPLY := by
  simp (disch := decide) only [State.sealStore, State.wrb, State.countWrap, State.rd_wr_apart]
  rfl

theorem State.on_storing_sealStore (s : State) (r : StoreRun) (us : Nat) : (s.sealStore r us).on Reg.VLT_STA.STORING = false := by
  simp (disch := decide) only [State.on, State.sealStore, State.wrb, State.rd_wr_key, State.rd_wr]
  rfl

theorem State.rd_storeCnt_sealStore (s : State) (r : StoreRun) (us : Nat) :
    (s.sealStore r us).rd Reg.VLT_STORE_CNT.COUNT = (s.rd Reg.VLT_STORE_CNT.COUNT + 1) % 2 ^ 64 := by
  simp (disch := decide) only [State.sealStore, State.wrb, State.rd_wr_key, State.rd_countWrap]
  rfl

theorem State.rd_lastStore_sealStore (s : State) {r : StoreRun} (htime : r.time < 2 ^ 64) (us : Nat) :
    (s.sealStore r us).rd Reg.VLT_LAST_STORE.NS = r.time := by
  simp (disch := decide) only [State.sealStore, State.wrb, State.rd_wr_key, State.rd_wr]
  exact Nat.mod_eq_of_lt htime

theorem State.rd_duration_sealStore (s : State) (r : StoreRun) (us : Nat) : (s.sealStore r us).rd Reg.VLT_STORE_INFO.DURATION = min us 65535 := by
  rw [State.sealStore, State.rd_wr _ _ _ (by decide)]
  exact Nat.mod_eq_of_lt (Nat.lt_succ_of_le (Nat.min_le_right us 65535))

@[simp] theorem State.vault_sealStore (s : State) (r : StoreRun) (us : Nat) :
    (s.sealStore r us).vault = { s.vault with shadow := r.snapshot, sealOpen := false, run := none, autoStore := false } := rfl

section Software
variable {s : State} {r : StoreRun} (hrun : s.vault.run = some r) (hsource : r.source ≠ 0) (hauto : r.auto = false) (hmet : s.vault.autoStore = false)
  (hsupply : s.supply ≠ 2)
include hrun hsource hauto hmet hsupply

/-- The end of a store that no AUTO crossing started or met, outside SUPPLY's STORING. -/
theorem State.finishStore_software (us : Nat) : s.finishStore us = ((s.sealStore r us).softwareStored).showWear := by
  have hkept : ((s.sealStore r us).softwareStored).showWear.rd Reg.VLT_STA.SUPPLY ≠ 2 := by
    rw [State.rd_showWear _ _ (by decide) (by decide) (by decide) (by decide), State.rd_softwareStored _ _ (by decide) (by decide),
      State.rd_supply_sealStore]
    exact hsupply
  simp only [State.finishStore, hrun, hauto, hmet, Bool.or_self, Bool.false_eq_true, false_and, if_false, if_neg hsource]
  exact if_neg hkept

/-- With nobody waiting and nothing merged behind it, the store's end is all that the command does. -/
theorem exec_storeDone_software (hnobody : r.waiters = []) (hnone : s.vault.nextSources = []) (us : Nat) :
    exec (.storeDone us) s = .next ((s.sealStore r us).softwareStored).showWear := by
  rw [exec_storeDone hrun, hnobody, List.foldl_nil, State.finishStore_software hrun hsource hauto hmet hsupply, State.startPending_of_none]
  simpa using hnone

theorem ends_storeDone_software (hnobody : r.waiters = []) (hnone : s.vault.nextSources = []) (htime : r.time < 2 ^ 64) (us : Nat) :
    Ends (.storeDone us) s fun t =>
      t.vault.shadow = r.snapshot ∧ t.vault.sealOpen = false ∧ t.vault.run = none ∧ t.vault.sram = s.vault.sram
        ∧ t.rd Reg.VLT_STORE_CNT.COUNT = (s.rd Reg.VLT_STORE_CNT.COUNT + 1) % 2 ^ 64 ∧ t.rd Reg.VLT_LAST_STORE.NS = r.time
        ∧ t.on Reg.VLT_STA.STORING = false ∧ t.rd Reg.VLT_STORE_INFO.DURATION = min us 65535 := by
  have hstoring := State.on_storing_sealStore s r us
  rw [State.on] at hstoring
  refine ⟨_, exec_storeDone_software hrun hsource hauto hmet hsupply hnobody hnone us, ?_⟩
  simp (disch := decide) only [State.vault_showWear, State.vault_softwareStored, State.vault_sealStore, State.on, State.rd_showWear,
    State.rd_softwareStored, State.rd_storeCnt_sealStore, State.rd_lastStore_sealStore s htime, State.rd_duration_sealStore, hstoring, and_self]

end Software

/-- Settles O35: a request starts a store or shows ALREADY_DONE by whether the SRAM was written; the end of a store is the sealing, the counting and
the wear, of which only the sealing touches the Vault and the registers of the last store. -/
theorem vaultStores : Obligations.VaultStores := by
  unfold Obligations.VaultStores
  refine ⟨fun s q us => ⟨?_, ?_, fun r hrun => exec_storeDone hrun us, fun h hidle hclean => ends_vltCmdStore_alreadyDone h hidle hclean⟩, ?_⟩
  · intro h hidle hclean
    rw [exec_vltCmdStore h, State.requestStore_starts hidle hclean]
  · exact fun hsvc harmed hidle hclean => exec_safeIntervalStore_starts hidle hsvc harmed hclean
  · exact fun s r us hrun hnobody hnone hsource hauto hmet htime hsupply =>
      ends_storeDone_software hrun hsource hauto hmet hsupply hnobody hnone htime us

end Sys2Proof.Machine
end

section
/-!
SUPPORT. What a sample of VMAIN_SNS, a clamp, the charger and entries of the history change: the registers they write, and little of the Vault (R51,
R98, R272, R283).
-/
namespace Sys2Proof.Machine

/-! A sample (R98, R284). -/

/-- A corrupt counterfoil of the Vault's page shows in three registers: the page's events, its status and its bit of the GLB fault map. -/
theorem State.cfCorrupt_vlt_keeps {P : State → Prop} {s : State} (hwr : ∀ t f v, f.key = 0x700C ∨ f.key = 0x54 → P t → P (t.wr f v))
    (hraise : ∀ t i, P t → P (t.raise 7 i)) (h : P s) : P (s.cfCorrupt 7) := by
  have hevent : P (s.raise 7 26) := hraise _ _ h
  rw [State.cfCorrupt, State.setFault]
  split
  · exact hevent
  · exact hraise _ _ (hwr _ _ _ (.inr rfl) (hwr _ _ _ (.inl rfl) hevent))

/-- A sample writes VLT_VMAIN, and what a corrupt threshold shows. -/
theorem State.vmain_keeps {P : State → Prop} {s : State} (hwr : ∀ t f v, f.key = 0x706C ∨ f.key = 0x700C ∨ f.key = 0x54 → P t → P (t.wr f v))
    (hraise : ∀ t i, P t → P (t.raise 7 i)) (h : P s) (v : Nat) : P (s.vmain v) := by
  have hsample : P ((s.wr Reg.VLT_VMAIN.NOW v).wr Reg.VLT_VMAIN.MIN (min (s.rd Reg.VLT_VMAIN.MIN) v)) :=
    hwr _ _ _ (.inl rfl) (hwr _ _ _ (.inl rfl) h)
  unfold State.vmain
  simp only
  split
  · exact State.cfCorrupt_vlt_keeps (fun t f v hf => hwr t f v (.inr hf)) hraise hsample
  · exact hsample

@[simp] theorem State.vault_vmain (s : State) (v : Nat) : (s.vmain v).vault = s.vault :=
  State.vmain_keeps (P := fun t => t.vault = s.vault) (fun t f v _ h => (State.wr_vault t f v).trans h) (fun t i h => (State.raise_vault t 7 i).trans h)
    rfl v

@[simp] theorem State.uptime_vmain (s : State) (v : Nat) : (s.vmain v).uptime = s.uptime :=
  State.vmain_keeps (P := fun t => t.uptime = s.uptime) (fun t f v _ h => (State.wr_uptime t f v).trans h)
    (fun t i h => (State.raise_uptime t 7 i).trans h) rfl v

theorem onlyRegisters_vmain (s : State) (v : Nat) : OnlyRegisters s (s.vmain v) :=
  State.vmain_keeps (fun t f v _ h => (onlyRegisters_wr s t f v).mpr h) (fun t i h => (onlyRegisters_raise s t 7 i).mpr h) (onlyRegisters_refl s) v

/-- A field of no register that a sample writes. -/
def Fld.outsideSample (f : Fld) : Bool := decide (f.key ≠ 0x706C) && decide (f.key ≠ 0x700C) && decide (f.key ≠ 0x54) && decide (f.key ≠ 0x7010)

theorem Fld.outsideSample_iff (f : Fld) : f.outsideSample = true ↔ f.key ≠ 0x706C ∧ f.key ≠ 0x700C ∧ f.key ≠ 0x54 ∧ f.key ≠ 0x7010 := by
  simp [Fld.outsideSample, and_assoc]

theorem State.rd_vmain (s : State) (v : Nat) (f : Fld) (h : f.outsideSample = true) : (s.vmain v).rd f = s.rd f := by
  obtain ⟨hnow, hsta, hmap, hraw⟩ := f.outsideSample_iff.mp h
  refine State.vmain_keeps (P := fun t => t.rd f = s.rd f) (fun t g v hg ht => (State.rd_wr_key t g f v ?_).trans ht)
    (fun t i ht => (State.rd_raise t 7 i f hraw).trans ht) rfl v
  rcases hg with hg | hg | hg <;> rwa [hg]

/-- VLT_VMAIN.NOW is the sample. -/
theorem State.rd_now_vmain (s : State) {v : Nat} (h : v < 1024) : (s.vmain v).rd Reg.VLT_VMAIN.NOW = v := by
  have hnow : ((s.wr Reg.VLT_VMAIN.NOW v).wr Reg.VLT_VMAIN.MIN (min (s.rd Reg.VLT_VMAIN.MIN) v)).rd Reg.VLT_VMAIN.NOW = v := by
    rw [State.rd_wr_apart _ _ _ _ (by decide) (by decide), State.rd_wr _ _ _ (by decide)]
    exact Nat.mod_eq_of_lt h
  unfold State.vmain
  simp only
  split
  · refine State.cfCorrupt_vlt_keeps (P := fun t => t.rd Reg.VLT_VMAIN.NOW = v) (fun t f w hf ht => (State.rd_wr_key t f _ w ?_).trans ht)
      (fun t i ht => (State.rd_raise t 7 i _ (by decide)).trans ht) hnow
    rcases hf with hf | hf <;> rw [hf] <;> decide
  · exact hnow

/-! A clamp (R51). -/

@[simp] theorem onlyRegisters_setClamp (s t : State) (f : Fld) (b : Bool) : OnlyRegisters s (t.setClamp f b) ↔ OnlyRegisters s t := by
  unfold State.setClamp
  split
  · rfl
  · cases b <;> simp

theorem State.rd_setClamp (s : State) (f : Fld) (b : Bool) (g : Fld) (hkey : g.key ≠ f.key) (hraw : g.key ≠ 0x1010) :
    (s.setClamp f b).rd g = s.rd g := by
  unfold State.setClamp
  split
  · rfl
  · cases b with
    | false => rw [State.rd_retarget, if_neg Bool.false_ne_true, State.wrb, State.rd_wr_key _ _ _ _ hkey]
    | true => rw [State.rd_retarget, if_pos rfl, State.rd_raise _ _ _ _ hraw, State.wrb, State.rd_wr_key _ _ _ _ hkey]

theorem State.on_setClamp_released (s : State) (f : Fld) (hg : f.lo + f.width ≤ 64) (hw : 0 < f.width) : (s.setClamp f false).on f = false := by
  unfold State.setClamp
  split
  next hoff => exact hoff
  next => rw [State.on, State.rd_retarget, if_neg Bool.false_ne_true, ← State.on, State.on_wrb _ _ _ hg hw]

/-! The charger (R272). -/

@[simp] theorem State.vault_recharge (s : State) : s.recharge.vault = s.vault := State.wrb_vault s _ _

theorem State.rd_recharge (s : State) (f : Fld) (h : f.key ≠ Reg.VLT_STA.CHARGING.key ∨ Reg.VLT_STA.CHARGING.apart f = true) (hg : f.lo + f.width ≤ 64) :
    s.recharge.rd f = s.rd f := State.rd_wr_apart s _ f _ h hg

theorem State.on_recharge (s : State) (f : Fld) (h : f.key ≠ Reg.VLT_STA.CHARGING.key ∨ Reg.VLT_STA.CHARGING.apart f = true) (hg : f.lo + f.width ≤ 64) :
    s.recharge.on f = s.on f := by rw [State.on, State.rd_recharge s f h hg, State.on]

theorem State.on_charging_recharge (s : State) : s.recharge.on Reg.VLT_STA.CHARGING = (s.charges && !s.vault.testRunning && !s.vault.onHold) :=
  State.on_wrb s _ _ (by decide) (by decide)

@[simp] theorem State.vault_refreshArmed (s : State) : s.refreshArmed.vault = s.vault := by
  unfold State.refreshArmed
  split
  · rfl
  · simp

/-! The history (R283). -/

/-- The Vault apart from its SRAM: what a write of the SRAM leaves alone. -/
def Vault.apartSram (v : Vault) : Vault := { v with sram := [], clean := false }

@[simp] theorem State.apartSram_vaultWrite (s : State) (off : Nat) (bs : List Byte) : (s.vaultWrite off bs).vault.apartSram = s.vault.apartSram := rfl

@[simp] theorem State.apartSram_setPtr (s : State) (r : VaultRegion) (o v : Nat) : (s.setPtr r o v).vault.apartSram = s.vault.apartSram := by
  rw [State.setPtr, State.apartSram_vaultWrite]

@[simp] theorem State.vault_offerLog (s : State) (n : Option Nat) (e : LogEntry) : (s.offerLog n e).vault = s.vault := by
  unfold State.offerLog
  split
  · rfl
  · cases n <;> simp [State.count]

@[simp] theorem State.vault_logClerk (s : State) (n level code a0 a1 a2 : Nat) : (s.logClerk n level code a0 a1 a2).vault = s.vault := by
  unfold State.logClerk
  simp only
  split
  · rfl
  · exact State.vault_offerLog s _ _

@[simp] theorem State.apartSram_readyHeader (s : State) (r : VaultRegion) : (s.readyHeader r).vault.apartSram = s.vault.apartSram := by
  unfold State.readyHeader
  split
  · rfl
  · rw [State.resetHeader, State.vault_logClerk, State.wr_vault, State.emptyHeader, State.apartSram_vaultWrite]

@[simp] theorem State.apartSram_ringAppend (s : State) (r : VaultRegion) (entry : Nat → List Byte) :
    (s.ringAppend r entry).vault.apartSram = s.vault.apartSram := by
  simp only [State.ringAppend, apply_ite (fun t : State => t.vault.apartSram), State.apartSram_setPtr, State.apartSram_vaultWrite, ite_self,
    State.apartSram_readyHeader]

theorem State.apartSram_history (s : State) (kind channel cause reaction cut retry arg0 arg1 : Nat) :
    (s.history kind channel cause reaction cut retry arg0 arg1).vault.apartSram = s.vault.apartSram := State.apartSram_ringAppend s _ _

end Sys2Proof.Machine
end

section
/-!
SUPPORT. The supply: what a crossing of VWARN, VSTORE and VRESET, a resume, the restart from LOST and the end of the hold domain answer (R276-R281,
R284, R289).
-/
namespace Sys2Proof.Machine

/-! The end of WARN (R273, R276). -/

/-- SUPPLY leaves WARN. -/
def State.leaveWarn (s : State) : State := if s.supply = Supply.WARN then s.wr Reg.VLT_STA.SUPPLY Supply.NORMAL else s

theorem State.rd_leaveWarn (s : State) (f : Fld) (h : f.key ≠ Reg.VLT_STA.SUPPLY.key) : s.leaveWarn.rd f = s.rd f := by
  unfold State.leaveWarn
  split
  · exact State.rd_wr_key _ _ _ _ h
  · rfl

theorem State.supply_leaveWarn {s : State} (h : s.supply = Supply.WARN) : s.leaveWarn.supply = Supply.NORMAL := by
  rw [State.leaveWarn, if_pos h, State.supply, State.rd_wr _ _ _ (by decide)]
  rfl

@[simp] theorem onlyRegisters_leaveWarn (s t : State) : OnlyRegisters s t.leaveWarn ↔ OnlyRegisters s t := by
  unfold State.leaveWarn
  split <;> simp

theorem State.rd_retryTest (s : State) (f : Fld) (h : f.key ≠ Reg.VLT_STA.CHARGING.key ∨ Reg.VLT_STA.CHARGING.apart f = true)
    (hg : f.lo + f.width ≤ 64) : s.retryTest.rd f = s.rd f := by
  unfold State.retryTest
  split
  · rfl
  · split
    · exact State.rd_recharge _ f h hg
    · rfl

/-- A test that is started or put off concerns the test alone. -/
theorem State.retryTest_frame (s : State) :
    s.retryTest.mem = s.mem ∧ s.retryTest.ops = s.ops ∧ s.retryTest.vault.sram = s.vault.sram ∧ s.retryTest.vault.run = s.vault.run := by
  unfold State.retryTest
  split
  · exact ⟨rfl, rfl, rfl, rfl⟩
  · split <;> exact ⟨rfl, rfl, rfl, rfl⟩

section Powered
variable {s : State} {v : Nat} (hsupplied : s.lost = false)
include hsupplied

/-! VWARN (R276). -/

theorem exec_vwarnFall (hv : v < s.vWarn) : exec (.vwarnFall v) s = .next ((s.vmain v).warn) := by
  show execVwarnFall v s = _
  rw [execVwarnFall, if_neg (by simp [hsupplied, hv])]

theorem exec_vwarnRise (hv : s.vWarn + 20 ≤ v) (hrange : v < 1024) :
    exec (.vwarnRise v) s = .next ((s.vmain v).setClamp Reg.CLK_STA.CLAMP_VWARN false).leaveWarn.retryTest := by
  show execVwarnRise v s = _
  rw [execVwarnRise, if_neg (by simp [hsupplied]; omega)]
  rfl

theorem ends_vwarnRise (hv : s.vWarn + 20 ≤ v) (hrange : v < 1024) : Ends (.vwarnRise v) s fun t =>
    t.on Reg.CLK_STA.CLAMP_VWARN = false ∧ t.rd Reg.VLT_VMAIN.NOW = v ∧ (s.supply = 1 → t.supply = 0) ∧ t.mem = s.mem ∧ t.ops = s.ops
      ∧ t.vault.sram = s.vault.sram ∧ t.vault.run = s.vault.run := by
  have hframe : OnlyRegisters s ((s.vmain v).setClamp Reg.CLK_STA.CLAMP_VWARN false).leaveWarn := by simp [onlyRegisters_vmain]
  obtain ⟨-, hmem, -, -, hvault, hops, -, -⟩ := hframe
  obtain ⟨hmem', hops', hsram, hrun⟩ := State.retryTest_frame ((s.vmain v).setClamp Reg.CLK_STA.CLAMP_VWARN false).leaveWarn
  refine ⟨_, exec_vwarnRise hsupplied hv hrange, ?_, ?_, ?_, hmem'.trans hmem, hops'.trans hops, ?_, ?_⟩
  · rw [State.on, State.rd_retryTest _ _ (by decide) (by decide), State.rd_leaveWarn _ _ (by decide), ← State.on,
      State.on_setClamp_released _ _ (by decide) (by decide)]
  · rw [State.rd_retryTest _ _ (by decide) (by decide), State.rd_leaveWarn _ _ (by decide), State.rd_setClamp _ _ _ _ (by decide) (by decide),
      State.rd_now_vmain s hrange]
  · intro hwarn
    rw [State.supply, State.rd_retryTest _ _ (by decide) (by decide), ← State.supply, State.supply_leaveWarn]
    rw [State.supply, State.rd_setClamp _ _ _ _ (by decide) (by decide), State.rd_vmain _ _ _ (by decide)]
    exact hwarn
  · rw [hsram, hvault]
  · rw [hrun, hvault]

/-! VSTORE (R277, R278). -/

theorem exec_vstoreFall (hv : v < s.vStore) : exec (.vstoreFall v) s = .next ((s.vmain v).belowStore) := by
  show execVstoreFall v s = _
  rw [execVstoreFall, if_neg (by simp [hsupplied, hv])]

/-- The first rise starts the count toward resume. -/
theorem exec_vstoreRise (hv : s.vStore + 20 ≤ v) (hrange : v < 1024) (hfirst : s.vault.storeRise = none) :
    exec (.vstoreRise v) s = .next { s.vmain v with vault := { s.vault with storeRise := some s.uptime } } := by
  show execVstoreRise v s = _
  rw [execVstoreRise, if_neg (by simp [hsupplied]; omega)]
  simp only [State.vault_vmain, State.uptime_vmain, hfirst, Option.isSome_none, Bool.false_eq_true, if_false]

/-! VRESET (R279). -/

theorem exec_vresetFall_powered (hv : v < s.vReset) (h : (s.vmain v).supply = Supply.NORMAL ∨ (s.vmain v).supply = Supply.WARN) :
    exec (.vresetFall v) s = .next ((s.vmain v).belowStore.lose) := by
  show execVresetFall v s = _
  rw [execVresetFall, if_neg (by omega), if_neg (by simp [hsupplied])]
  simp only [if_pos h]

/-- A device that is below VSTORE has taken the VSTORE decision already. -/
theorem exec_vresetFall_cut (hv : v < s.vReset) (h : (s.vmain v).supply = Supply.STORING ∨ (s.vmain v).supply = Supply.CUT) :
    exec (.vresetFall v) s = .next ((s.vmain v).lose) := by
  have hbelow : ¬ ((s.vmain v).supply = Supply.NORMAL ∨ (s.vmain v).supply = Supply.WARN) := by
    rcases h with h | h <;> rw [h] <;> decide
  show execVresetFall v s = _
  rw [execVresetFall, if_neg (by omega), if_neg (by simp [hsupplied])]
  simp only [if_neg hbelow]

end Powered

/-! Resume (R278). -/

theorem State.resumeNow_of_free {s : State} (h : s.upBlocked = false) : s.resumeNow = s.resume := by
  rw [State.resumeNow, if_neg (by simp [h])]

section Resume
variable {s : State} (hready : s.resumeReady) (hfree : s.upBlocked = false)
include hready hfree

theorem exec_vltCmdResume {q : Req} (hpf : s.pf q) (hlive : s.resetting 7 = false) :
    exec (.vltCmdResume q) s = .next ({ s with vault := { s.vault with resumeDue := true } } : State).resume := by
  show execVltCmdResume q s = _
  rw [execVltCmdResume, if_neg (by simp [hpf, hlive]), if_neg (by simp [hready])]
  exact congrArg _ (State.resumeNow_of_free hfree)

theorem exec_computeResume_auto (hauto : s.on Reg.SUP_AUTO_RESUME.ENABLE) : exec .computeResume s = .next s.resume := by
  show execComputeResume s = _
  rw [execComputeResume, if_pos ⟨hready, .inl hauto⟩, State.resumeNow_of_free hfree]

end Resume

/-! LOST (R279, R281, R289). -/

/-- The 10 ms have passed 10,000,000 ns after their start. -/
theorem State.tenMs_of_le {s : State} {rise : Nat} (h : rise + 10000000 ≤ s.uptime) : s.tenMs (some rise) = true := by
  rw [State.tenMs, Option.any_some]
  exact decide_eq_true h

/-- The state in which the hold domain is off: of the Vault only the shadow and its seal are left, and of its page the counter and the time of the last
store. -/
def State.holdCleared (s : State) : State :=
  { s with
    vault := { State.reset.vault with shadow := s.vault.shadow, sealOpen := s.vault.sealOpen }
    regs := s.regs.filter fun e =>
      !(decide (0x7000 ≤ e.1) && decide (e.1 < 0x8000)) || [Reg.VLT_STORE_CNT.COUNT.key, Reg.VLT_LAST_STORE.NS.key].contains e.1 }

/-- A key whose entries all stay reads the same. -/
theorem tblGet_filter_kept {β : Type} (d : β) {p : Nat × β → Bool} {k : Nat} (h : ∀ v, p (k, v) = true) (t : Tbl β) :
    tblGet d (t.filter p) k = tblGet d t k := by
  induction t with
  | nil => rfl
  | cons e t ih =>
    obtain ⟨j, v⟩ := e
    rw [List.filter_cons]
    split
    next => simp only [tblGet, ih]
    next hdrop =>
      have hj : k ≠ j := fun hkj => hdrop (hkj ▸ h v)
      rw [ih, tblGet, if_neg hj]

theorem State.rd_storeCnt_holdCleared (s : State) : s.holdCleared.rd Reg.VLT_STORE_CNT.COUNT = s.rd Reg.VLT_STORE_CNT.COUNT := by
  have hcell : s.holdCleared.cell Reg.VLT_STORE_CNT.COUNT.key = s.cell Reg.VLT_STORE_CNT.COUNT.key :=
    tblGet_filter_kept _ (by simp) s.regs
  rw [State.rd, hcell, State.rd]

section Lost
variable {s : State} (hlost : s.lost)
include hlost

theorem exec_vresetRise {v : Nat} (hv : s.vReset + 20 ≤ v) (hrange : v < 1024) (hfirst : s.vault.resetRise = none) :
    exec (.vresetRise v) s
      = .next ({ s.vmain v with vault := { s.vault with onHold := false, resetRise := some s.uptime } } : State).recharge := by
  show execVresetRise v s = _
  rw [execVresetRise, if_neg (by simp [hlost]; omega)]
  simp only [State.vault_vmain, State.uptime_vmain, hfirst, Option.isSome_none, Bool.false_eq_true, if_false]

theorem exec_lostRestart {rise : Nat} (hrise : s.vault.resetRise = some rise) (hwait : rise + 10000000 ≤ s.uptime) (env : BootEnv) :
    exec (.lostRestart env) s
      = .next (({ s.enterReset false with timeFine := 0 } : State).bootStart { env with strap := env.strap % 4 } true) := by
  show execLostRestart env s = _
  rw [execLostRestart, if_pos ⟨hlost, by rw [hrise, State.tenMs_of_le hwait]⟩]

/-- R289: without a running store nothing is torn. -/
theorem exec_holdDomainOff (hidle : s.vault.run = none) :
    ∃ n, exec .holdDomainOff s = .next ((s.holdCleared.wr Reg.VLT_STA.SUPPLY Supply.LOST).skipFree n) := by
  show ∃ n, execHoldDomainOff s = _
  rw [execHoldDomainOff, if_neg (by simp [hlost])]
  simp only [hidle]
  exact ⟨_, rfl⟩

theorem ends_holdDomainOff (hidle : s.vault.run = none) : Ends .holdDomainOff s fun t =>
    t.vault = { State.reset.vault with shadow := s.vault.shadow, sealOpen := s.vault.sealOpen } ∧ t.supply = 4
      ∧ t.rd Reg.VLT_STORE_CNT.COUNT = s.rd Reg.VLT_STORE_CNT.COUNT ∧ t.fuses = s.fuses := by
  obtain ⟨n, hexec⟩ := exec_holdDomainOff hlost hidle
  refine ⟨_, hexec, rfl, ?_, ?_, rfl⟩
  · rw [State.supply, State.rd_skipFree, State.rd_wr _ _ _ (by decide)]
    rfl
  · rw [State.rd_skipFree, State.rd_wr_key _ _ _ _ (by decide), State.rd_storeCnt_holdCleared]

end Lost

/-- Settles O36: each clause is the answer to one crossing, restart or resume; a sample changes registers alone, so a rise leaves the memories, the ops
and a running store as they are. -/
theorem supplyLoss : Obligations.SupplyLoss := by
  unfold Obligations.SupplyLoss
  refine ⟨fun s v hsupplied hrange => ⟨fun hv => exec_vwarnFall hsupplied hv, fun hv => ends_vwarnRise hsupplied hv hrange,
      fun hv => exec_vstoreFall hsupplied hv, ?_, fun hv h => exec_vresetFall_powered hsupplied hv h, fun hv h => exec_vresetFall_cut hsupplied hv h,
      fun q hready hfree hpf hlive => exec_vltCmdResume hready hfree hpf hlive, fun hready hfree hauto => exec_computeResume_auto hready hfree hauto⟩,
    fun s v hlost hrange => ⟨?_, fun env rise hrise hwait => exec_lostRestart hlost hrise hwait env, fun hidle => ends_holdDomainOff hlost hidle⟩⟩
  · intro hv hfirst
    exact ⟨_, exec_vstoreRise hsupplied hv hrange hfirst, rfl, State.rd_now_vmain s hrange⟩
  · intro hv hfirst
    refine ⟨_, exec_vresetRise hlost hv hrange hfirst, rfl, ?_⟩
    rw [State.rd_recharge _ _ (by decide) (by decide)]
    exact State.rd_now_vmain s hrange

end Sys2Proof.Machine
end

section
/-!
SUPPORT. The hold-up capacitor: what the health test, the levels of VHOLD, CAP_LOST and the charger's resume answer (R272, R273, R282).
-/
namespace Sys2Proof.Machine

/-! The health test (R273). -/

theorem exec_vltCmdHealthTest {s : State} {q : Req} (h : s.vltTakes q) :
    exec (.vltCmdHealthTest q) s = .next ({ s with vault := { s.vault with testDue := true, reached := false } } : State).refreshArmed := by
  show execVltCmdHealthTest q s = _
  rw [execVltCmdHealthTest, if_pos h]

/-- A capacitor that passes the test: 1,000 to 10,000 uF and at most 100 mOhm. -/
def capHealthy (cap esr : Nat) : Bool := decide (1000 ≤ cap) && decide (cap ≤ 10000) && decide (esr ≤ 100)

/-- The state in which a health test has ended and shows what it measured. -/
def State.testMeasured (s : State) (cap esr : Nat) : State :=
  let t := { s with vault := { s.vault with testRunning := false, tested := capHealthy cap esr, reached := false } }
  let t := ((t.wr Reg.VLT_CAP.CAP_UF (min cap 65535)).wr Reg.VLT_CAP.ESR_MOHM (min esr 65535)).wrb Reg.VLT_STA.HEALTH_OK (capHealthy cap esr)
  if capHealthy cap esr then t else t.raise 7 6

theorem State.vault_testMeasured (s : State) (cap esr : Nat) :
    (s.testMeasured cap esr).vault = { s.vault with testRunning := false, tested := capHealthy cap esr, reached := false } := by
  unfold State.testMeasured
  simp only
  split
  · rfl
  · exact State.raise_vault _ 7 6

theorem State.rd_capUf_testMeasured (s : State) (cap esr : Nat) : (s.testMeasured cap esr).rd Reg.VLT_CAP.CAP_UF = min cap 65535 := by
  have hfits : min cap 65535 % 2 ^ 16 = min cap 65535 := Nat.mod_eq_of_lt (Nat.lt_succ_of_le (Nat.min_le_right cap 65535))
  unfold State.testMeasured
  simp (disch := decide) only [State.wrb, apply_ite (State.rd · Reg.VLT_CAP.CAP_UF), State.rd_raise, State.rd_wr_apart, State.rd_wr, ite_self]
  exact hfits

theorem State.rd_esr_testMeasured (s : State) (cap esr : Nat) : (s.testMeasured cap esr).rd Reg.VLT_CAP.ESR_MOHM = min esr 65535 := by
  have hfits : min esr 65535 % 2 ^ 16 = min esr 65535 := Nat.mod_eq_of_lt (Nat.lt_succ_of_le (Nat.min_le_right esr 65535))
  unfold State.testMeasured
  simp (disch := decide) only [State.wrb, apply_ite (State.rd · Reg.VLT_CAP.ESR_MOHM), State.rd_raise, State.rd_wr_apart, State.rd_wr, ite_self]
  exact hfits

theorem exec_healthTestDone {s : State} (h : s.vault.testRunning) (cap esr : Nat) :
    exec (.healthTestDone cap esr) s = .next ((s.testMeasured cap esr).recharge.history 9 0xFF 0 0 0 0 cap esr).refreshArmed := by
  show execHealthTestDone cap esr s = _
  rw [execHealthTestDone, if_neg (by simp [h])]
  rfl

theorem ends_healthTestDone {s : State} (h : s.vault.testRunning) (cap esr : Nat) : Ends (.healthTestDone cap esr) s fun t =>
    t.vault.tested = capHealthy cap esr ∧ t.vault.testRunning = false ∧ t.vault.reached = false
      ∧ t.rd Reg.VLT_CAP.CAP_UF = min cap 65535 ∧ t.rd Reg.VLT_CAP.ESR_MOHM = min esr 65535 := by
  have hvault := State.apartSram_history (s.testMeasured cap esr).recharge 9 0xFF 0 0 0 0 cap esr
  rw [State.vault_recharge, State.vault_testMeasured] at hvault
  refine ⟨_, exec_healthTestDone h cap esr, ?_⟩
  simp (disch := decide) only [State.vault_refreshArmed, State.rd_refreshArmed, State.rd_history, State.rd_recharge, State.rd_capUf_testMeasured,
    State.rd_esr_testMeasured, and_true]
  exact ⟨congrArg Vault.tested hvault, congrArg Vault.testRunning hvault, congrArg Vault.reached hvault⟩

/-- R273: a test that is due runs, and waits while VMAIN_SNS is below VWARN. -/
theorem State.dueTest_runs {s : State} (h : s.on Reg.CLK_STA.CLAMP_VWARN = false) : s.dueTest = s.startTest := by
  rw [State.dueTest, if_neg (by simp [h])]

theorem State.dueTest_waits {s : State} (h : s.on Reg.CLK_STA.CLAMP_VWARN) :
    s.dueTest = { s with vault := { s.vault with testDue := false, testRetry := true } } := if_pos h

theorem exec_healthRetest {s : State} (hfailed : s.vault.tested = false) (hdue : s.vault.testDue = false) (hrun : s.vault.testRunning = false)
    (hretry : s.vault.testRetry = false) (hcharges : s.charges) : exec .healthRetest s = .next s.dueTest := by
  show execHealthRetest s = _
  rw [execHealthRetest]
  exact congrArg _ (if_neg (by simp [hfailed, hdue, hrun, hretry, hcharges]))

/-! Levels of VHOLD (R272). -/

/-- VHOLD at 16.0 V: the charger has done its work. -/
def State.chargedFull (s : State) : State := (s.wr Reg.SUP_HOLD_STA.VHOLD 1600).wrb Reg.VLT_STA.CHARGING false

theorem exec_vholdFull {s : State} (hcharges : s.charges) (hrun : s.vault.testRunning = false) (hmain : s.vault.onHold = false) :
    exec .vholdFull s = .next (if s.vault.testDue then s.chargedFull.dueTest else s.chargedFull) := by
  show execVholdFull s = _
  rw [execVholdFull, if_neg (by simp [hcharges, hrun, hmain])]
  rfl

theorem exec_vholdArm {s : State} (htested : s.vault.tested) (hrun : s.vault.testRunning = false) (hdue : s.vault.testDue = false) :
    exec .vholdArm s
      = .next ({ s.wr Reg.SUP_HOLD_STA.VHOLD 1440 with vault := { s.vault with reached := true } } : State).refreshArmed.armedInCut := by
  show execVholdArm s = _
  simp only [execVholdArm, State.wr_vault, htested, hrun, hdue, Bool.not_false, and_self, if_true]

/-- A store that runs is not disarmed (R272). -/
theorem exec_vholdLow_idle {s : State} (hidle : s.vault.run = none) :
    exec .vholdLow s
      = .next ({ (s.wr Reg.SUP_HOLD_STA.VHOLD 1399).recharge with vault := { s.vault with reached := false } } : State).refreshArmed := by
  show execVholdLow s = _
  simp only [execVholdLow, State.vault_recharge, State.wr_vault, hidle, Option.isSome_none, Bool.false_eq_true, if_false]

/-! CAP_LOST (R282). -/

theorem exec_capLost {s : State} (hcharging : s.on Reg.VLT_STA.CHARGING) (hcharges : s.charges) : exec .capLost s = .next s.capLost := by
  show execCapLost s = _
  rw [execCapLost, if_pos ⟨hcharging, hcharges⟩]

theorem exec_capCheckSink_drop {s : State} {mv : Nat} (hdrop : 1000 < mv) (hheld : s.vholdHeld) : exec (.capCheckSink mv) s = .next s.capLost := by
  show execCapCheckSink mv s = _
  rw [execCapCheckSink, if_neg (by simp [hheld, hdrop])]

/-- The state after the pause of CAP_LOST, with a new test due, before the charger follows. -/
def State.pauseOver (s : State) : State := ({ s with vault := { s.vault with testDue := true } } : State).wrb Reg.VLT_STA.CAP_LOST false

theorem exec_chargerResume {s : State} (h : s.on Reg.VLT_STA.CAP_LOST) : exec .chargerResume s = .next s.pauseOver.recharge := by
  show execChargerResume s = _
  rw [execChargerResume, if_pos h]
  rfl

theorem State.on_capLost_pauseOver (s : State) : s.pauseOver.on Reg.VLT_STA.CAP_LOST = false := State.on_wrb _ _ _ (by decide) (by decide)

/-- With CAP_LOST released, only a reversed VHOLD keeps the charger off. -/
theorem State.charges_pauseOver (s : State) : s.pauseOver.charges = !s.on Reg.SUP_HOLD_STA.REVERSED := by
  rw [State.charges, State.on_capLost_pauseOver, State.pauseOver, State.on_wrb_apart _ _ _ _ (by decide) (by decide), Bool.not_false, Bool.and_true]
  rfl

theorem ends_chargerResume {s : State} (h : s.on Reg.VLT_STA.CAP_LOST) : Ends .chargerResume s fun t =>
    t.vault = { s.vault with testDue := true } ∧ t.on Reg.VLT_STA.CAP_LOST = false
      ∧ t.on Reg.VLT_STA.CHARGING = (!s.on Reg.SUP_HOLD_STA.REVERSED && !s.vault.testRunning && !s.vault.onHold) := by
  refine ⟨_, exec_chargerResume h, rfl, ?_, ?_⟩
  · rw [State.on_recharge _ _ (by decide) (by decide), State.on_capLost_pauseOver]
  · rw [State.on_charging_recharge, State.charges_pauseOver]
    rfl

/-- Settles O37: each clause is the answer to one event of the capacitor; the end of a test and the charger's resume also say what the Vault and its
registers keep of them. -/
theorem holdUp : Obligations.HoldUp := by
  unfold Obligations.HoldUp
  refine fun s => ⟨fun q h => exec_vltCmdHealthTest h, fun hcharges hrun hmain => ⟨?_, ?_⟩, fun cap esr h => ends_healthTestDone h cap esr,
    fun hfailed hdue hrun hretry hcharges => ⟨?_, ?_⟩, fun htested hrun hdue => exec_vholdArm htested hrun hdue, fun hidle => exec_vholdLow_idle hidle,
    fun hcharging hcharges => exec_capLost hcharging hcharges, fun mv hdrop hheld => exec_capCheckSink_drop hdrop hheld,
    fun h => ends_chargerResume h⟩
  · intro hdue
    rw [exec_vholdFull hcharges hrun hmain, if_neg (by simp [hdue])]
    rfl
  · intro hdue
    rw [exec_vholdFull hcharges hrun hmain, if_pos hdue]
    rfl
  · intro hclear
    rw [exec_healthRetest hfailed hdue hrun hretry hcharges, State.dueTest_runs hclear]
  · intro hwarn
    rw [exec_healthRetest hfailed hdue hrun hretry hcharges, State.dueTest_waits hwarn]

end Sys2Proof.Machine
end

section
/-!
SUPPORT. The doorbell of a pair, and the answers to requests that fail a check (R308, R310, R311).
-/
namespace Sys2Proof.Machine

/-! Doorbells (R308). -/

section Doorbell
variable {s : State} {a p seq : Nat}

/-- The pair has taken the SEQ of a doorbell and waits for its request to be fetched. -/
def State.rung (s : State) (a p seq : Nat) : State := (s.setPair a p { s.pair a p with seq := seq % 2 ^ 32 }).wr (Reg.MBX_STA.STATE a p) 1

/-- The doorbell of a pair that is busy is counted and refused. -/
def State.ringRefused (s : State) (a p : Nat) : State := ((s.count (Reg.MBX_CNT.REFUSED a p) 1).raise (0x20 + a) 2).lastStatus (0x20 + a) Code.LIMIT

theorem exec_mbxDoorbell (hpair : pairExists a p) (hlive : s.fnLive a) (hrun : s.resetting (0x20 + a) = false) (seq : Nat) :
    exec (.mbxDoorbell a a p seq) s
      = .next (if s.rd (Reg.MBX_STA.STATE a p) = 0 ∨ s.rd (Reg.MBX_STA.STATE a p) = 3 then s.rung a p seq else s.ringRefused a p) := by
  show execMbxDoorbell a a p seq s = _
  rw [execMbxDoorbell, if_neg (by simp [hpair]), if_neg (by simp [hlive]), if_neg (by simp [hrun])]
  rfl

@[simp] theorem State.pair_setPair_same (s : State) (a p : Nat) (x : Pair) : (s.setPair a p x).pair a p = x := tblGet_set_same _ _ _ _

theorem State.seq_rung (hseq : seq < 2 ^ 32) : ((s.rung a p seq).pair a p).seq = seq := by
  have hpair : (s.rung a p seq).pair a p = (s.setPair a p { s.pair a p with seq := seq % 2 ^ 32 }).pair a p :=
    congrArg (tblGet _ · _) (State.wr_pairs _ _ _)
  rw [hpair, State.pair_setPair_same]
  exact Nat.mod_eq_of_lt hseq

theorem State.rd_state_rung (s : State) (a p seq : Nat) : (s.rung a p seq).rd (Reg.MBX_STA.STATE a p) = 1 :=
  State.rd_wr _ (Reg.MBX_STA.STATE a p) 1 (by simp [Reg.MBX_STA.STATE])

theorem State.rd_state_ringRefused (s : State) (a p : Nat) :
    (s.ringRefused a p).rd (Reg.MBX_STA.STATE a p) = s.rd (Reg.MBX_STA.STATE a p) := by
  rw [State.ringRefused, State.lastStatus, State.rd_wr_key, State.rd_raise, State.rd_count_apart]
  all_goals simp only [Reg.MBX_STA.STATE, Reg.MBX_CNT.REFUSED, Reg.LAST_STATUS.CODE]
  all_goals omega

theorem State.rd_refused_ringRefused (s : State) (a p : Nat) :
    (s.ringRefused a p).rd (Reg.MBX_CNT.REFUSED a p) = min (s.rd (Reg.MBX_CNT.REFUSED a p) + 1) 0xFFFF := by
  rw [State.ringRefused, State.lastStatus, State.rd_wr_key, State.rd_raise, State.rd_count]
  all_goals simp only [Reg.MBX_CNT.REFUSED, Reg.LAST_STATUS.CODE]
  all_goals omega

theorem State.rd_lastStatus (s : State) (pg : Nat) {code : Nat} (h : code < 256) : (s.lastStatus pg code).rd (Reg.LAST_STATUS.CODE pg) = code := by
  rw [State.lastStatus, State.rd_wr _ _ _ (by simp [Reg.LAST_STATUS.CODE])]
  exact Nat.mod_eq_of_lt h

theorem State.pairs_ringRefused (s : State) (a p : Nat) : (s.ringRefused a p).pairs = s.pairs := by
  rw [State.ringRefused, State.lastStatus, State.wr_pairs, State.raise_pairs, State.count, State.wr_pairs]

end Doorbell

/-! Requests that fail a check (R310, R311). -/

theorem exec_mbxBadMessage {s : State} {a p : Nat} (hpair : pairExists a p) (hfetch : s.rd (Reg.MBX_STA.STATE a p) = 1) (hsvc : s.svcUp) (f : Fetch)
    (wr : DmaEnd) : exec (.mbxBadMessage a p f wr) s = .next (s.mbxFailed a p f wr) := by
  show execMbxBadMessage a p f wr s = _
  rw [execMbxBadMessage, if_neg (by simp [hpair, hfetch, hsvc])]

/-- R312: a HELLO or ATTACH is refused with the versions that the image serves. -/
theorem State.refuseRequest_session (s : State) (a p : Nat) {typ : Nat} (h : typ = 0x0001 ∨ typ = 0x0004) (code : Nat) (wr : DmaEnd) :
    s.refuseRequest a p typ code wr = s.reply a p 0x0003 code s.protoBytes wr := if_pos h

/-- R315: any other request is refused with its own TYPE. -/
theorem State.refuseRequest_other (s : State) (a p : Nat) {typ : Nat} (h : ¬ (typ = 0x0001 ∨ typ = 0x0004)) (code : Nat) (wr : DmaEnd) :
    s.refuseRequest a p typ code wr = s.reply a p typ code [] wr := if_neg h

/-- Settles O31: a doorbell is taken or refused by the pair's state, and a bad request is answered by the check that it fails. -/
theorem doorbellsAndBadMessages : Obligations.DoorbellsAndBadMessages := by
  unfold Obligations.DoorbellsAndBadMessages
  refine ⟨fun s a p seq hpair hlive hrun hseq => ⟨fun hidle => ?_, fun hbusy => ?_⟩,
    fun s a p f wr hpair hfetch hsvc => ⟨fun code hcheck => ?_, fun typ code hcheck => ?_, fun t code => ⟨?_, ?_⟩, fun hcheck => ?_⟩⟩
  · have hexec := exec_mbxDoorbell hpair hlive hrun seq
    rw [if_pos hidle] at hexec
    exact ⟨_, hexec, State.rd_state_rung s a p seq, State.seq_rung hseq, rfl, rfl, rfl, rfl⟩
  · have hexec := exec_mbxDoorbell hpair hlive hrun seq
    rw [if_neg (by omega)] at hexec
    exact ⟨_, hexec, State.rd_state_ringRefused s a p, State.pairs_ringRefused s a p, State.rd_lastStatus _ _ (by decide),
      State.rd_refused_ringRefused s a p⟩
  · rw [exec_mbxBadMessage hpair hfetch hsvc, State.mbxFailed, hcheck]
  · rw [exec_mbxBadMessage hpair hfetch hsvc, State.mbxFailed, hcheck]
  · exact State.refuseRequest_other s a p (by decide) code wr
  · exact fun ht => State.refuseRequest_session s a p ht code wr
  · rw [exec_mbxBadMessage hpair hfetch hsvc, State.mbxFailed, hcheck]

end Sys2Proof.Machine
end

section
/-!
SUPPORT. Watchdogs and halts of the clerks: what a halt shows and records, and what it leaves of the other clerks and of the memories (R299-R301).
-/
namespace Sys2Proof.Machine

section Watchdog
variable {s : State} {n : Nat} {q : Req}

theorem exec_fwpKick (hn : n < 6) (hup : s.clerkUp n) (hq : q.clerk = some n) :
    exec (.fwpKick n q) s
      = .next (if s.uptime < (s.clerk n).lastKick + s.rd (Reg.FWP_WD.MIN n) * 1000000 then s.haltClerk n Halt.WD_EARLY 0
          else s.setClerk n { s.clerk n with lastKick := s.uptime }) := by
  show execFwpKick n q s = _
  rw [execFwpKick, if_neg (by simp [hn, hup, hq])]

theorem exec_watchdogExpiry (hn : n < 6) (hlate : (s.clerk n).lastKick + s.rd (Reg.FWP_WD.MAX n) * 1000000 ≤ s.uptime) :
    exec (.watchdogExpiry n) s = .next (s.haltClerk n Halt.WD_LATE 0) := by
  show execWatchdogExpiry n s = _
  rw [execWatchdogExpiry, if_pos ⟨hn, hlate⟩]

theorem exec_protectionFault {addr kind : Nat} (hn : n < 6) (hup : s.clerkUp n) (haddr : addr < 2 ^ 32)
    (hdenied : regionPermits (s.clerk n).regions (s.clerk n).comp addr kind = false) :
    exec (.protectionFault n addr kind false) s = .next (s.haltClerk n Halt.PROTECTION addr) := by
  show execProtectionFault n addr kind false s = _
  rw [execProtectionFault, if_neg Bool.false_ne_true, if_neg (by simp [hn, hup, hdenied]), Nat.mod_eq_of_lt haddr]

theorem exec_doubleFault (hn : n < 6) : exec (.doubleFault n) s = .next (s.haltClerk n Halt.DOUBLE_FAULT 0) := by
  show execDoubleFault n s = _
  rw [execDoubleFault, if_pos hn]

end Watchdog

/-! A halt (R301). -/

/-- The clerk's page shows a halt. -/
def State.haltShown (s : State) (n cause : Nat) : State :=
  ((((s.wr (Reg.FWP_STA.STATE n) ClerkSt.HALTED).wr (Reg.FWP_STA.CAUSE n) cause).wr (Reg.FWP_HALT_TIME.NS n) s.now).count
    (Reg.FWP_TOTAL.HALTS n) 1).raise (0x10 + n) 0

/-- The halt is shown and recorded beside the registers, and the clerk's dump is due. -/
def State.halted (s : State) (n cause addr : Nat) : State :=
  { s.haltShown n cause with dumps := (s.haltShown n cause).dumps ++ [n] }.setClerk n
    { s.clerk n with haltComp := (s.clerk n).comp, faultAddr := addr, halts := s.uptime :: (s.clerk n).halts }

/-- A double fault of a clerk other than SEC; that of PWR leaves the safe clock in force (R45). -/
theorem State.haltClerk_doubleFault {s : State} {n : Nat} (hup : s.clerkUp n) (hn : n ≠ 0) :
    s.haltClerk n Halt.DOUBLE_FAULT 0
      = if n = 2 then (s.halted n Halt.DOUBLE_FAULT 0).holdSafeClock else s.halted n Halt.DOUBLE_FAULT 0 := by
  have hcause : ¬ Halt.DOUBLE_FAULT = Halt.PROTECTION := by decide
  simp only [State.haltClerk, hup, Bool.not_true, Bool.false_eq_true, hcause, hn, if_false]
  rfl

section Shown
variable (s : State) (n : Nat)

theorem State.rd_state_haltShown (cause : Nat) : (s.haltShown n cause).rd (Reg.FWP_STA.STATE n) = ClerkSt.HALTED := by
  rw [State.haltShown, State.rd_raise, State.rd_count_apart, State.rd_wr_key, State.rd_wr_apart, State.rd_wr]
  · rfl
  all_goals simp [Reg.FWP_STA.STATE, Reg.FWP_STA.CAUSE, Reg.FWP_HALT_TIME.NS, Reg.FWP_TOTAL.HALTS, Fld.apart]
  all_goals omega

theorem State.rd_cause_haltShown {cause : Nat} (h : cause < 16) : (s.haltShown n cause).rd (Reg.FWP_STA.CAUSE n) = cause := by
  rw [State.haltShown, State.rd_raise, State.rd_count_apart, State.rd_wr_key, State.rd_wr]
  · exact Nat.mod_eq_of_lt h
  all_goals simp [Reg.FWP_STA.CAUSE, Reg.FWP_HALT_TIME.NS, Reg.FWP_TOTAL.HALTS]
  all_goals omega

theorem State.rd_haltTime_haltShown (cause : Nat) : (s.haltShown n cause).rd (Reg.FWP_HALT_TIME.NS n) = s.now := by
  rw [State.haltShown, State.rd_raise, State.rd_count_apart, State.rd_wr]
  · exact Nat.mod_mod _ _
  all_goals simp [Reg.FWP_HALT_TIME.NS, Reg.FWP_TOTAL.HALTS]
  all_goals omega

theorem State.clerkSt_haltShown {k : Nat} (h : k ≠ n) (cause : Nat) : (s.haltShown n cause).clerkSt k = s.clerkSt k := by
  rw [State.clerkSt, State.haltShown, State.rd_raise, State.rd_count_apart, State.rd_wr_key, State.rd_wr_key, State.rd_wr_key, State.clerkSt]
  all_goals simp [Reg.FWP_STA.STATE, Reg.FWP_STA.CAUSE, Reg.FWP_HALT_TIME.NS, Reg.FWP_TOTAL.HALTS]
  all_goals omega

theorem onlyRegisters_haltShown (cause : Nat) : OnlyRegisters s (s.haltShown n cause) := by simp [State.haltShown]

theorem State.clerk_halted_ne (cause addr : Nat) {k : Nat} (h : k ≠ n) : (s.halted n cause addr).clerk k = s.clerk k := by
  have hclerks : (s.haltShown n cause).clerks = s.clerks := State.raise_clerks _ _ _
  exact (tblGet_set_ne _ _ _ h).trans (congrArg (tblGet default · k) hclerks)

theorem State.dumps_halted (cause addr : Nat) : (s.halted n cause addr).dumps = s.dumps ++ [n] := by
  have hdumps : (s.haltShown n cause).dumps = s.dumps := State.raise_dumps _ _ _
  exact congrArg (· ++ [n]) hdumps

end Shown

/-! The safe clock (R45). -/

/-- The clerks, what waits for a dump and every register from the clerks' pages up are as before, and so are the memories and the ops. -/
def ClerksKept (s t : State) : Prop :=
  t.clerks = s.clerks ∧ t.dumps = s.dumps ∧ (∀ f : Fld, 0x10000 ≤ f.key → t.rd f = s.rd f) ∧ OnlyRegisters s t

theorem clerksKept_refl (s : State) : ClerksKept s s := ⟨rfl, rfl, fun _ _ => rfl, onlyRegisters_refl s⟩

theorem clerksKept_wr {s t : State} (h : ClerksKept s t) {f : Fld} (v : Nat) (hf : f.key < 0x10000) : ClerksKept s (t.wr f v) := by
  obtain ⟨hclerks, hdumps, hrd, honly⟩ := h
  exact ⟨hclerks, hdumps, fun g hg => (State.rd_wr_key t f g v (by omega)).trans (hrd g hg), honly⟩

theorem clerksKept_raise {s t : State} (h : ClerksKept s t) {pg : Nat} (i : Nat) (hpg : pg < 0xF) : ClerksKept s (t.raise pg i) := by
  obtain ⟨hclerks, hdumps, hrd, honly⟩ := h
  exact ⟨(State.raise_clerks t pg i).trans hclerks, (State.raise_dumps t pg i).trans hdumps,
    fun g hg => (State.rd_raise t pg i g (by omega)).trans (hrd g hg), (onlyRegisters_raise s t pg i).mpr honly⟩

theorem clerksKept_retarget {s t : State} (h : ClerksKept s t) : ClerksKept s t.retarget := by
  unfold State.retarget
  split
  · exact h
  · exact h

theorem clerksKept_setClamp {s t : State} (h : ClerksKept s t) {f : Fld} (hf : f.key < 0x10000) (b : Bool) : ClerksKept s (t.setClamp f b) := by
  unfold State.setClamp
  split
  · exact h
  · refine clerksKept_retarget ?_
    cases b with
    | false => exact clerksKept_wr h _ hf
    | true => exact clerksKept_raise (clerksKept_wr h _ hf) 1 (by decide)

theorem clerksKept_holdSafeClock (s : State) : ClerksKept s s.holdSafeClock :=
  clerksKept_retarget (clerksKept_setClamp (clerksKept_wr (clerksKept_refl s) 3 (by decide)) (by decide) true)

/-- A double fault changes beside the clerk's halt what only the clock pages show. -/
theorem clerksKept_doubleFault {s : State} {n : Nat} (hup : s.clerkUp n) (hn : n ≠ 0) :
    ClerksKept (s.halted n Halt.DOUBLE_FAULT 0) (s.haltClerk n Halt.DOUBLE_FAULT 0) := by
  rw [State.haltClerk_doubleFault hup hn]
  split
  · exact clerksKept_holdSafeClock _
  · exact clerksKept_refl _

theorem ends_doubleFault {s : State} {n : Nat} (hpos : 0 < n) (hn : n < 6) (hup : s.clerkUp n) : Ends (.doubleFault n) s fun t =>
    t.rd (Reg.FWP_STA.STATE n) = ClerkSt.HALTED ∧ t.rd (Reg.FWP_STA.CAUSE n) = Halt.DOUBLE_FAULT ∧ t.dumps = s.dumps ++ [n]
      ∧ t.rd (Reg.FWP_HALT_TIME.NS n) = s.now ∧ (∀ k, k < 6 → k ≠ n → t.clerk k = s.clerk k ∧ t.clerkSt k = s.clerkSt k)
      ∧ t.fuses = s.fuses ∧ t.mem = s.mem ∧ t.vault = s.vault ∧ t.ops = s.ops := by
  obtain ⟨hclerks, hdumps, hrd, hfuses, hmem, -, -, hvault, hops, -⟩ := clerksKept_doubleFault hup (Nat.ne_of_gt hpos)
  obtain ⟨hfuses', hmem', -, -, hvault', hops', -⟩ := onlyRegisters_haltShown s n Halt.DOUBLE_FAULT
  have hpage : ∀ f : Fld, 0x10000 ≤ f.key → (s.haltClerk n Halt.DOUBLE_FAULT 0).rd f = (s.haltShown n Halt.DOUBLE_FAULT).rd f := hrd
  exact ⟨_, exec_doubleFault hn, (hpage _ (Nat.le_add_right_of_le (by decide))).trans (State.rd_state_haltShown s n _),
    (hpage _ (Nat.le_add_right_of_le (by decide))).trans (State.rd_cause_haltShown s n (by decide)), hdumps.trans (State.dumps_halted s n _ _),
    (hpage _ (Nat.le_add_right_of_le (by decide))).trans (State.rd_haltTime_haltShown s n _),
    fun k _ hk => ⟨(congrArg (tblGet default · k) hclerks).trans (State.clerk_halted_ne s n _ _ hk),
      (hpage _ (Nat.le_add_right_of_le (by decide))).trans (State.clerkSt_haltShown s n hk _)⟩,
    hfuses.trans hfuses', hmem.trans hmem', hvault.trans hvault', hops.trans hops'⟩

/-- Settles O38: each event of a running clerk is a restart of its watchdog or a halt, and a halt of a clerk other than SEC touches beside its own page
and record at most the clocks. -/
theorem clerkHalts : Obligations.ClerkHalts := by
  unfold Obligations.ClerkHalts
  refine ⟨fun s n hn hup => ⟨fun q hq hmin => ?_, fun q hq hearly => ?_, exec_watchdogExpiry hn,
    fun addr kind haddr hdenied => exec_protectionFault hn hup haddr hdenied, exec_doubleFault hn⟩, fun s n hpos hn hup => ends_doubleFault hpos hn hup⟩
  · rw [exec_fwpKick hn hup hq, if_neg (by omega)]
  · rw [exec_fwpKick hn hup hq, if_pos hearly]

end Sys2Proof.Machine
end

section
/-!
SUPPORT. The service of the clerks: what the dump engine, a restart, a message port, the log port and a trace point answer (R298, R302-R304, R324-R329).
-/
namespace Sys2Proof.Machine

/-! Dumps and restarts (R301, R302). -/

theorem exec_dumpDone {s : State} {n : Nat} {rest : List Nat} (h : s.dumps = n :: rest) :
    exec (.dumpDone n) s = .next ((({ s with dumps := rest } : State).writeDump n).decideRestart n) := by
  show execDumpDone n s = _
  simp only [execDumpDone, h, if_true]

theorem exec_clerkRestartDone {s : State} {n : Nat} (hpos : 0 < n) (hn : n < 6) (hst : s.clerkSt n = ClerkSt.RESTARTING) (hsec : s.secUp) :
    exec (.clerkRestartDone n) s = .next (s.restartClerk n) := by
  show execClerkRestartDone n s = _
  rw [execClerkRestartDone, if_pos ⟨hpos, hn, hst, hsec⟩]

/-! Message ports (R298). -/

/-- The receiver of a port has taken its first messages. -/
def State.portTaken (s : State) (port taken : Nat) : State := { s with ports := tblSet [] s.ports port ((tblGet [] s.ports port).drop taken) }

/-- Clerk `n` has put a message into a port, stamped with its running component, and control may have passed to another component. -/
def State.portSent (s : State) (n port taken : Nat) (msg : List Byte) (runs : Option Nat) : State :=
  let t := s.portTaken port taken
  let t := { t with ports := tblSet [] t.ports port ((tblGet [] s.ports port).drop taken ++ [((s.clerk n).comp, padTo 64 msg)]) }
  match runs with
  | some c => t.setClerk n { t.clerk n with comp := 256 * n + c % 256 }
  | none => t

section Port
variable {s : State} {n port taken : Nat}

theorem exec_portSend (hn : n < 6) (hup : s.clerkUp n) (msg : List Byte) (runs : Option Nat) :
    exec (.portSend n ⟨port, taken, runs⟩ msg) s
      = .next (if 32 ≤ ((tblGet [] s.ports port).drop taken).length then (s.portTaken port taken).lastStatus (0x10 + n) Code.LIMIT
          else (s.portSent n port taken msg runs).lastStatus (0x10 + n) Code.OK) := by
  show execPortSend n ⟨port, taken, runs⟩ msg s = _
  rw [execPortSend, if_neg (by simp [hn, hup])]
  rfl

theorem State.ports_portSent (msg : List Byte) (runs : Option Nat) :
    (s.portSent n port taken msg runs).ports
      = tblSet [] (s.portTaken port taken).ports port ((tblGet [] s.ports port).drop taken ++ [((s.clerk n).comp, padTo 64 msg)]) := by
  cases runs <;> rfl

theorem State.comp_portSent (msg : List Byte) (runs : Option Nat) :
    ((s.portSent n port taken msg runs).clerk n).comp = match runs with | some c => 256 * n + c % 256 | none => (s.clerk n).comp := by
  cases runs with
  | none => rfl
  | some c => exact congrArg Clerk.comp (tblGet_set_same default _ n _)

theorem onlyRegisters_portSent (msg : List Byte) (runs : Option Nat) : OnlyRegisters s (s.portSent n port taken msg runs) := by
  cases runs <;> exact onlyRegisters_refl s

theorem ends_portSend_room (hn : n < 6) (hup : s.clerkUp n) (hroom : ((tblGet [] s.ports port).drop taken).length < 32) (msg : List Byte)
    (runs : Option Nat) : Ends (.portSend n ⟨port, taken, runs⟩ msg) s fun t =>
      tblGet [] t.ports port = (tblGet [] s.ports port).drop taken ++ [((s.clerk n).comp, padTo 64 msg)]
        ∧ (∀ j, j ≠ port → tblGet [] t.ports j = tblGet [] s.ports j)
        ∧ (t.clerk n).comp = (match runs with | some c => 256 * n + c % 256 | none => (s.clerk n).comp)
        ∧ t.rd (Reg.LAST_STATUS.CODE (0x10 + n)) = Code.OK ∧ OnlyRegisters s t := by
  have hexec := exec_portSend (port := port) (taken := taken) hn hup msg runs
  rw [if_neg (by omega)] at hexec
  refine ⟨_, hexec, ?_, fun j hj => ?_, State.comp_portSent msg runs, State.rd_lastStatus _ _ (by decide), onlyRegisters_portSent msg runs⟩
  · rw [State.lastStatus, State.wr_ports, State.ports_portSent, tblGet_set_same]
  · rw [State.lastStatus, State.wr_ports, State.ports_portSent, tblGet_set_ne _ _ _ hj, State.portTaken, tblGet_set_ne _ _ _ hj]

theorem ends_portSend_full (hn : n < 6) (hup : s.clerkUp n) (hfull : 32 ≤ ((tblGet [] s.ports port).drop taken).length) (msg : List Byte)
    (runs : Option Nat) : Ends (.portSend n ⟨port, taken, runs⟩ msg) s fun t =>
      tblGet [] t.ports port = (tblGet [] s.ports port).drop taken ∧ t.clerks = s.clerks
        ∧ t.rd (Reg.LAST_STATUS.CODE (0x10 + n)) = Code.LIMIT ∧ OnlyRegisters s t := by
  have hexec := exec_portSend (port := port) (taken := taken) hn hup msg runs
  rw [if_pos hfull] at hexec
  refine ⟨_, hexec, ?_, rfl, State.rd_lastStatus _ _ (by decide), onlyRegisters_refl s⟩
  rw [State.lastStatus, State.wr_ports, State.portTaken, tblGet_set_same]

end Port

/-! The log port (R324-R326). -/

theorem exec_logAppend {s : State} {n comp level : Nat} (hn : n < 6) (hup : s.clerkUp n) (hlevel : level ≤ s.rd (Reg.FWP_LOG_LEVEL.LEVEL n))
    (hcomp : comp < 256) (hroom : s.logQueue.length < 64) (code a b c : Nat) :
    exec (.logAppend n comp level code a b c) s
      = .next { s with logQueue := s.logQueue ++ [⟨s.now, 256 * n + comp, level, code, a, b, c⟩] } := by
  show execLogAppend n comp level code a b c s = _
  rw [execLogAppend, if_neg (by simp [hn, hup, hlevel]), State.offerLog, if_pos hroom, Nat.mod_eq_of_lt hcomp]

/-- R325: an entry reaches a ring region by writes of the SRAM alone; what they keep, and what the header check keeps, the append keeps. -/
theorem State.ringAppend_keeps {P : State → Prop} {s : State} {r : VaultRegion} (hwrite : ∀ t off bs, P t → P (t.vaultWrite off bs))
    (hready : P (s.readyHeader r)) (entry : Nat → List Byte) : P (s.ringAppend r entry) := by
  have hptr : ∀ t o v, P t → P (t.setPtr r o v) := fun t o v h => hwrite t _ _ h
  have htail : ∀ (full : Bool) v, P (if full then (s.readyHeader r).setPtr r 0x18 v else s.readyHeader r) := by
    intro full v
    cases full with
    | false => exact hready
    | true => exact hptr _ _ _ hready
  unfold State.ringAppend
  exact iteInduction (motive := P) (fun _ => hptr _ _ _ (hptr _ _ _ (hwrite _ _ _ (htail _ _)))) (fun _ => hptr _ _ _ (hwrite _ _ _ (htail _ _)))

theorem State.clean_ringAppend (s : State) (r : VaultRegion) (entry : Nat → List Byte) : (s.ringAppend r entry).vault.clean = false := by
  unfold State.ringAppend
  simp only
  split <;> rfl

/-- An append to a region whose header is good touches the Vault alone. -/
theorem State.ringAppend_frame {s : State} {r : VaultRegion} (h : s.headerOk r) (entry : Nat → List Byte) :
    (s.ringAppend r entry).logQueue = s.logQueue ∧ (s.ringAppend r entry).logLost = s.logLost ∧ (s.ringAppend r entry).regs = s.regs
      ∧ (s.ringAppend r entry).mem = s.mem ∧ (s.ringAppend r entry).fuses = s.fuses ∧ (s.ringAppend r entry).vault.shadow = s.vault.shadow := by
  refine State.ringAppend_keeps (P := fun t => t.logQueue = s.logQueue ∧ t.logLost = s.logLost ∧ t.regs = s.regs ∧ t.mem = s.mem ∧ t.fuses = s.fuses
    ∧ t.vault.shadow = s.vault.shadow) (fun t off bs ht => ht) ?_ entry
  rw [State.readyHeader, if_pos h]
  exact ⟨rfl, rfl, rfl, rfl, rfl, rfl⟩

theorem ends_logPortWrite {s : State} {e : LogEntry} {rest : List LogEntry} (hqueue : s.logQueue = e :: rest) (hlost : s.logLost = 0)
    (hheader : s.headerOk logRegion) : Ends .logPortWrite s fun t =>
      t = ({ s with logQueue := rest } : State).ringAppend logRegion e.bytes ∧ t.logQueue = rest ∧ t.logLost = 0
        ∧ t.vault.clean = false ∧ t.regs = s.regs ∧ t.mem = s.mem ∧ t.fuses = s.fuses ∧ t.vault.shadow = s.vault.shadow := by
  obtain ⟨hrest, hnone, hregs, hmem, hfuses, hshadow⟩ := State.ringAppend_frame (s := { s with logQueue := rest }) (r := logRegion) hheader e.bytes
  have hnone' := hnone.trans hlost
  refine ⟨({ s with logQueue := rest } : State).ringAppend logRegion e.bytes, ?_, rfl, hrest, hnone', State.clean_ringAppend _ _ _, hregs, hmem, hfuses,
    hshadow⟩
  show execLogPortWrite s = _
  simp only [execLogPortWrite, hqueue, hnone', if_true]

/-! Trace points (R328, R329). -/

theorem State.setPoison_trace (s : State) (a : Nat) (b : Bool) : (s.setPoison a b).trace = s.trace := by unfold State.setPoison; split <;> rfl

theorem State.clearCovered_trace (s : State) (a n : Nat) : (s.clearCovered a n).trace = s.trace := by
  unfold State.clearCovered
  induction grains a n generalizing s with
  | nil => rfl
  | cons g l ih =>
    rw [List.foldl_cons, ih]
    split
    · exact State.setPoison_trace s g false
    · rfl

@[simp] theorem State.writeExtent_trace (s : State) (a : Nat) (bs : List Byte) : (s.writeExtent a bs).trace = s.trace :=
  State.clearCovered_trace s a bs.length

/-- A trace point has written its entry, and behind it the count of entries. -/
def State.traceWritten (s : State) (id src a b : Nat) : State :=
  let u := s.writeExtent (s.trace.base + 0x1000 + 16 * (s.trace.written % traceEntries))
    (leBytes 8 s.now ++ leBytes 1 id ++ leBytes 1 src ++ leBytes 2 a ++ leBytes 4 b)
  ({ u with trace := { s.trace with written := s.trace.written + 1 } } : State).writeExtent s.trace.base (leBytes 8 (s.trace.written + 1))

/-- A trace point that the unit did not accept is counted. -/
def State.traceDropped (s : State) : State :=
  ({ s with trace := { s.trace with dropped := s.trace.dropped + 1 } } : State).writeExtent (s.trace.base + 8) (leBytes 8 (s.trace.dropped + 1))

section Trace
variable {s : State} {id : Nat} (hon : s.trace.on) (hid : id < 256) (hmask : bit s.trace.mask id) (hcompute : s.computeOn)
include hon hid hmask hcompute

theorem exec_tracePoint (src a b : Nat) (accepted : Bool) :
    exec (.tracePoint id src a b accepted) s = .next (if accepted then s.traceWritten id src a b else s.traceDropped) := by
  show execTracePoint id src a b accepted s = _
  simp only [execTracePoint]
  rw [if_neg (by simp [hon, hid, hmask, hcompute])]
  rfl

theorem ends_tracePoint_written (src a b : Nat) : Ends (.tracePoint id src a b true) s fun t =>
    t.trace = { s.trace with written := s.trace.written + 1 } :=
  ⟨_, exec_tracePoint hon hid hmask hcompute src a b true, State.writeExtent_trace _ _ _⟩

theorem ends_tracePoint_dropped (src a b : Nat) : Ends (.tracePoint id src a b false) s fun t =>
    t.trace = { s.trace with dropped := s.trace.dropped + 1 } :=
  ⟨_, exec_tracePoint hon hid hmask hcompute src a b false, State.writeExtent_trace _ _ _⟩

end Trace

/-- Settles O39: each clause is what one command of the clerks' service answers in the case that its hypotheses name. -/
theorem clerkService : Obligations.ClerkService := by
  unfold Obligations.ClerkService
  exact fun s => ⟨fun n rest h => exec_dumpDone h, fun n hpos hn hst hsec => exec_clerkRestartDone hpos hn hst hsec,
    fun n port taken msg runs hn hup hroom => ends_portSend_room hn hup hroom msg runs,
    fun n port taken msg runs hn hup hfull => ends_portSend_full hn hup hfull msg runs,
    fun n comp level code a b c hn hup hlevel hcomp hroom => exec_logAppend hn hup hlevel hcomp hroom code a b c,
    fun e rest hqueue hlost hheader => ends_logPortWrite hqueue hlost hheader,
    fun id src a b hon hid hmask hcompute => ends_tracePoint_written hon hid hmask hcompute src a b,
    fun id src a b hon hid hmask hcompute => ends_tracePoint_dropped hon hid hmask hcompute src a b⟩

end Sys2Proof.Machine
end

section
/-!
SUPPORT. Administration requests: what SVC and FAB answer to one that passes their checks (R396, R618).
-/
namespace Sys2Proof.Machine

section Admin
variable {s : State} {a p : Nat} {f : Fetch} {m : Jz}

/-! ACCT_RULES and HBM_ZERO (R396). -/

theorem exec_acctRules (h : s.Asked a p 0x0040 f m) (wr : DmaEnd) : exec (.acctRules a p f wr) s = .next ((s.speak a p f).acctRules a p m wr) := by
  show execAcctRules a p f wr s = _
  rw [execAcctRules, State.request_of_asked h]

/-- A RULES image for an ACT page of group 3, with nothing else of the group staged and both slot and group free, is staged and posted. -/
theorem State.acctRules_posted (hlen : m.payload.length = 400) (hflags : fieldAt m.payload 4 4 < 4) (hreserved : rulesReservedOk (m.payload.drop 16))
    (hacct : fieldAt m.payload 0 4 < 32) (hgroup : s.postGroup (0x40 + fieldAt m.payload 0 4) = 3)
    (hclean : (s.pagesIn 8).all fun q => q = 0x40 + fieldAt m.payload 0 4 || s.rd (Reg.STAGE_DIRTY.CLUSTER q) = 0) (hslot : s.slotBusy 1 = false)
    (hfree : bit (s.rd Reg.GLB_POST_BUSY.GROUPS) 3 = false) (wr : DmaEnd) :
    s.acctRules a p m wr = ((s.stageRules (fieldAt m.payload 0 4) (m.payload.drop 16)).busy a p m.typ wr).clerkPost .svc 1 8
      (bit (fieldAt m.payload 4 4) 0) (fieldAt m.payload 8 8) ⟨a, p, true, false, fieldAt m.payload 0 4, bit (fieldAt m.payload 4 4) 1, []⟩ := by
  have hdirty : ((s.pagesIn 8).any fun q => q ≠ 0x40 + fieldAt m.payload 0 4 && s.rd (Reg.STAGE_DIRTY.CLUSTER q) ≠ 0) = false := by
    rw [List.any_eq_false]
    intro q hq
    have hpage := List.all_eq_true.mp hclean q hq
    simp only [Bool.or_eq_true, decide_eq_true_eq] at hpage
    rcases hpage with hpage | hpage <;> simp [hpage]
  simp only [State.acctRules]
  rw [if_neg (by simp [hlen, hflags, hreserved]), if_neg (by omega), if_neg (fun h => h.1 hgroup), if_neg (ne_true_of_eq_false hdirty),
    if_neg (not_not_intro hgroup), if_neg (ne_true_of_eq_false hslot), if_neg (ne_true_of_eq_false hfree)]

theorem exec_hbmZero (h : s.Asked a p 0x0041 f m) (hidle : s.zeroRun = none) (hcode : (s.speak a p f).hbmZeroCode m.payload = Code.OK) (wr : DmaEnd) :
    exec (.hbmZero a p f wr) s
      = .next { ((s.speak a p f).busy a p m.typ wr) with zeroRun := some (a, p, fieldAt m.payload 0 8, fieldAt m.payload 8 4 * 0x200000) } := by
  show execHbmZero a p f wr s = _
  rw [execHbmZero, if_neg (by simp [hidle]), State.request_of_asked h]
  exact congrArg Host.Outcome.next (if_neg (not_not_intro hcode))

theorem exec_hbmZeroDone {base n : Nat} (h : s.zeroRun = some (a, p, base, n)) {t : State}
    (ht : t = ({ s with zeroRun := none } : State).zeroRange base n) (wr : DmaEnd) :
    exec (.hbmZeroDone wr) s = .next (if 32 ≤ a then t else (t.setPair a p { t.pair a p with wr := wr }).answer a p Code.OK []) := by
  subst ht
  show execHbmZeroDone wr s = _
  simp only [execHbmZeroDone, h]

/-! Fabric and time (R618). -/

theorem exec_fabricStatus (h : s.Asked a p 0x0060 f m) (hfab : s.clerkSt 3 = ClerkSt.RUNNING) (wr : DmaEnd) :
    exec (.fabricStatus a p f wr) s = .next ((s.speak a p f).fabricStatus a p m wr) := by
  show execFabricStatus a p f wr s = _
  rw [execFabricStatus, State.fabRequest_of_asked h hfab]

/-- The status of a port is its FPT_STA and FPT_PEER. -/
theorem State.fabricStatus_answered (s : State) (hempty : m.payload = []) (wr : DmaEnd) :
    s.fabricStatus a p m wr = s.reply a p m.typ Code.OK (leBytes 4 (s.rd Reg.XPT_NODE.NODE) ++ (List.range 18).flatMap fun i =>
      s.regBytes (0x240054 + 0x1000 * i) ++ s.regBytes (0x240058 + 0x1000 * i)) wr := by
  rw [State.fabricStatus, if_neg (by simp [hempty]), State.respond]
  rfl

theorem exec_timeSet (h : s.Asked a p 0x0061 f m) (hfab : s.clerkSt 3 = ClerkSt.RUNNING) (wr : DmaEnd) :
    exec (.timeSet a p f wr) s = .next ((s.speak a p f).timeSet a p m wr) := by
  show execTimeSet a p f wr s = _
  rw [execTimeSet, State.fabRequest_of_asked h hfab]

/-- The ROOT takes its time once, while no timed post is armed. -/
theorem State.timeSet_answered (hlen : m.payload.length = 8) (hroot : s.role = Role.ROOT) (hfirst : s.on Reg.TSY_STA.TIME_SET = false)
    (hposts : s.postArmed = false) (wr : DmaEnd) :
    s.timeSet a p m wr = ((({ s with timeFine := fieldAt m.payload 0 8 * 2 ^ 56 } : State).wrb Reg.TSY_STA.TIME_SET true).setSynced true).reply a p m.typ
      Code.OK [] wr := by
  rw [State.timeSet, if_neg (by omega), if_neg (not_not_intro hroot), if_neg (by simp [hfirst, hposts]), State.respond]

end Admin

/-- Settles O43: each clause is what a request that passes its server's checks answers; that of ACCT_RULES is on the state that SVC serves it in. -/
theorem administration : Obligations.Administration := by
  unfold Obligations.Administration
  refine ⟨fun s a p f m wr => ⟨fun h => exec_acctRules h wr, fun h hidle hcode => ?_, fun t base n hrun ht => ⟨fun ha => ?_, fun ha => ?_⟩,
      fun h hfab hempty => ?_, fun h hfab hlen hroot hfirst hposts => ?_⟩,
    fun s a p m wr hlen hflags hreserved hacct hgroup hclean hslot hfree =>
      State.acctRules_posted hlen hflags hreserved hacct hgroup hclean hslot hfree wr⟩
  · rw [exec_hbmZero h hidle hcode, State.typ_of_asked h]
  · rw [exec_hbmZeroDone hrun ht, if_pos ha]
  · rw [exec_hbmZeroDone hrun ht, if_neg (by omega)]
  · rw [exec_fabricStatus h hfab, State.fabricStatus_answered _ hempty, State.typ_of_asked h]
  · rw [exec_timeSet h hfab, State.timeSet_answered hlen hroot hfirst hposts, State.typ_of_asked h]

end Sys2Proof.Machine
end

section
/-!
SUPPORT. The board management server: bad frames, and what the opcodes that only read answer (R318-R322).
-/
namespace Sys2Proof.Machine

section Frames
variable {s : State} {f : Frame}

/-! Frames that are not served (R321). -/

theorem exec_bmcBadFrame {good : Bool} (hready : s.bmcReady) (hframe : s.bmcRead.bmcFrame = some (f, good)) (hbad : good = false ∨ frameNeeds f = false) :
    exec .bmcBadFrame s = .next ((s.bmcRead.bmcSend (replyFrame false f Code.FORMAT [])).bmcIdle) := by
  show execBmcBadFrame s = _
  simp only [execBmcBadFrame, hframe]
  rw [if_neg (by simp [hready]), if_neg]
  rintro ⟨hgood, hneeds⟩
  rcases hbad with hbad | hbad
  · exact absurd hgood (ne_true_of_eq_false hbad)
  · exact absurd hneeds (ne_true_of_eq_false hbad)

theorem exec_frameTimeout {w : Word} {l : List Word} (hup : s.bmcUp) (hframe : s.bmcRead.bmc.frame = w :: l) (hpart : frameWhole (w :: l) = false) :
    exec .frameTimeout s
      = .next { s.bmcRead with bmc := { s.bmcRead.bmc with frame := [], discarded := s.bmcRead.bmc.discarded + (w :: l).length } } := by
  show execFrameTimeout s = _
  simp only [execFrameTimeout, hframe]
  rw [if_neg (by simp [hup]), if_neg (by simp [hpart])]

/-! Reads (R320). -/

theorem exec_status (h : s.Framed 0x01 f) : exec .status s = .next (s.bmcRead.bmcReply f Code.OK
    [s.bmcRead.regWord 0x4040, s.bmcRead.regWord 0x3040, s.bmcRead.regWord 0x7040,
      BitVec.ofNat 32 ((List.range 6).foldl (fun a n => a + s.bmcRead.clerkSt n * 16 ^ n) 0), s.bmcRead.regWord Reg.GLB_PART.PART_CODE.key,
      s.bmcRead.hottest, BitVec.ofNat 32 s.bmcRead.bmc.discarded]) := by
  show execStatus s = _
  rw [execStatus, State.bmcServe_of_framed h]
  rfl

/-- R320: a log read names 1 to 7 entries that the ring holds. -/
theorem exec_logRead (h : s.Framed 0x02 f) {t : State} (ht : t = s.bmcRead.readyHeader logRegion) (hmin : 1 ≤ f.arg 1) (hmax : f.arg 1 ≤ 7)
    (hheld : f.arg 0 + f.arg 1 ≤ t.ringCount logRegion) {es : List (List Byte)}
    (hes : es = ((List.range (f.arg 1)).map fun i => t.ringEntry logRegion (f.arg 0 + i)).filter entryOk) :
    exec .logRead s = .next (t.bmcReply f Code.OK
      ([BitVec.ofNat 32 (t.ringCount logRegion), BitVec.ofNat 32 (t.ptr logRegion 0x20)] ++ toWords (8 * es.length) es.flatten)) := by
  subst ht hes
  show execLogRead s = _
  rw [execLogRead, State.bmcServe_of_framed h]
  exact congrArg Host.Outcome.next (if_neg (by omega))

/-- R320: a dump read names 1 to 59 words of the body of a dump region. -/
theorem exec_dumpRead (h : s.Framed 0x03 f) (hdump : f.arg 0 < 8) (hmin : 1 ≤ f.arg 2) (hmax : f.arg 2 ≤ 59) (hbody : f.arg 1 + 4 * f.arg 2 ≤ 0x7FFC0)
    (halign : f.arg 1 % 4 = 0) {t : State} (ht : t = s.bmcRead.readyHeader (dumpRegion (f.arg 0))) :
    exec .dumpRead s = .next (t.bmcReply f Code.OK (BitVec.ofNat 32 (t.ptr (dumpRegion (f.arg 0)) 0x10) ::
      toWords (f.arg 2) (bytesAt t.vault.sram ((dumpRegion (f.arg 0)).base + 0x40 + f.arg 1) (4 * f.arg 2)))) := by
  subst ht
  show execDumpRead s = _
  rw [execDumpRead, State.bmcServe_of_framed h, if_neg (by omega), if_neg (not_not_intro halign)]

theorem exec_telemetry (h : s.Framed 0x0B f) : exec .telemetry s = .next (s.bmcRead.bmcReply f Code.OK
    ([s.bmcRead.regWord Reg.THM_STA.TJ.key, s.bmcRead.regWord Reg.PWR_LOOP_STA.LEVEL.key, s.bmcRead.regWord Reg.PWR_POWER.W.key,
      s.bmcRead.regWord Reg.THM_PCAP.W.key, s.bmcRead.regWord Reg.CLK_STA.ROOT_LOCK.key, s.bmcRead.regWord Reg.THM_ICC_EST.A.key]
      ++ (List.range 8).map (fun k => s.bmcRead.regWord (Reg.THM_HBM.TEMP k).key) ++ [s.bmcRead.regWord Reg.THM_CNT.HARD.key])) := by
  show execTelemetry s = _
  rw [execTelemetry, State.bmcServe_of_framed h]

theorem exec_bmcVpdRead (h : s.Framed 0x0C f) (hmin : 1 ≤ f.arg 1) (hmax : f.arg 1 ≤ 59) : exec .bmcVpdRead s = .next (s.bmcRead.bmcReply f Code.OK
    (BitVec.ofNat 32 s.bmcRead.vpd.length :: toWords (wordsFor ((s.bmcRead.vpd.drop (f.arg 0)).take (4 * f.arg 1)).length)
      ((s.bmcRead.vpd.drop (f.arg 0)).take (4 * f.arg 1)))) := by
  show execBmcVpdRead s = _
  rw [execBmcVpdRead, State.bmcServe_of_framed h, if_neg (by omega)]

theorem exec_echo (h : s.Framed 0x0D f) : exec .echo s = .next (s.bmcRead.bmcReply f Code.OK f.payload) := by
  show execEcho s = _
  rw [execEcho, State.bmcServe_of_framed h]

end Frames

/-- Settles O45: a frame that is bad or late is not served, and each reading opcode that nothing excludes ends in its reply frame. -/
theorem boardManagement : Obligations.BoardManagement := by
  unfold Obligations.BoardManagement
  exact ⟨fun s => ⟨fun f good hready hframe hbad => exec_bmcBadFrame hready hframe hbad, fun w l hup hframe hpart => exec_frameTimeout hup hframe hpart⟩,
    fun s f => ⟨exec_status, fun t es h ht hmin hmax hheld hes => exec_logRead h ht hmin hmax hheld hes,
      fun h hdump hmin hmax hbody halign => exec_dumpRead h hdump hmin hmax hbody halign rfl, exec_telemetry, exec_bmcVpdRead, exec_echo⟩⟩

end Sys2Proof.Machine
end

section
/-!
SUPPORT. The flash opcodes: what a read, a write and an erase that pass their checks answer, and how a read divides at 16 MiB (R323).
-/
namespace Sys2Proof.Machine

/-! The two parts of a read. -/

@[simp] theorem State.flashReadPart_zero (s : State) (sel addr : Nat) : s.flashReadPart sel addr 0 = s := if_pos rfl

/-- Below 16 MiB a read goes out with a 3-byte address. -/
theorem State.flashReadPart_low (s : State) (sel : Nat) {addr n : Nat} (hn : 0 < n) (h : addr < 0x1000000) :
    s.flashReadPart sel addr n = s.flashXfer sel 0x03 1 addr true n [] := by
  rw [State.flashReadPart, if_neg (by omega), if_pos h]

/-- From 16 MiB on it goes out with a 4-byte address. -/
theorem State.flashReadPart_high (s : State) (sel : Nat) {addr n : Nat} (hn : 0 < n) (h : 0x1000000 ≤ addr) :
    s.flashReadPart sel addr n = s.flashXfer sel 0x13 2 addr true n [] := by
  rw [State.flashReadPart, if_neg (by omega), if_neg (by omega)]

/-- How many of `n` bytes at an address lie below 16 MiB. -/
def flashLow (addr n : Nat) : Nat := if addr < 0x1000000 then min n (0x1000000 - addr) else 0

/-- The transfers of a read of `n` bytes. -/
def State.flashReads (s : State) (sel addr n : Nat) : State :=
  (s.flashReadPart sel addr (flashLow addr n)).flashReadPart sel (addr + flashLow addr n) (n - flashLow addr n)

theorem State.flashReads_below (s : State) (sel : Nat) {addr n : Nat} (hn : 0 < n) (h : addr + n ≤ 0x1000000) :
    s.flashReads sel addr n = s.flashXfer sel 0x03 1 addr true n [] := by
  have hlow : flashLow addr n = n := by rw [flashLow, if_pos (by omega)]; omega
  rw [State.flashReads, hlow, Nat.sub_self, State.flashReadPart_zero, State.flashReadPart_low s sel hn (by omega)]

theorem State.flashReads_across (s : State) (sel : Nat) {addr n : Nat} (hbelow : addr < 0x1000000) (habove : 0x1000000 < addr + n) :
    s.flashReads sel addr n = (s.flashXfer sel 0x03 1 addr true (0x1000000 - addr) []).flashXfer sel 0x13 2 0x1000000 true (addr + n - 0x1000000) [] := by
  have hlow : flashLow addr n = 0x1000000 - addr := by rw [flashLow, if_pos hbelow]; omega
  have hedge : addr + (0x1000000 - addr) = 0x1000000 := by omega
  have hrest : n - (0x1000000 - addr) = addr + n - 0x1000000 := by omega
  rw [State.flashReads, hlow, hedge, hrest, State.flashReadPart_low s sel (by omega) hbelow, State.flashReadPart_high _ sel (by omega) (Nat.le_refl _)]

theorem State.flashReads_above (s : State) (sel : Nat) {addr n : Nat} (hn : 0 < n) (h : 0x1000000 ≤ addr) :
    s.flashReads sel addr n = s.flashXfer sel 0x13 2 addr true n [] := by
  have hlow : flashLow addr n = 0 := if_neg (by omega)
  rw [State.flashReads, hlow, State.flashReadPart_zero, Nat.add_zero, Nat.sub_zero, State.flashReadPart_high s sel hn h]

/-! The opcodes on the state that knows the select's SFDP. -/

section Opcodes
variable {s t : State} {f : Frame} {l : FlashLines} {c : List Byte} (hport : s.rd (Reg.SPX_PORT_STA.OP 0) = 0)
  (hxfer : s.rd (Reg.SPX_XFER_STA.STATE 0) = 0) (hsel : f.arg 0 < 4) (ht : t = s.bmcRead.flashLearn (f.arg 0) ⟨l, c⟩)
include hport hxfer hsel ht

theorem exec_flashRead (h : s.Framed 0x04 f) (hmin : 1 ≤ f.arg 2) (hmax : f.arg 2 ≤ 60)
    (hcode : t.flashCode (f.arg 0) (f.arg 1) (4 * f.arg 2) (sfdpHas4 (t.sfdpOf (f.arg 0)) 0) = Code.OK) (data : List Word) :
    exec (.flashRead data l c) s
      = .next ((t.flashReads (f.arg 0) (f.arg 1) (4 * f.arg 2)).bmcReply f Code.OK ((List.range (f.arg 2)).map fun i => data.getD i 0)) := by
  subst ht
  show execFlashRead data l c s = _
  rw [execFlashRead, State.bmcFlash_of_framed h hport (.inl hxfer) hsel, if_neg (by omega), if_neg (not_not_intro hcode)]
  rfl

theorem exec_flashWrite (h : s.Framed 0x05 f) (hmin : 1 ≤ f.arg 2) (hmax : f.arg 2 ≤ 59)
    (hcode : t.flashCode (f.arg 0) (f.arg 1) (4 * f.arg 2) (sfdpHas4 (t.sfdpOf (f.arg 0)) 6) = Code.OK) (hpage : f.arg 1 % 256 + 4 * f.arg 2 ≤ 256)
    (polls : List Byte) (last : Byte) :
    exec (.flashWrite (polls ++ [last]) l c) s
      = .next (t.flashChange f (f.arg 0) (if f.arg 1 < 0x1000000 then 0x02 else 0x12) (f.arg 1) (ofWords (f.payload.drop 3)) (polls.length + 1) last) := by
  subst ht
  show execFlashWrite (polls ++ [last]) l c s = _
  rw [execFlashWrite, State.bmcFlash_of_framed h hport (.inl hxfer) hsel, if_neg (by omega), if_neg (not_not_intro hcode), if_neg (by omega),
    List.length_append, List.length_singleton, List.getLastD_concat]

theorem exec_flashErase (h : s.Framed 0x06 f) (hcode : t.flashCode (f.arg 0) (f.arg 1) 0x10000 true = Code.OK) (halign : f.arg 1 % 0x10000 = 0)
    {cmd : Nat} (hcmd : eraseInstr (t.sfdpOf (f.arg 0)) (decide (0x1000000 ≤ f.arg 1)) = some cmd) (polls : Nat) (last : Byte) :
    exec (.flashErase polls last l c) s = .next (t.flashChange f (f.arg 0) cmd (f.arg 1) [] polls last) := by
  subst ht
  show execFlashErase polls last l c s = _
  rw [execFlashErase, State.bmcFlash_of_framed h hport (.inl hxfer) hsel, if_neg (not_not_intro hcode)]
  simp only [hcmd]
  rw [if_neg (not_not_intro halign)]

end Opcodes

/-- Settles O46: a read is one transfer on each side of 16 MiB that it touches; a write and an erase run their command and its polls. -/
theorem flashOpcodes : Obligations.FlashOpcodes := by
  unfold Obligations.FlashOpcodes
  refine fun s t f l c hport hxfer hsel ht => ⟨fun data h hmin hmax hcode => ?_,
    fun polls last h hmin hmax hcode hpage => exec_flashWrite hport hxfer hsel ht h hmin hmax hcode hpage polls last,
    fun polls last cmd h hcode halign hcmd => exec_flashErase hport hxfer hsel ht h hcode halign hcmd polls last⟩
  rw [exec_flashRead hport hxfer hsel ht h hmin hmax hcode data]
  refine ⟨fun hend => ?_, fun hbelow habove => ?_, fun hbelow => ?_⟩
  · rw [State.flashReads_below t _ (by omega) hend]
  · rw [State.flashReads_across t _ hbelow habove]
  · rw [State.flashReads_above t _ (by omega) hbelow]

end Sys2Proof.Machine
end

section
/-!
SUPPORT. Power and thermal control: what the clamps' conditions and releases, a reading, a control cycle and a write of a bandwidth cap answer
(R344, R347-R352, R356-R360).
-/
namespace Sys2Proof.Machine

/-! A clamp that is set (R51). -/

theorem State.on_setClamp_set (s : State) (f : Fld) (hg : f.lo + f.width ≤ 64) (hw : 0 < f.width) (hraw : f.key ≠ 0x1010) :
    (s.setClamp f true).on f = true := by
  unfold State.setClamp
  split
  next hset => exact hset
  next => rw [State.on, State.rd_retarget, if_pos rfl, ← State.on, State.on_raise _ _ _ _ hraw, State.on_wrb _ _ _ hg hw]

@[simp] theorem State.retarget_iccHigh (s : State) : s.retarget.iccHigh = s.iccHigh := by unfold State.retarget; split <;> rfl

@[simp] theorem State.retarget_alertLow (s : State) : s.retarget.alertLow = s.alertLow := by unfold State.retarget; split <;> rfl

@[simp] theorem State.setClamp_iccHigh (s : State) (f : Fld) (b : Bool) : (s.setClamp f b).iccHigh = s.iccHigh := by
  unfold State.setClamp
  split
  · rfl
  · cases b <;> simp

@[simp] theorem State.setClamp_alertLow (s : State) (f : Fld) (b : Bool) : (s.setClamp f b).alertLow = s.alertLow := by
  unfold State.setClamp
  split
  · rfl
  · cases b <;> simp

/-! The current clamp (R350, R352). -/

/-- The current clamp rises (R352): it is counted, it raises its event, and the next control cycle sees it. -/
def State.clampCurrent (s : State) : State :=
  let t := { s with currentSince := none }
  ((({ t with loop := { t.loop with clamped := true } } : State).setClamp Reg.CLK_STA.CLAMP_CURRENT true).count Reg.THM_CNT.CURRENT 1).raise 8 1

@[simp] theorem State.clampCurrent_iccHigh (s : State) : s.clampCurrent.iccHigh = s.iccHigh := by
  rw [State.clampCurrent, State.raise_iccHigh, State.count, State.wr_iccHigh, State.setClamp_iccHigh]

@[simp] theorem State.clampCurrent_alertLow (s : State) : s.clampCurrent.alertLow = s.alertLow := by
  rw [State.clampCurrent, State.raise_alertLow, State.count, State.wr_alertLow, State.setClamp_alertLow]

theorem State.on_clampCurrent (s : State) : s.clampCurrent.on Reg.CLK_STA.CLAMP_CURRENT = true := by
  rw [State.clampCurrent, State.on_raise _ _ _ _ (by decide), State.on_count_apart _ _ _ _ (by decide) (by decide),
    State.on_setClamp_set _ _ (by decide) (by decide) (by decide)]

/-- A field of no register that the current clamp writes when it rises. -/
def Fld.outsideCurrentClamp (f : Fld) : Bool :=
  decide (f.key ≠ 0x1010) && decide (f.key ≠ 0x1040) && decide (f.key ≠ 0x8010) && decide (f.key ≠ 0x8060)

theorem Fld.outsideCurrentClamp_iff (f : Fld) :
    f.outsideCurrentClamp = true ↔ f.key ≠ 0x1010 ∧ f.key ≠ 0x1040 ∧ f.key ≠ 0x8010 ∧ f.key ≠ 0x8060 := by
  simp [Fld.outsideCurrentClamp, and_assoc]

theorem State.rd_clampCurrent (s : State) (f : Fld) (h : f.outsideCurrentClamp = true) : s.clampCurrent.rd f = s.rd f := by
  obtain ⟨hclkRaw, hclk, hthmRaw, hcnt⟩ := f.outsideCurrentClamp_iff.mp h
  rw [State.clampCurrent, State.rd_raise _ _ _ _ hthmRaw, State.count, State.rd_wr_key _ _ _ _ hcnt, State.rd_setClamp _ _ _ _ hclk hclkRaw]
  rfl

/-- Bringing the clamp up to date moves the time of its release, or sets the clamp where a condition holds and it is not set yet. -/
theorem State.refreshCurrent_cases (s : State) :
    s.currentHigh = true ∧ s.refreshCurrent = s.clampCurrent ∨
      ∃ c, s.refreshCurrent = { s with currentSince := c } ∧ (s.currentHigh = true → s.on Reg.CLK_STA.CLAMP_CURRENT = true) := by
  unfold State.refreshCurrent State.clampCurrent
  simp only
  split
  next hhigh =>
    split
    next hset => exact .inr ⟨none, rfl, fun _ => hset⟩
    next => exact .inl ⟨hhigh, rfl⟩
  next hlow =>
    refine .inr ?_
    split
    · exact ⟨s.currentSince, rfl, fun h => absurd h hlow⟩
    · exact ⟨some s.uptime, rfl, fun h => absurd h hlow⟩

theorem State.refreshCurrent_keeps {P : State → Prop} {s : State} (hclamp : P s.clampCurrent) (hsince : ∀ c, P { s with currentSince := c }) :
    P s.refreshCurrent := by
  obtain ⟨-, h⟩ | ⟨c, h, -⟩ := s.refreshCurrent_cases
  · rwa [h]
  · rw [h]
    exact hsince c

theorem State.refreshCurrent_iccHigh (s : State) : s.refreshCurrent.iccHigh = s.iccHigh :=
  State.refreshCurrent_keeps (P := fun t => t.iccHigh = s.iccHigh) (State.clampCurrent_iccHigh s) fun _ => rfl

theorem State.refreshCurrent_alertLow (s : State) : s.refreshCurrent.alertLow = s.alertLow :=
  State.refreshCurrent_keeps (P := fun t => t.alertLow = s.alertLow) (State.clampCurrent_alertLow s) fun _ => rfl

theorem State.rd_refreshCurrent (s : State) (f : Fld) (h : f.outsideCurrentClamp = true) : s.refreshCurrent.rd f = s.rd f :=
  State.refreshCurrent_keeps (P := fun t => t.rd f = s.rd f) (State.rd_clampCurrent s f h) fun _ => rfl

/-- R350: the clamp is set while one of its conditions holds. -/
theorem State.on_refreshCurrent {s : State} (h : s.currentHigh) : s.refreshCurrent.on Reg.CLK_STA.CLAMP_CURRENT = true := by
  obtain ⟨-, heq⟩ | ⟨c, heq, hset⟩ := s.refreshCurrent_cases
  · rw [heq, State.on_clampCurrent]
  · rw [heq]
    exact hset h

section Sampled
variable {s : State}

/-! Sensors and stacks (R344, R347). -/

theorem exec_thmSample (hup : s.stage ≠ Stage.RESET) (temps : List Int) : exec (.thmSample temps) s = .next (s.thmSample temps) := by
  show execThmSample temps s = _
  rw [execThmSample, if_neg hup]

theorem exec_hbmTempReadout {k : Nat} (hup : s.stage ≠ Stage.RESET) (hk : k < 8) (hpresent : s.stackPresent k) (reading : Option Int) :
    exec (.hbmTempReadout k reading) s = .next (s.hbmReadout k reading) := by
  show execHbmTempReadout k reading s = _
  rw [execHbmTempReadout, if_pos ⟨hk, hpresent, hup⟩]

/-! The releases of the clamps (R350). -/

/-- A time that was set is long enough ago. -/
theorem waited_of_some {since : Option Nat} {c n now : Nat} (hsince : since = some c) (hwait : c + n ≤ now) :
    (since.any fun t => decide (t + n ≤ now)) = true := by
  rw [hsince, Option.any_some, decide_eq_true hwait]

theorem exec_thermalClampRelease {c : Nat} (hcool : s.coolSince = some c) (hwait : c + 1000000 ≤ s.uptime) :
    exec .thermalClampRelease s = .next (s.setClamp Reg.CLK_STA.CLAMP_THERMAL false) := by
  show execThermalClampRelease s = _
  rw [execThermalClampRelease, if_pos (waited_of_some hcool hwait)]

theorem exec_currentClampRelease {c : Nat} (hlow : s.currentHigh = false) (hsince : s.currentSince = some c) (hwait : c + 100000 ≤ s.uptime) :
    exec .currentClampRelease s = .next (s.setClamp Reg.CLK_STA.CLAMP_CURRENT false) := by
  show execCurrentClampRelease s = _
  rw [execCurrentClampRelease, if_pos ⟨by rw [hlow]; rfl, waited_of_some hsince hwait⟩]

/-- A released clamp changes nothing beside the registers. -/
theorem released_setClamp (s : State) (f : Fld) (hg : f.lo + f.width ≤ 64) (hw : 0 < f.width) :
    (s.setClamp f false).on f = false ∧ OnlyRegisters s (s.setClamp f false) :=
  ⟨State.on_setClamp_released s f hg hw, (onlyRegisters_setClamp s s f false).mpr (onlyRegisters_refl s)⟩

/-! Current (R349-R351). -/

/-- THM_ICC_EST shows an estimate. -/
def State.showIcc (s : State) (a b : Nat) : State := (s.wr Reg.THM_ICC_EST.A a).wr Reg.THM_ICC_EST.B b

theorem State.rd_showIcc (s : State) {a b : Nat} (ha : a < 2 ^ 16) (hb : b < 2 ^ 16) :
    (s.showIcc a b).rd Reg.THM_ICC_EST.A = a ∧ (s.showIcc a b).rd Reg.THM_ICC_EST.B = b := by
  refine ⟨?_, (State.rd_wr _ _ _ (by decide)).trans (Nat.mod_eq_of_lt hb)⟩
  rw [State.showIcc, State.rd_wr_apart _ _ _ _ (by decide) (by decide), State.rd_wr _ _ _ (by decide)]
  exact Nat.mod_eq_of_lt ha

theorem State.rd_setIccHigh (s : State) (runs : Nat × Nat) (f : Fld) : ({ s with iccHigh := runs } : State).rd f = s.rd f := rfl

/-- An estimate below both limits ends the run of high estimates. -/
theorem exec_iccEstimate_below {a b : Nat} (hup : s.stage ≠ Stage.RESET) (ha : a < s.rd Reg.THM_ICC_MAX.A) (hb : b < s.rd Reg.THM_ICC_MAX.B) :
    exec (.iccEstimate a b) s = .next ({ s.showIcc a b with iccHigh := (0, 0) } : State).refreshCurrent := by
  show execIccEstimate a b s = _
  simp only [execIccEstimate, if_neg hup, decide_eq_false (Nat.not_le.mpr ha), decide_eq_false (Nat.not_le.mpr hb), Bool.false_eq_true, if_false, State.showIcc]

theorem ends_iccEstimate_below {a b : Nat} (hup : s.stage ≠ Stage.RESET) (hwa : a < 2 ^ 16) (hwb : b < 2 ^ 16) (ha : a < s.rd Reg.THM_ICC_MAX.A)
    (hb : b < s.rd Reg.THM_ICC_MAX.B) :
    Ends (.iccEstimate a b) s fun t => t.rd Reg.THM_ICC_EST.A = a ∧ t.rd Reg.THM_ICC_EST.B = b ∧ t.iccHigh = (0, 0) := by
  obtain ⟨hshowA, hshowB⟩ := State.rd_showIcc s hwa hwb
  refine ⟨_, exec_iccEstimate_below hup ha hb, ?_, ?_, State.refreshCurrent_iccHigh _⟩
  · rw [State.rd_refreshCurrent _ _ (by decide), State.rd_setIccHigh, hshowA]
  · rw [State.rd_refreshCurrent _ _ (by decide), State.rd_setIccHigh, hshowB]

theorem exec_alertN (hup : s.stage ≠ Stage.RESET) (low : Bool) : exec (.alertN low) s = .next ({ s with alertLow := low } : State).refreshCurrent := by
  show execAlertN low s = _
  rw [execAlertN, if_neg hup]

theorem State.currentHigh_of_alertLow (h : s.alertLow = true) : s.currentHigh := by simp [State.currentHigh, h]

end Sampled

section Loop
variable {s : State}

/-! PWR's control cycle, and the pass of its ROM loop (R356, R360). -/

theorem exec_pwrCycle_running (h : s.clerkSt 2 = ClerkSt.RUNNING) (late stale : Bool) :
    exec (.pwrCycle late stale) s = .next (s.pwrCycle late stale) := by
  show execPwrCycle late stale s = _
  rw [execPwrCycle, if_pos h]

theorem exec_pwrCycle_rom (h : s.clerkSt 2 = ClerkSt.ROM) (late stale : Bool) : exec (.pwrCycle late stale) s = .next s.romCycle := by
  show execPwrCycle late stale s = _
  rw [execPwrCycle, if_neg (by rw [h]; decide), if_pos h]

/-! The bandwidth caps (R358, R364). -/

theorem State.rd_setCap (s : State) (k : Nat) {cap : Nat} (h : cap < 32) :
    (s.setCap k cap).rd (Reg.THM_HBM_CAP.SIXTEENTHS k) = cap := by
  have hwritten : (s.wr (Reg.THM_HBM_CAP.SIXTEENTHS k) cap).rd (Reg.THM_HBM_CAP.SIXTEENTHS k) = cap :=
    (State.rd_wr _ _ _ (by simp [Reg.THM_HBM_CAP.SIXTEENTHS])).trans (Nat.mod_eq_of_lt h)
  unfold State.setCap
  simp only
  split
  · rw [State.rd_raise _ _ _ _ (by simp only [Reg.THM_HBM_CAP.SIXTEENTHS]; omega), hwritten]
  · exact hwritten

theorem onlyRegisters_setCap (s : State) (k cap : Nat) : OnlyRegisters s (s.setCap k cap) := by
  unfold State.setCap
  simp only
  split <;> simp

theorem exec_hbmCapWrite_pwr {k cap : Nat} (hk : k < 8) (hlive : s.reqLive .pwr) (hmin : 4 ≤ cap) (hmax : cap ≤ 16) :
    exec (.hbmCapWrite .pwr k cap) s = .next (s.setCap k cap) := by
  have hdirect : Req.pwr.direct = true := rfl
  show execHbmCapWrite .pwr k cap s = _
  rw [execHbmCapWrite, if_neg (by simp [hk, hlive, hdirect]), if_neg (not_not_intro rfl), if_neg (by omega)]

/-- R364: a write of any other requester is ignored and sets OWNER_REFUSED. -/
theorem exec_hbmCapWrite_other {q : Req} {k : Nat} (hk : k < 8) (hdirect : s.direct q) (hq : q ≠ .pwr) (cap : Nat) :
    exec (.hbmCapWrite q k cap) s = .next (s.raise 8 6) := by
  obtain ⟨hdir, hlive⟩ := Bool.and_eq_true_iff.mp hdirect
  show execHbmCapWrite q k cap s = _
  rw [execHbmCapWrite, if_neg (by simp [hk, hlive, hdir]), if_pos hq]

end Loop

/-- Settles O40: a release drops its clamp alone, an estimate below its limits ends the run of high ones, ALERT_N low sets the current clamp, and a cap
takes what PWR writes. -/
theorem thermalAndPower : Obligations.ThermalAndPower := by
  unfold Obligations.ThermalAndPower
  refine ⟨fun s hup => ⟨exec_thmSample hup, fun k t hk hpresent => exec_hbmTempReadout hup hk hpresent (some t), fun c hcool hwait => ?_,
      fun c hlow hsince hwait => ?_, fun a b hwa hwb ha hb => ends_iccEstimate_below hup hwa hwb ha hb, ?_, ?_⟩,
    fun s => ⟨fun late stale h => exec_pwrCycle_running h late stale, fun late stale h => exec_pwrCycle_rom h late stale,
      fun k cap hk hlive hmin hmax => ?_, fun q k cap hk hdirect hq => ?_⟩⟩
  · exact ⟨_, exec_thermalClampRelease hcool hwait, released_setClamp s _ (by decide) (by decide)⟩
  · exact ⟨_, exec_currentClampRelease hlow hsince hwait, released_setClamp s _ (by decide) (by decide)⟩
  · exact ⟨_, exec_alertN hup true, State.refreshCurrent_alertLow _, State.on_refreshCurrent (State.currentHigh_of_alertLow rfl)⟩
  · exact ⟨_, exec_alertN hup false, State.refreshCurrent_alertLow _⟩
  · exact ⟨_, exec_hbmCapWrite_pwr hk hlive hmin hmax, State.rd_setCap s k (by omega), onlyRegisters_setCap s k cap⟩
  · refine ⟨_, exec_hbmCapWrite_other hk hdirect hq cap, State.rd_raise _ _ _ _ ?_, (onlyRegisters_raise s s 8 6).mpr (onlyRegisters_refl s)⟩
    simp only [Reg.THM_HBM_CAP.SIXTEENTHS]
    omega

end Sys2Proof.Machine
end

section
/-!
SUPPORT. Writes through BAR 2 (R376): line by line, each changes the bytes of device memory that the request addresses and nothing else of the memories.
-/
namespace Sys2Proof.Machine

/-! Enabled bytes. -/

/-- A byte where no byte is enabled reads as before. -/
theorem byteAt_storeMasked_disabled (bs : List Byte) : ∀ (es : List Bool) (m : Tbl Byte) (a x : Nat),
    (∀ i, x = a + i → es.getD i false = false) → byteAt (storeMasked m a bs es) x = byteAt m x := by
  induction bs with
  | nil => intro es m a x _; cases es <;> rfl
  | cons b bs ih =>
    intro es m a x hx
    cases es with
    | nil => rfl
    | cons e es =>
      have hrest : ∀ i, x = a + 1 + i → es.getD i false = false := fun i hi => hx (i + 1) (by omega)
      rw [storeMasked, ih es _ _ _ hrest]
      cases e with
      | false => rfl
      | true =>
        have hne : x ≠ a := fun h => Bool.noConfusion (hx 0 h)
        exact tblGet_set_ne 0 m b hne

theorem length_padTo (n : Nat) (l : List Byte) : (padTo n l).length = n := by
  simp only [padTo, zeros, List.length_append, List.length_take, List.length_replicate]
  omega

/-! What stays. -/

/-- Every byte of device memory outside `lo` to `hi` is as before, and so are the fuses, the Vault, the tallies and the ops. -/
def MemKeptOutside (lo hi : Nat) (s t : State) : Prop :=
  (∀ x, x < lo ∨ hi ≤ x → byteAt t.mem x = byteAt s.mem x) ∧ t.fuses = s.fuses ∧ t.vault = s.vault ∧ t.tallies = s.tallies ∧ t.ops = s.ops

theorem memKeptOutside_of_onlyRegisters {s t : State} (h : OnlyRegisters s t) (lo hi : Nat) : MemKeptOutside lo hi s t := by
  obtain ⟨hfuses, hmem, -, -, hvault, hops, htallies, -⟩ := h
  exact ⟨fun x _ => congrArg (byteAt · x) hmem, hfuses, hvault, htallies, hops⟩

theorem memKeptOutside_refl (lo hi : Nat) (s : State) : MemKeptOutside lo hi s s := memKeptOutside_of_onlyRegisters (onlyRegisters_refl s) lo hi

theorem MemKeptOutside.trans {lo hi : Nat} {s t u : State} (hst : MemKeptOutside lo hi s t) (htu : MemKeptOutside lo hi t u) :
    MemKeptOutside lo hi s u := by
  obtain ⟨hmem, hfuses, hvault, htallies, hops⟩ := hst
  obtain ⟨hmem', hfuses', hvault', htallies', hops'⟩ := htu
  exact ⟨fun x hx => (hmem' x hx).trans (hmem x hx), hfuses'.trans hfuses, hvault'.trans hvault, htallies'.trans htallies, hops'.trans hops⟩

/-- A fold keeps what each of its steps keeps. -/
theorem memKeptOutside_foldl {lo hi : Nat} {f : State → Nat → State} (ls : List Nat) (h : ∀ t, ∀ l ∈ ls, MemKeptOutside lo hi t (f t l)) :
    ∀ s, MemKeptOutside lo hi s (ls.foldl f s) := by
  induction ls with
  | nil => exact memKeptOutside_refl lo hi
  | cons l ls ih => exact fun s => (h s l List.mem_cons_self).trans (ih (fun t x hx => h t x (List.mem_cons_of_mem l hx)) _)

theorem onlyRegisters_emit (s t : State) (o : Out) : OnlyRegisters s (t.emit o) ↔ OnlyRegisters s t := Iff.rfl

theorem onlyRegisters_holdHbm (s : State) (c : Instr) : OnlyRegisters s (s.holdHbm c) := onlyRegisters_refl s

theorem onlyRegisters_pciePoison (s t : State) (source acct : Nat) : OnlyRegisters s (t.pciePoison source acct) ↔ OnlyRegisters s t := by
  unfold State.pciePoison
  split <;> exact Iff.rfl

theorem onlyRegisters_logErr (s t : State) (pg a kind source acct : Nat) : OnlyRegisters s (t.logErr pg a kind source acct) ↔ OnlyRegisters s t := by
  unfold State.logErr
  simp only
  split
  · exact Iff.rfl
  · split
    · exact (onlyRegisters_raise _ _ _ _).trans Iff.rfl
    · exact Iff.rfl

/-- A line without a symbol in error decodes, or it is poisoned; only counters and the error log change. -/
theorem onlyRegisters_decodeLine (s : State) (stack a source acct kindBad kindPoison : Nat) :
    OnlyRegisters s (s.decodeLine stack a source acct 0 kindBad kindPoison).1 := by
  unfold State.decodeLine
  simp only
  split
  · exact (onlyRegisters_logErr _ _ _ _ _ _ _).mpr ((onlyRegisters_count _ _ _ _).mpr (onlyRegisters_refl s))
  · exact onlyRegisters_refl s

/-! Lines. -/

theorem memKeptOutside_store (s : State) (a : Nat) (bs : List Byte) : MemKeptOutside a (a + bs.length) s (s.store a bs) :=
  ⟨byteAt_store_outside bs s.mem a, rfl, rfl, rfl, rfl⟩

theorem memKeptOutside_setPoison (lo hi : Nat) (s : State) (a : Nat) (b : Bool) : MemKeptOutside lo hi s (s.setPoison a b) := by
  unfold State.setPoison
  split <;> exact memKeptOutside_refl lo hi s

/-- R496: a whole write changes its line. -/
theorem memKeptOutside_hbmFullWrite (s : State) (a : Nat) (bs : List Byte) :
    MemKeptOutside (a / 64 * 64) (a / 64 * 64 + 64) s (s.hbmFullWrite a bs) := by
  unfold State.hbmFullWrite
  split
  · exact memKeptOutside_refl _ _ s
  · simp only
    split
    · exact memKeptOutside_of_onlyRegisters ((onlyRegisters_emit s s _).mpr (onlyRegisters_refl s)) _ _
    · have hstore := memKeptOutside_store s (a / 64 * 64) (padTo 64 bs)
      rw [length_padTo] at hstore
      exact hstore.trans (memKeptOutside_setPoison _ _ _ _ _)

/-- R497, R498: a partial write changes enabled bytes alone. -/
theorem memKeptOutside_hbmPartialWrite (s : State) (a source acct : Nat) (bs : List Byte) {es : List Bool} {lo hi : Nat}
    (hes : ∀ i, es.getD i false = true → lo ≤ a / 64 * 64 + i ∧ a / 64 * 64 + i < hi) :
    MemKeptOutside lo hi s (s.hbmPartialWrite a source acct 0 bs es) := by
  unfold State.hbmPartialWrite
  split
  · exact memKeptOutside_refl _ _ s
  · rename_i k _
    have hdecoded := onlyRegisters_decodeLine s k (a / 64 * 64) source acct Err.RMW_POISONED Err.RMW_POISONED
    simp only
    split
    · exact memKeptOutside_of_onlyRegisters ((onlyRegisters_emit s s _).mpr (onlyRegisters_refl s)) _ _
    · split
      · refine (memKeptOutside_of_onlyRegisters hdecoded lo hi).trans ⟨fun x hx => byteAt_storeMasked_disabled _ _ _ _ _ fun i hi => ?_, rfl, rfl, rfl, rfl⟩
        exact Bool.eq_false_iff.mpr fun hon => by have := hes i hon; omega
      · exact memKeptOutside_of_onlyRegisters ((onlyRegisters_emit s _ _).mpr ((onlyRegisters_pciePoison s _ _ _).mpr hdecoded)) lo hi

/-! Where the lines of a request lie. -/

theorem lt_of_placeOf_hbm {a h o : Nat} (hplace : placeOf a = .hbm h o) : a < 0x006000000000 := by
  unfold placeOf at hplace
  split at hplace
  · omega
  · split at hplace
    · assumption
    · split at hplace
      · cases hplace
      · split at hplace <;> cases hplace

/-- An address of a stack lies in HBM. -/
theorem State.lt_of_stackAt {s : State} {a k : Nat} (h : s.stackAt a = some k) : a < 0x006000000000 := by
  unfold State.stackAt at h
  split at h
  · exact lt_of_placeOf_hbm ‹_›
  · cases h

theorem grain_cases (a : Nat) : grain a = 64 ∨ grain a = 8 ∧ 0x1000000000000 ≤ a := by
  unfold grain placeOf
  split
  · rename_i hbank
    refine .inr ⟨rfl, Nat.le_of_not_lt fun hlow => ?_⟩
    rw [if_neg (c := 0x1000000000000 ≤ a ∧ _) (by omega), if_neg (c := 0x1000008000000 ≤ a ∧ _) (by omega)] at hbank
    split at hbank
    · cases hbank
    · split at hbank <;> cases hbank
  · exact .inl rfl

/-- The lines of an extent are aligned; only a bank's words are not lines. -/
theorem line_of_mem_grains {a n l : Nat} (h : l ∈ grains a n) (hl : l < 0x006000000000) : l / 64 * 64 = l := by
  unfold grains at h
  split at h
  · cases h
  · obtain ⟨i, -, rfl⟩ := List.mem_map.mp h
    rcases grain_cases a with hg | ⟨hg, ha⟩
    · rw [hg]; omega
    · rw [hg] at hl; omega

/-! One line of a request. -/

/-- A request enables byte `i` of a line. -/
def bar2Enables (addr n : Nat) (be : List Bool) (l i : Nat) : Bool :=
  decide (addr ≤ l + i) && decide (l + i < addr + n) && be.getD (l + i - addr) true

theorem bar2Enables_inside {addr n : Nat} {be : List Bool} {l i : Nat} (h : bar2Enables addr n be l i = true) : addr ≤ l + i ∧ l + i < addr + n := by
  unfold bar2Enables at h
  simp only [Bool.and_eq_true, decide_eq_true_eq] at h
  exact h.1

/-- The write of one line of a request. -/
def State.bar2WriteLine (a addr : Nat) (bytes : List Byte) (be : List Bool) (t : State) (l : Nat) : State :=
  let bs := (List.range 64).map fun i => if bar2Enables addr bytes.length be l i then bytes.getD (l + i - addr) 0 else 0
  let es := (List.range 64).map (bar2Enables addr bytes.length be l)
  if t.stackBusy l then t.holdHbm (if es.all id then .hbmFullWrite l bs else .hbmPartialWrite l 2 a 0 bs es)
  else if es.all id then t.hbmFullWrite l bs
  else t.hbmPartialWrite l 2 a 0 bs es

theorem State.bar2Write_eq_foldl (s : State) (a addr : Nat) (bytes : List Byte) (be : List Bool) :
    s.bar2Write a addr bytes be = (grains addr bytes.length).foldl (State.bar2WriteLine a addr bytes be) s := rfl

theorem State.hbmFullWrite_of_none {s : State} {a : Nat} (h : s.stackAt a = none) (bs : List Byte) : s.hbmFullWrite a bs = s := by
  rw [State.hbmFullWrite, h]

theorem State.hbmPartialWrite_of_none {s : State} {a : Nat} (h : s.stackAt a = none) (source acct symErr : Nat) (bs : List Byte) (es : List Bool) :
    s.hbmPartialWrite a source acct symErr bs es = s := by
  rw [State.hbmPartialWrite, h]

theorem State.bar2WriteLine_of_none {t : State} {l : Nat} (h : t.stackAt l = none) (a addr : Nat) (bytes : List Byte) (be : List Bool) :
    t.bar2WriteLine a addr bytes be l = t := by
  have hbusy : t.stackBusy l = false := by rw [State.stackBusy, h]
  simp only [State.bar2WriteLine, hbusy, State.hbmFullWrite_of_none h, State.hbmPartialWrite_of_none h, ite_self, Bool.false_eq_true, if_false]

/-- The write of an aligned line changes bytes that the request addresses. -/
theorem memKeptOutside_bar2WriteLine {t : State} {l : Nat} (hline : l / 64 * 64 = l) (a addr : Nat) (bytes : List Byte) (be : List Bool) :
    MemKeptOutside addr (addr + bytes.length) t (t.bar2WriteLine a addr bytes be l) := by
  unfold State.bar2WriteLine
  simp only
  split
  · exact memKeptOutside_of_onlyRegisters (onlyRegisters_holdHbm t _) _ _
  · split
    · rename_i hall
      have henabled : ∀ i, i < 64 → bar2Enables addr bytes.length be l i = true := fun i hi =>
        List.all_eq_true.mp hall _ (List.mem_map_of_mem (List.mem_range.mpr hi))
      have hfirst := bar2Enables_inside (henabled 0 (by decide))
      have hlast := bar2Enables_inside (henabled 63 (by decide))
      obtain ⟨hmem, hrest⟩ := memKeptOutside_hbmFullWrite t l
        ((List.range 64).map fun i => if bar2Enables addr bytes.length be l i then bytes.getD (l + i - addr) 0 else 0)
      exact ⟨fun x hx => hmem x (by omega), hrest⟩
    · refine memKeptOutside_hbmPartialWrite t l 2 a _ fun i hi => ?_
      rw [hline]
      by_cases hlen : i < 64
      · rw [List.getD_eq_getElem?_getD, List.getElem?_map, List.getElem?_range hlen] at hi
        exact bar2Enables_inside hi
      · rw [List.getD_eq_getElem?_getD, List.getElem?_eq_none (by simpa using hlen)] at hi
        cases hi

/-- A write that passes changes bytes that it addresses. -/
theorem memKeptOutside_bar2Write (s : State) (a addr : Nat) (bytes : List Byte) (be : List Bool) :
    MemKeptOutside addr (addr + bytes.length) s (s.bar2Write a addr bytes be) := by
  rw [State.bar2Write_eq_foldl]
  refine memKeptOutside_foldl _ (fun t l hl => ?_) s
  cases hstack : t.stackAt l with
  | none => rw [State.bar2WriteLine_of_none hstack]; exact memKeptOutside_refl _ _ t
  | some k => exact memKeptOutside_bar2WriteLine (line_of_mem_grains hl (State.lt_of_stackAt hstack)) a addr bytes be

/-! Requests. -/

theorem onlyRegisters_bar2Refused (s : State) (a off code : Nat) : OnlyRegisters s (s.bar2Refused a off code) := by simp [State.bar2Refused]

theorem onlyRegisters_unsupported (s : State) (fn off : Nat) : OnlyRegisters s (s.unsupported fn off) := by
  unfold State.unsupported
  split <;> exact onlyRegisters_refl s

/-- A write through BAR 2 changes no memory, or it passes the check and is carried out. -/
theorem exec_bar2Write_cases {s t : State} {a off : Nat} {bytes : List Byte} {be : List Bool} (h : exec (.bar2Write a off bytes be) s = .next t) :
    OnlyRegisters s t ∨ s.bar2Code a off bytes.length true = Code.OK ∧ t = s.bar2Write a (s.aperture a off) bytes be := by
  obtain rfl := Host.Outcome.next.inj (show execBar2Write a off bytes be s = .next t from h)
  split
  · exact .inl (onlyRegisters_unsupported s a off)
  · split
    · exact .inl (onlyRegisters_refl s)
    · split
      · exact .inl (onlyRegisters_bar2Refused s a off _)
      · split
        · exact .inl (onlyRegisters_refl s)
        · rename_i hcode _
          exact .inr ⟨Decidable.not_not.mp hcode, rfl⟩

/-- Settles O15: a request that is not carried out changes only what registers show, and each line of one that is takes enabled bytes alone. -/
theorem bar2Isolation : Obligations.Bar2Isolation := by
  unfold Obligations.Bar2Isolation
  intro s t a off bytes be hexec
  rcases exec_bar2Write_cases hexec with honly | ⟨hcode, rfl⟩
  · obtain ⟨hkept, hfuses, hvault, htallies, hops⟩ := memKeptOutside_of_onlyRegisters honly (s.aperture a off) (s.aperture a off + bytes.length)
    obtain ⟨-, hmem, -⟩ := honly
    exact ⟨hkept, fun _ => hmem, hfuses, hvault, htallies, hops⟩
  · obtain ⟨hkept, hfuses, hvault, htallies, hops⟩ := memKeptOutside_bar2Write s a (s.aperture a off) bytes be
    exact ⟨hkept, fun hrefused => absurd hcode hrefused, hfuses, hvault, htallies, hops⟩

end Sys2Proof.Machine
end

section
/-!
SUPPORT. The host port: requests through BAR 2 and their refusal (R376), SR-IOV (R374, R394), MSI-X (R378), the link (R399) and the device
resets (R395).
-/
namespace Sys2Proof.Machine

/-! Counterfoils (R95). -/

theorem cfOf_lt (v : Nat) : cfOf v < 2 ^ 64 := by
  unfold cfOf
  omega

/-- The counterfoil of a value gives the value back. -/
theorem cfVal_cfOf {v : Nat} (h : v < 2 ^ 32) : cfVal (cfOf v) = some v := by
  have hlow : cfOf v % 2 ^ 32 = v := by unfold cfOf; omega
  have hhigh : cfOf v / 2 ^ 32 % 2 ^ 32 = 2 ^ 32 - 1 - v := by
    rw [cfOf, Nat.mod_eq_of_lt h, Nat.add_mul_div_right _ _ (by decide), Nat.div_eq_of_lt h, Nat.zero_add, Nat.mod_eq_of_lt (by omega)]
  have hok : cfOk (cfOf v) = true := decide_eq_true (by rw [hlow, hhigh]; omega)
  rw [cfVal, if_pos hok, hlow]

theorem cfVal_of_mismatch {v : Nat} (h : cfOk v = false) : cfVal v = none := if_neg (by rw [h]; exact Bool.false_ne_true)

/-! Requests through BAR 2. -/

theorem State.bar2Hit_reaches {s : State} {a off n : Nat} (h : s.bar2Hit a off n) : a < 32 ∧ s.fnLive a := by
  simp only [State.bar2Hit, Bool.and_eq_true, decide_eq_true_eq] at h
  obtain ⟨⟨⟨⟨ha, hlive⟩, -⟩, -⟩, -⟩ := h
  exact ⟨ha, hlive⟩

/-- A check answers a code of eight bits. -/
theorem State.bar2Code_lt (s : State) (a off n : Nat) (wr : Bool) : s.bar2Code a off n wr < 2 ^ 8 := by
  unfold State.bar2Code
  split
  · decide
  · simp only
    cases hfound : List.find? _ _ with
    | none => decide
    | some code =>
      obtain ⟨g, -, rfl⟩ := List.mem_map.mp (List.mem_of_find?_eq_some hfound)
      rw [Option.getD_some]
      split
      · decide
      · split <;> decide

section Requests
variable {s : State} {a off : Nat}

theorem exec_bar2Read_passed {n : Nat} (hhit : s.bar2Hit a off n) (hcode : s.bar2Code a off n false = Code.OK) (hon : s.computeOn) :
    exec (.bar2Read a off n) s = .next (s.bar2Read a (s.aperture a off) n) := by
  have hlive := (State.bar2Hit_reaches hhit).2
  show execBar2Read a off n s = _
  rw [execBar2Read, if_neg (by simp [hlive]), if_neg (by simp [hhit]), if_neg (not_not_intro hcode), if_neg (by simp [hon])]

theorem exec_bar2Write_passed {bytes : List Byte} (hhit : s.bar2Hit a off bytes.length) (hcode : s.bar2Code a off bytes.length true = Code.OK)
    (hon : s.computeOn) (be : List Bool) : exec (.bar2Write a off bytes be) s = .next (s.bar2Write a (s.aperture a off) bytes be) := by
  have hlive := (State.bar2Hit_reaches hhit).2
  show execBar2Write a off bytes be s = _
  rw [execBar2Write, if_neg (by simp [hlive]), if_neg (by simp [hhit]), if_neg (not_not_intro hcode), if_neg (by simp [hon])]

theorem exec_bar2Write_refused {bytes : List Byte} (hhit : s.bar2Hit a off bytes.length) (hcode : s.bar2Code a off bytes.length true ≠ Code.OK)
    (be : List Bool) : exec (.bar2Write a off bytes be) s = .next (s.bar2Refused a off (s.bar2Code a off bytes.length true)) := by
  have hlive := (State.bar2Hit_reaches hhit).2
  show execBar2Write a off bytes be s = _
  rw [execBar2Write, if_neg (by simp [hlive]), if_neg (by simp [hhit]), if_pos hcode]

theorem State.rd_permCnt_bar2Refused (s : State) (a off code : Nat) :
    (s.bar2Refused a off code).rd (Reg.ACT_PERM_CNT.COUNT a) = min (s.rd (Reg.ACT_PERM_CNT.COUNT a) + 1) 0xFFFFFFFF := by
  rw [State.bar2Refused, State.rd_raise, State.rd_wr_key, State.rd_wr_key, State.rd_wr_key, State.rd_wr_key, State.rd_raise, State.rd_count]
  · rfl
  all_goals simp [Reg.ACT_PERM_CNT.COUNT, Reg.PCX_UR_LOG.OFFSET, Reg.PCX_UR_LOG.FUNCTION, Reg.PCX_UR_LOG.BAR, Reg.PCX_UR_LOG.CODE]
  all_goals omega

/-- PCX_UR_LOG names the function and the code. -/
theorem State.rd_urLog_bar2Refused (s : State) {a : Nat} (off : Nat) {code : Nat} (ha : a < 32) (hcode : code < 2 ^ 8) :
    (s.bar2Refused a off code).rd Reg.PCX_UR_LOG.FUNCTION = a ∧ (s.bar2Refused a off code).rd Reg.PCX_UR_LOG.CODE = code := by
  constructor
  · rw [State.bar2Refused, State.rd_raise _ _ _ _ (by decide), State.rd_wr_apart _ _ _ _ (by decide) (by decide),
      State.rd_wr_apart _ _ _ _ (by decide) (by decide), State.rd_wr _ _ _ (by decide)]
    exact Nat.mod_eq_of_lt ha
  · rw [State.bar2Refused, State.rd_raise _ _ _ _ (by decide), State.rd_wr _ _ _ (by decide)]
    exact Nat.mod_eq_of_lt hcode

theorem ends_bar2Write_refused {bytes : List Byte} (hhit : s.bar2Hit a off bytes.length) (hcode : s.bar2Code a off bytes.length true ≠ Code.OK)
    (be : List Bool) : Ends (.bar2Write a off bytes be) s fun t =>
      t.rd (Reg.ACT_PERM_CNT.COUNT a) = min (s.rd (Reg.ACT_PERM_CNT.COUNT a) + 1) 0xFFFFFFFF ∧ t.rd Reg.PCX_UR_LOG.FUNCTION = a
        ∧ t.rd Reg.PCX_UR_LOG.CODE = s.bar2Code a off bytes.length true ∧ OnlyRegisters s t := by
  obtain ⟨hfunction, hlogged⟩ := State.rd_urLog_bar2Refused s off (State.bar2Hit_reaches hhit).1 (State.bar2Code_lt s a off bytes.length true)
  exact ⟨_, exec_bar2Write_refused hhit hcode be, State.rd_permCnt_bar2Refused s a off _, hfunction, hlogged, onlyRegisters_bar2Refused s a off _⟩

end Requests

section Port
variable {s : State}

/-! SR-IOV. -/

/-- VF Enable, NumVFs and the BAR 2 sizes of the configuration space. -/
def State.vfsShown (s : State) (n pfLog2 vfLog2 : Nat) : State :=
  (((s.wrb Reg.PCX_VF_STA.VF_ENABLE true).wr Reg.PCX_VF_STA.NUM_VFS n).wr Reg.PCX_BAR2.PF_LOG2 pfLog2).wr Reg.PCX_BAR2.VF_LOG2 vfLog2

theorem exec_vfEnable {n : Nat} (hready : s.hostReady) (hn : n ≤ 31) (hoff : s.on Reg.PCX_VF_STA.VF_ENABLE = false) :
    exec (.vfEnable n 38 32) s = .next (s.vfsShown n 38 32) := by
  show execVfEnable n 38 32 s = _
  simp only [execVfEnable]
  rw [if_neg (by simp [hready]), if_neg (by simp [hoff]; omega)]
  rfl

theorem State.on_vfsShown (s : State) (n pfLog2 vfLog2 : Nat) : (s.vfsShown n pfLog2 vfLog2).on Reg.PCX_VF_STA.VF_ENABLE = true := by
  have hset : (s.wrb Reg.PCX_VF_STA.VF_ENABLE true).on Reg.PCX_VF_STA.VF_ENABLE = true := State.on_wrb _ _ _ (by decide) (by decide)
  rw [State.on] at hset ⊢
  rwa [State.vfsShown, State.rd_wr_key _ _ _ _ (by decide), State.rd_wr_key _ _ _ _ (by decide), State.rd_wr_apart _ _ _ _ (by decide) (by decide)]

theorem State.rd_vfsShown (s : State) {n pfLog2 vfLog2 : Nat} (hn : n < 2 ^ 5) (hpf : pfLog2 < 2 ^ 6) (hvf : vfLog2 < 2 ^ 6) :
    (s.vfsShown n pfLog2 vfLog2).rd Reg.PCX_VF_STA.NUM_VFS = n ∧ (s.vfsShown n pfLog2 vfLog2).rd Reg.PCX_BAR2.PF_LOG2 = pfLog2
      ∧ (s.vfsShown n pfLog2 vfLog2).rd Reg.PCX_BAR2.VF_LOG2 = vfLog2 := by
  refine ⟨?_, ?_, ?_⟩
  · rw [State.vfsShown, State.rd_wr_key _ _ _ _ (by decide), State.rd_wr_key _ _ _ _ (by decide), State.rd_wr _ _ _ (by decide)]
    exact Nat.mod_eq_of_lt hn
  · rw [State.vfsShown, State.rd_wr_apart _ _ _ _ (by decide) (by decide), State.rd_wr _ _ _ (by decide)]
    exact Nat.mod_eq_of_lt hpf
  · rw [State.vfsShown, State.rd_wr _ _ _ (by decide)]
    exact Nat.mod_eq_of_lt hvf

theorem ends_vfEnable {n : Nat} (hready : s.hostReady) (hn : n ≤ 31) (hoff : s.on Reg.PCX_VF_STA.VF_ENABLE = false) :
    Ends (.vfEnable n 38 32) s fun t => t.on Reg.PCX_VF_STA.VF_ENABLE ∧ t.rd Reg.PCX_VF_STA.NUM_VFS = n ∧ t.rd Reg.PCX_BAR2.PF_LOG2 = 38
      ∧ t.rd Reg.PCX_BAR2.VF_LOG2 = 32 ∧ OnlyRegisters s t := by
  obtain ⟨hnum, hpf, hvf⟩ := State.rd_vfsShown s (Nat.lt_succ_of_le hn) (by decide : 38 < 2 ^ 6) (by decide : 32 < 2 ^ 6)
  exact ⟨_, exec_vfEnable hready hn hoff, State.on_vfsShown s n 38 32, hnum, hpf, hvf, onlyRegisters_refl s⟩

/-- With VF Enable cleared, every VF's account is reset. -/
theorem exec_vfDisable {n : Nat} (hready : s.hostReady) (hon : s.on Reg.PCX_VF_STA.VF_ENABLE) (hn : n ≤ 31) :
    exec (.vfDisable n false) s = .next ((((((List.range 32).filter fun a => decide (0 < a) && s.fnExists a).foldl State.flrAccount s).wrb
      Reg.PCX_VF_STA.VF_ENABLE false).wr Reg.PCX_VF_STA.NUM_VFS n)) := by
  show execVfDisable n false s = _
  rw [execVfDisable, if_neg (by simp [hready]), if_neg (by simp [hon]; omega)]
  simp only [Bool.false_and, Bool.not_false, Bool.and_true]

/-! MSI-X. -/

theorem exec_msixUnmask {fn v : Nat} {mask : MaskWrite} (hready : s.hostReady) (hfn : s.fnExists fn) (hv : v < if fn = 0 then 2048 else 64)
    (hgood : (mask.access.any fun x => badAccess x.1 x.2.1 x.2.2) = false) (on : Bool) :
    exec (.msixUnmask fn v on mask) s = .next (s.msixUnmask fn v mask.masked on) := by
  show execMsixUnmask fn v on mask s = _
  rw [execMsixUnmask, if_neg (by simp [hready]), if_neg (by simp [hfn]), if_neg (by rw [hgood]; exact Bool.false_ne_true), if_pos hv]

/-! The link. -/

/-- PCX_LINK_STA of a link that is up. -/
def State.linkShown (s : State) (speed width : Nat) : State :=
  ((((s.wr Reg.PCX_LINK_STA.SPEED speed).wr Reg.PCX_LINK_STA.WIDTH width).wrb Reg.PCX_LINK_STA.FLIT (speed = 6)).wrb Reg.PCX_LINK_STA.DEGRADED
    (decide (speed < 6) || decide (width < 16))).wrb Reg.PCX_LINK_STA.UP true

/-- A link that trains shows itself in PCX_LINK_STA, and a change of that raises LINK_CHANGE and, at less than the whole link, DEGRADED. -/
def State.linkTrained (s : State) (speed width : Nat) : State :=
  if (s.linkShown speed width).cell Reg.PCX_LINK_STA.SPEED.key = s.cell Reg.PCX_LINK_STA.SPEED.key then s.linkShown speed width
  else if decide (speed < 6) || decide (width < 16) then ((s.linkShown speed width).raise 9 0).raise 9 1
  else (s.linkShown speed width).raise 9 0

theorem exec_pcieLinkUp {speed width : Nat} (hreset : s.stage ≠ Stage.RESET) (hhalted : s.stage ≠ Stage.HALTED) (hrecovery : s.stage ≠ Stage.RECOVERY)
    (hmin : 1 ≤ speed) (hmax : speed ≤ 6) (hwidth : width ∈ [1, 2, 4, 8, 16]) :
    exec (.pcieLinkUp speed width) s = .next (s.linkTrained speed width) := by
  have hcontains : [1, 2, 4, 8, 16].contains width = true := List.contains_iff_mem.mpr hwidth
  show execPcieLinkUp speed width s = _
  rw [execPcieLinkUp, if_neg]
  · rfl
  · simp only [hreset, hhalted, hrecovery, hcontains, false_or, Bool.not_true, Bool.false_eq_true, or_false]
    omega

theorem State.linkTrained_keeps {P : State → Prop} {speed width : Nat} (hshown : P (s.linkShown speed width)) (hraise : ∀ t i, P t → P (t.raise 9 i)) :
    P (s.linkTrained speed width) := by
  unfold State.linkTrained
  split
  · exact hshown
  · split
    · exact hraise _ 1 (hraise _ 0 hshown)
    · exact hraise _ 0 hshown

theorem State.rd_linkTrained (s : State) (speed width : Nat) (f : Fld) (h : f.key ≠ 0x9010) :
    (s.linkTrained speed width).rd f = (s.linkShown speed width).rd f :=
  State.linkTrained_keeps (P := fun t => t.rd f = (s.linkShown speed width).rd f) rfl fun t i ht => (State.rd_raise t 9 i f h).trans ht

theorem onlyRegisters_linkTrained (s : State) (speed width : Nat) : OnlyRegisters s (s.linkTrained speed width) :=
  State.linkTrained_keeps (P := OnlyRegisters s) (onlyRegisters_refl s) fun t i => (onlyRegisters_raise s t 9 i).mpr

theorem State.rd_linkShown (s : State) {speed width : Nat} (hspeed : speed < 2 ^ 3) (hwidth : width < 2 ^ 5) :
    (s.linkShown speed width).rd Reg.PCX_LINK_STA.SPEED = speed ∧ (s.linkShown speed width).rd Reg.PCX_LINK_STA.WIDTH = width := by
  constructor
  · simp only [State.linkShown, State.wrb]
    rw [State.rd_wr_apart _ _ _ _ (by decide) (by decide), State.rd_wr_apart _ _ _ _ (by decide) (by decide),
      State.rd_wr_apart _ _ _ _ (by decide) (by decide), State.rd_wr_apart _ _ _ _ (by decide) (by decide), State.rd_wr _ _ _ (by decide)]
    exact Nat.mod_eq_of_lt hspeed
  · simp only [State.linkShown, State.wrb]
    rw [State.rd_wr_apart _ _ _ _ (by decide) (by decide), State.rd_wr_apart _ _ _ _ (by decide) (by decide),
      State.rd_wr_apart _ _ _ _ (by decide) (by decide), State.rd_wr _ _ _ (by decide)]
    exact Nat.mod_eq_of_lt hwidth

theorem State.on_linkShown (s : State) (speed width : Nat) :
    (s.linkShown speed width).on Reg.PCX_LINK_STA.UP = true ∧ (s.linkShown speed width).on Reg.PCX_LINK_STA.FLIT = decide (speed = 6)
      ∧ (s.linkShown speed width).on Reg.PCX_LINK_STA.DEGRADED = (decide (speed < 6) || decide (width < 16)) := by
  refine ⟨State.on_wrb _ _ _ (by decide) (by decide), ?_, ?_⟩
  · rw [State.linkShown, State.on_wrb_apart _ _ _ _ (by decide) (by decide), State.on_wrb_apart _ _ _ _ (by decide) (by decide)]
    exact State.on_wrb _ _ _ (by decide) (by decide)
  · rw [State.linkShown, State.on_wrb_apart _ _ _ _ (by decide) (by decide)]
    exact State.on_wrb _ _ _ (by decide) (by decide)

/-- A width of the link fits its field. -/
theorem linkWidth_lt {width : Nat} (h : width ∈ [1, 2, 4, 8, 16]) : width < 2 ^ 5 :=
  (by decide : ∀ w ∈ [1, 2, 4, 8, 16], w < 2 ^ 5) width h

theorem ends_pcieLinkUp {speed width : Nat} (hreset : s.stage ≠ Stage.RESET) (hhalted : s.stage ≠ Stage.HALTED) (hrecovery : s.stage ≠ Stage.RECOVERY)
    (hmin : 1 ≤ speed) (hmax : speed ≤ 6) (hwidth : width ∈ [1, 2, 4, 8, 16]) : Ends (.pcieLinkUp speed width) s fun t =>
      t.on Reg.PCX_LINK_STA.UP ∧ t.rd Reg.PCX_LINK_STA.SPEED = speed ∧ t.on Reg.PCX_LINK_STA.FLIT = decide (speed = 6)
        ∧ t.rd Reg.PCX_LINK_STA.WIDTH = width ∧ t.on Reg.PCX_LINK_STA.DEGRADED = (decide (speed < 6) || decide (width < 16)) ∧ OnlyRegisters s t := by
  obtain ⟨hup, hflit, hdegraded⟩ := State.on_linkShown s speed width
  obtain ⟨hspeed, hwide⟩ := State.rd_linkShown s (Nat.lt_of_le_of_lt hmax (by decide)) (linkWidth_lt hwidth)
  have hrd : ∀ f : Fld, f.key ≠ 0x9010 → (s.linkTrained speed width).rd f = (s.linkShown speed width).rd f := State.rd_linkTrained s speed width
  have hon : ∀ f : Fld, f.key ≠ 0x9010 → (s.linkTrained speed width).on f = (s.linkShown speed width).on f := fun f hf => by
    rw [State.on, hrd f hf, State.on]
  exact ⟨_, exec_pcieLinkUp hreset hhalted hrecovery hmin hmax hwidth, (hon _ (by decide)).trans hup, (hrd _ (by decide)).trans hspeed,
    (hon _ (by decide)).trans hflit, (hrd _ (by decide)).trans hwide, (hon _ (by decide)).trans hdegraded, onlyRegisters_linkTrained s speed width⟩

/-! Device resets. -/

theorem exec_linkReset (hup : s.on Reg.PCX_LINK_STA.UP) (hhalted : s.stage ≠ Stage.HALTED) (hrecovery : s.stage ≠ Stage.RECOVERY) (env : BootEnv) :
    exec (.linkReset env) s = .next ((s.enterReset false).bootStart { env with strap := s.rd Reg.BOOT_STA.STRAP } false) := by
  show execLinkReset env s = _
  rw [execLinkReset, if_pos ⟨hup, hhalted, hrecovery⟩]

section Matched
variable {q : Req} (hpf : s.pf q) {v : Nat} (env : BootEnv)
include hpf

/-- A matched write of PCX_DEV_RESET. -/
theorem exec_deviceReset_matched (hv : v < 2 ^ 32) : exec (.deviceReset q (cfOf v) env) s = .next (
    if v = 1 then (s.enterReset true).bootStart { env with strap := s.rd Reg.BOOT_STA.STRAP } false else s.lastStatus 9 Code.FORMAT) := by
  show execDeviceReset q (cfOf v) env s = _
  rw [execDeviceReset, if_neg (by simp [hpf]), Nat.mod_eq_of_lt (cfOf_lt v), cfVal_cfOf hv]

theorem exec_deviceReset_mismatch (hv : cfOk v = false) (hword : v < 2 ^ 64) : exec (.deviceReset q v env) s = .next (s.raise 9 25) := by
  show execDeviceReset q v env s = _
  rw [execDeviceReset, if_neg (by simp [hpf]), Nat.mod_eq_of_lt hword, cfVal_of_mismatch hv]

end Matched
end Port

/-- Settles O41: a request through BAR 2 that is refused is counted and logged, the configuration space and PCX_LINK_STA show what was written, and a
matched write of 1, or a link reset, starts the boot again. -/
theorem hostPort : Obligations.HostPort := by
  unfold Obligations.HostPort
  refine ⟨fun s a off => ⟨fun n hhit hcode hon => exec_bar2Read_passed hhit hcode hon, fun bytes be hhit hcode hon => exec_bar2Write_passed hhit hcode hon be,
      fun bytes be hhit hcode => ends_bar2Write_refused hhit hcode be⟩,
    fun s => ⟨fun n hready hn hoff => ends_vfEnable hready hn hoff, fun n hready hon hn => exec_vfDisable hready hon hn,
      fun fn v on acc hready hfn hv hgood => exec_msixUnmask hready hfn hv hgood on,
      fun sp w hreset hhalted hrecovery hmin hmax hw => ends_pcieLinkUp hreset hhalted hrecovery hmin hmax hw,
      fun env hup hhalted hrecovery => exec_linkReset hup hhalted hrecovery env, fun q env hpf => ?_, fun q env v hpf hne hv => ?_,
      fun q env v hpf hbad hv => exec_deviceReset_mismatch hpf env hbad hv⟩⟩
  · rw [exec_deviceReset_matched hpf env (by decide), if_pos rfl]
  · rw [exec_deviceReset_matched hpf env hv, if_neg hne]

end Sys2Proof.Machine
end

section
/-!
SUPPORT. The life of an account: enabling (R392), drain and scrub (R389-R391), function-level reset (R393, R394).
-/
namespace Sys2Proof.Machine

section Account
variable {s : State} {a : Nat}

/-! Enabling. -/

theorem Req.eq_fn_zero_of_isPf {q : Req} (h : q.isPf = true) : q = .fn 0 := by
  unfold Req.isPf at h
  split at h
  · rfl
  · cases h

/-- A write of the PF that CTL takes. -/
theorem exec_accountEnable {q : Req} (ha : a < 32) (hpf : s.pf q) (hlive : s.on (Reg.CTL.SOFT_RESET (0x40 + a)) = false) (on : Bool) :
    exec (.accountEnable q a on) s = .next (
      if !on then s.wrb (Reg.CTL.ENABLE (0x40 + a)) false
      else if s.enableRefusal a = Code.OK then s.wrb (Reg.CTL.ENABLE (0x40 + a)) true
      else (s.raise (0x40 + a) 5).lastStatus (0x40 + a) (s.enableRefusal a)) := by
  have hfn : q = .fn 0 := Req.eq_fn_zero_of_isPf (Bool.and_eq_true_iff.mp hpf).1
  have hother : ¬ (0 < a ∧ q = .fn a ∧ s.reqLive q) := fun ⟨hpos, hq, _⟩ => Nat.ne_of_lt hpos (Req.fn.inj (hfn.symm.trans hq))
  show execAccountEnable q a on s = _
  rw [execAccountEnable, if_neg hother, if_neg (by simp [hpf, hlive]; exact ha)]

/-! Drain and scrub. -/

theorem exec_drained (ha : a < 32) (hopen : s.on (Reg.ACT_STA.DRAINED a) = false) (hops : s.oldOps a = []) (hheld : s.oldHeld a = 0)
    (hreqs : s.oldReqs a = []) : exec (.drained a) s = .next ((s.checkEpoch a).drainedNow a) := by
  show execDrained a s = _
  rw [execDrained, if_pos ⟨ha, by rw [hopen]; rfl, by rw [hops]; rfl, hheld, by rw [hreqs]; rfl⟩]

/-- The account's scrub is over: no bank is left to it, and SCRUBBING ends with its event. -/
def State.scrubbed (s : State) (a : Nat) : State :=
  (({ s with scrub := tblSet 0 (tblSet 0 s.scrub (2 * a) 0) (2 * a + 1) 0 } : State).wrb (Reg.ACT_STA.SCRUBBING a) false).raise (0x40 + a) 3

theorem exec_scrubDone (ha : a < 32) (hscrub : s.on (Reg.ACT_STA.SCRUBBING a)) (hdrained : s.on (Reg.ACT_STA.DRAINED a)) (hover : s.scrubOver a) :
    exec (.scrubDone a) s = .next (s.scrubbed a) := by
  show execScrubDone a s = _
  rw [execScrubDone, if_pos ⟨ha, hscrub, hdrained, hover⟩]
  rfl

theorem State.on_scrubbed (s : State) (a : Nat) : (s.scrubbed a).on (Reg.ACT_STA.SCRUBBING a) = false := by
  have hcleared := State.on_wrb ({ s with scrub := tblSet 0 (tblSet 0 s.scrub (2 * a) 0) (2 * a + 1) 0 } : State) (Reg.ACT_STA.SCRUBBING a) false
    (by simp [Reg.ACT_STA.SCRUBBING]) (by simp [Reg.ACT_STA.SCRUBBING])
  rw [State.on] at hcleared ⊢
  rw [State.scrubbed, State.rd_raise _ _ _ _ (by simp only [Reg.ACT_STA.SCRUBBING]; omega)]
  exact hcleared

theorem onlyRegisters_scrubbed (s : State) (a : Nat) : OnlyRegisters s (s.scrubbed a) :=
  (onlyRegisters_raise _ _ _ _).mpr (onlyRegisters_refl s)

/-! Function-level reset. -/

theorem exec_flrDone (ha : a < 32) (hflr : s.on (Reg.ACT_STA.FLR a)) : exec (.flrDone a) s = .next (s.flrDone a) := by
  show execFlrDone a s = _
  rw [execFlrDone, if_pos ⟨ha, hflr⟩]

/-- A function-level reset of a VF. -/
theorem exec_flr_vf (hpos : 0 < a) (hready : s.hostReady) (hfn : s.fnExists a) : exec (.flr a) s = .next (s.flrAccount a) := by
  show execFlr a s = _
  rw [execFlr, if_neg (by simp [hready]), if_neg (by simp [hfn]), if_neg (Nat.ne_of_gt hpos)]

end Account

/-- Settles O42: the PF's write of ENABLE that is not refused takes, an account without an old access is drained, the end of its scrub changes only
what registers show, and a function-level reset starts and goes on. -/
theorem accountLife : Obligations.AccountLife := by
  unfold Obligations.AccountLife
  refine fun s a ha => ⟨fun q hpf hlive hcode => ?_, fun q hpf hlive => exec_accountEnable ha hpf hlive false,
    fun hopen hops hheld hreqs => exec_drained ha hopen hops hheld hreqs, fun hscrub hdrained hover => ?_, exec_flrDone ha, exec_flr_vf⟩
  · rw [exec_accountEnable ha hpf hlive true, if_neg (by decide), if_pos hcode]
  · exact ⟨_, exec_scrubDone ha hscrub hdrained hover, State.on_scrubbed s a, State.evtRaw_raise _ _ (by decide), onlyRegisters_scrubbed s a⟩

end Sys2Proof.Machine
end

section
/-!
SUPPORT. The registers of a ring page: doorbell, enable and disable, reset, acknowledge, watch and the aborts (R409-R411, R429-R432, R439, R441).
-/
namespace Sys2Proof.Machine

/-! What brings the dispatchers' registers up to date leaves the ring pages, and all that no register shows, alone. -/

/-- Registers of the ring pages are as before, and so is everything that no register shows. -/
def RingPagesKept (s t : State) : Prop := OnlyRegisters s t ∧ ∀ k, 0x3000000 ≤ k → t.cell k = s.cell k

theorem ringPagesKept_refl (s : State) : RingPagesKept s s := ⟨onlyRegisters_refl s, fun _ _ => rfl⟩

theorem ringPagesKept_wr {s t : State} (h : RingPagesKept s t) (f : Fld) (v : Nat) (hf : f.key < 0x3000000) : RingPagesKept s (t.wr f v) :=
  ⟨(onlyRegisters_wr s t f v).mpr h.1, fun k hk => (State.cell_wr_ne t f v (by omega)).trans (h.2 k hk)⟩

theorem ringPagesKept_refreshOld (s : State) : RingPagesKept s s.refreshOld := by
  unfold State.refreshOld
  refine List.foldlRecOn (motive := RingPagesKept s) _ _ (ringPagesKept_refl s) fun t ht a ha => ?_
  have hlt : a < 32 := List.mem_range.mp ha
  split
  · exact ht
  · refine ringPagesKept_wr (ringPagesKept_wr ht _ _ ?_) _ _ ?_
    · simp only [Reg.ACT_OLD.LOCAL]; omega
    · simp only [Reg.ACT_OLD.REMOTE]; omega

theorem ringPagesKept_refreshDsp (s : State) : RingPagesKept s s.refreshDsp := by
  unfold State.refreshDsp
  refine List.foldlRecOn (motive := RingPagesKept s) _ _ (ringPagesKept_refreshOld s) fun t ht h hh => ?_
  have hlt : h < 2 := by simp only [List.mem_cons, List.not_mem_nil, or_false] at hh; omega
  refine ringPagesKept_wr (ringPagesKept_wr (ringPagesKept_wr (ringPagesKept_wr (ringPagesKept_wr (ringPagesKept_wr ht _ _ ?_) _ _ ?_) _ _ ?_) _ _ ?_)
    _ _ ?_) _ _ ?_
  all_goals
    simp only [Reg.DSP_STA.RINGS, Reg.DSP_STA.EXC_PENDING, Reg.DSP_WAITING.COUNT, Reg.COL_STA.INFLIGHT, Reg.MNT_STA.INFLIGHT, Reg.UPD_STA.INFLIGHT]
    omega

theorem State.rd_refreshDsp (s : State) (f : Fld) (h : 0x3000000 ≤ f.key) : s.refreshDsp.rd f = s.rd f := by
  rw [State.rd, (ringPagesKept_refreshDsp s).2 _ h, State.rd]

/-! RESET. -/

/-- The registers of a ring after RESET (R432). -/
def State.ringCleared (s : State) (u : Nat) : State :=
  let t := ((s.wr (Reg.RING_HEAD.COUNT u) 0).wr (Reg.RING_TAIL.COUNT u) 0).wr (Reg.RING_CPL_CNT.COUNT u) 0
  let t := ((t.wr (Reg.RING_CPL_ACK.COUNT u) 0).wr (Reg.RING_SEQ_ADM.SEQ u) 0).wr (Reg.RING_SEQ_DONE.SEQ u) 0
  ((t.wr (Reg.RING_STA.CAUSE u) 0).wr (Reg.RING_STA.STATE u) RingSt.DISABLED).wrb (Reg.RING_CTL.ENABLE u) false

theorem State.resetRing_idle {s : State} {u : Nat} (hst : s.ringSt u = RingSt.DISABLED ∨ s.ringSt u = RingSt.FAULT) (hops : s.ringOps u = [])
    (hheld : (s.ringX u).held = []) : s.resetRing u = (s.ringCleared u).refreshDsp := by
  unfold State.resetRing
  have hidle : ¬ ((s.ringSt u ≠ RingSt.DISABLED ∧ s.ringSt u ≠ RingSt.FAULT) ∨ !(s.ringOps u).isEmpty ∨ !(s.ringX u).held.isEmpty) := by
    rintro (⟨hdisabled, hfault⟩ | hop | hwaits)
    · exact hst.elim hdisabled hfault
    · exact absurd hop (by simp [hops])
    · exact absurd hwaits (by simp [hheld])
  rw [if_neg hidle]
  rfl

/-- A write of 0 to any field keeps a field that reads 0. -/
theorem State.rd_wr_zero_keeps {s : State} {g : Fld} (f : Fld) (h : s.rd g = 0) : (s.wr f 0).rd g = 0 := by
  by_cases hk : g.key = f.key
  · rw [State.rd, hk] at h
    rw [State.rd, State.wr, hk, State.cell_setCell_same]
    refine Nat.eq_of_testBit_eq fun i => ?_
    have hclear : (g.get (s.cell f.key)).testBit i = false := by rw [h, Nat.zero_testBit]
    rw [Fld.testBit_get] at hclear
    rw [Fld.testBit_get, Fld.testBit_put, Nat.zero_testBit, Nat.zero_testBit]
    split <;> simp_all
  · rw [State.rd_wr_key s f g 0 hk, h]

theorem State.rd_wr_zero (s : State) (f : Fld) (h : f.lo + f.width ≤ 64) : (s.wr f 0).rd f = 0 := by rw [State.rd_wr s f 0 h, Nat.zero_mod]

/-- R432: RESET leaves the counts, the sequence numbers and the state of its ring at 0: each is cleared, and no later write brings it back. -/
theorem State.rd_ringCleared (s : State) (u : Nat) : (s.ringCleared u).rd (Reg.RING_HEAD.COUNT u) = 0 ∧ (s.ringCleared u).rd (Reg.RING_TAIL.COUNT u) = 0
    ∧ (s.ringCleared u).rd (Reg.RING_CPL_CNT.COUNT u) = 0 ∧ (s.ringCleared u).rd (Reg.RING_CPL_ACK.COUNT u) = 0
    ∧ (s.ringCleared u).rd (Reg.RING_SEQ_ADM.SEQ u) = 0 ∧ (s.ringCleared u).rd (Reg.RING_SEQ_DONE.SEQ u) = 0
    ∧ (s.ringCleared u).rd (Reg.RING_STA.STATE u) = 0 := by
  have keep : ∀ {t : State} {g : Fld} (f : Fld), t.rd g = 0 → (t.wr f 0).rd g = 0 := State.rd_wr_zero_keeps
  refine ⟨keep _ (keep _ (keep _ (keep _ (keep _ (keep _ (keep _ (keep _ ?_))))))), keep _ (keep _ (keep _ (keep _ (keep _ (keep _ (keep _ ?_)))))),
    keep _ (keep _ (keep _ (keep _ (keep _ (keep _ ?_))))), keep _ (keep _ (keep _ (keep _ (keep _ ?_)))), keep _ (keep _ (keep _ (keep _ ?_))),
    keep _ (keep _ (keep _ ?_)), keep _ ?_⟩
  all_goals exact State.rd_wr_zero _ _ (Nat.le_of_ble_eq_true rfl)

theorem State.rd_resetRing_idle {s : State} {u : Nat} (hst : s.ringSt u = RingSt.DISABLED ∨ s.ringSt u = RingSt.FAULT) (hops : s.ringOps u = [])
    (hheld : (s.ringX u).held = []) {f : Fld} (hkey : 0x3000000 ≤ f.key) : (s.resetRing u).rd f = (s.ringCleared u).rd f := by
  rw [State.resetRing_idle hst hops hheld, State.rd_refreshDsp _ f hkey]

theorem onlyRegisters_ringCleared_refreshDsp (s : State) (u : Nat) : OnlyRegisters s (s.ringCleared u).refreshDsp :=
  (ringPagesKept_refreshDsp (s.ringCleared u)).1

/-! What a write of a ring page answers. -/

section Takes
variable {s : State} {fn a r : Nat} (h : s.RingTakes fn a r)
include h

theorem exec_ringDoorbell {t : Nat} (ht : t < 2 ^ 32) : exec (.ringDoorbell fn a r t) s = .next (s.doorbell (ringIx a r) t) := by
  show execRingDoorbell fn a r t s = _
  rw [execRingDoorbell, State.ringWrite_of_takes h, Nat.mod_eq_of_lt ht]

theorem exec_ringEnable : exec (.ringEnable fn a r) s = .next (
    if s.enableCode (ringIx a r) = Code.OK then s.startRing (ringIx a r) else s.lastCode (ringIx a r) (s.enableCode (ringIx a r))) := by
  show execRingEnable fn a r s = _
  rw [execRingEnable, State.ringWrite_of_takes h]

theorem exec_ringDisable : exec (.ringDisable fn a r) s = .next (s.stopRing (ringIx a r)) := by
  show execRingDisable fn a r s = _
  rw [execRingDisable, State.ringWrite_of_takes h]

theorem exec_ringReset : exec (.ringReset fn a r) s = .next (s.resetRing (ringIx a r)) := by
  show execRingReset fn a r s = _
  rw [execRingReset, State.ringWrite_of_takes h]

theorem ends_ringReset_idle (hst : s.ringSt (ringIx a r) = RingSt.DISABLED ∨ s.ringSt (ringIx a r) = RingSt.FAULT) (hops : s.ringOps (ringIx a r) = [])
    (hheld : (s.ringX (ringIx a r)).held = []) : Ends (.ringReset fn a r) s fun t =>
      t.rd (Reg.RING_HEAD.COUNT (ringIx a r)) = 0 ∧ t.rd (Reg.RING_TAIL.COUNT (ringIx a r)) = 0 ∧ t.rd (Reg.RING_CPL_CNT.COUNT (ringIx a r)) = 0
        ∧ t.rd (Reg.RING_CPL_ACK.COUNT (ringIx a r)) = 0 ∧ t.rd (Reg.RING_SEQ_ADM.SEQ (ringIx a r)) = 0 ∧ t.rd (Reg.RING_SEQ_DONE.SEQ (ringIx a r)) = 0
        ∧ t.ringSt (ringIx a r) = RingSt.DISABLED ∧ OnlyRegisters s t := by
  have hrd : ∀ f : Fld, 0x3000000 ≤ f.key → (s.resetRing (ringIx a r)).rd f = (s.ringCleared (ringIx a r)).rd f := fun f hkey =>
    State.rd_resetRing_idle hst hops hheld hkey
  obtain ⟨hhead, htail, hcnt, hack, hadm, hdone, hsta⟩ := State.rd_ringCleared s (ringIx a r)
  refine ⟨_, exec_ringReset h, (hrd _ ?_).trans hhead, (hrd _ ?_).trans htail, (hrd _ ?_).trans hcnt, (hrd _ ?_).trans hack, (hrd _ ?_).trans hadm,
    (hrd _ ?_).trans hdone, (hrd _ ?_).trans hsta, ?_⟩
  case refine_8 =>
    rw [State.resetRing_idle hst hops hheld]
    exact onlyRegisters_ringCleared_refreshDsp s _
  all_goals exact Nat.le_trans (by decide) (Nat.le_add_right _ _)

theorem exec_ringCplAck (c : Nat) : exec (.ringCplAck fn a r c) s = .next (s.wr (Reg.RING_CPL_ACK.COUNT (ringIx a r)) c) := by
  show execRingCplAck fn a r c s = _
  rw [execRingCplAck, State.ringWrite_of_takes h]

/-- R439: a watch that its account may set; VECTOR takes no 0 and no 1. -/
theorem exec_ringWatch_taken {t : Nat} (ht : t < 2 ^ 18) (v : Nat) {on : Bool} (howns : on → s.ownsTally a t) :
    exec (.ringWatch fn a r t v on) s = .next (
      (if 2 ≤ v % 64 then ((s.wr (Reg.RING_WATCH.TALLY (ringIx a r)) t).wrb (Reg.RING_WATCH.VALID (ringIx a r)) on).wr (Reg.RING_WATCH.VECTOR (ringIx a r)) v
        else (s.wr (Reg.RING_WATCH.TALLY (ringIx a r)) t).wrb (Reg.RING_WATCH.VALID (ringIx a r)) on).fireWatch (ringIx a r)) := by
  show execRingWatch fn a r t v on s = _
  rw [execRingWatch, State.ringWrite_of_takes h, Nat.mod_eq_of_lt ht, if_neg (by simpa using howns)]

theorem exec_ringWatch_refused {t : Nat} (ht : t < 2 ^ 18) (v : Nat) (howns : s.ownsTally a t = false) :
    exec (.ringWatch fn a r t v true) s = .next (s.lastCode (ringIx a r) Code.PERMISSION) := by
  show execRingWatch fn a r t v true s = _
  rw [execRingWatch, State.ringWrite_of_takes h, Nat.mod_eq_of_lt ht, if_pos (by simp [howns])]

theorem exec_abortAll (hidle : s.on (Reg.RING_ABORT_STA.BUSY (ringIx a r)) = false) : exec (.abortAll fn a r) s = .next (s.abortRing (ringIx a r)) := by
  show execAbortAll fn a r s = _
  rw [execAbortAll, State.ringWrite_of_takes h, if_neg (by simp [hidle])]

theorem exec_ringAbort {seq : Nat} (hseq : seq < 2 ^ 48) (hidle : s.on (Reg.RING_ABORT_STA.BUSY (ringIx a r)) = false) :
    exec (.ringAbort fn a r seq) s = .next (
      (((s.wrb (Reg.RING_ABORT_STA.BUSY (ringIx a r)) true).abortSeq (ringIx a r) seq).1.wr (Reg.RING_ABORT_STA.CODE (ringIx a r))
        ((s.wrb (Reg.RING_ABORT_STA.BUSY (ringIx a r)) true).abortSeq (ringIx a r) seq).2).refreshRing (ringIx a r)) := by
  show execRingAbort fn a r seq s = _
  rw [execRingAbort, State.ringWrite_of_takes h, if_neg (by simp [hidle]), Nat.mod_eq_of_lt hseq]

end Takes

/-- R411: a doorbell that moves the tail forward, to no more than the ring holds. -/
theorem State.doorbell_taken {s : State} {u t : Nat} (hon : s.acctOn (u / 32)) (hbar : s.ringsBarred = false)
    (hpos : 0 < (t + 2 ^ 32 - s.rd (Reg.RING_TAIL.COUNT u)) % 2 ^ 32) (hfwd : (t + 2 ^ 32 - s.rd (Reg.RING_TAIL.COUNT u)) % 2 ^ 32 < 2 ^ 31)
    (hroom : (t + 2 ^ 32 - s.rd (Reg.RING_HEAD.COUNT u)) % 2 ^ 32 ≤ s.ringSize u) : s.doorbell u t = s.wr (Reg.RING_TAIL.COUNT u) t := by
  have hgo : ¬ (!s.acctOn (u / 32) ∨ s.ringsBarred ∨ (t + 2 ^ 32 - s.rd (Reg.RING_TAIL.COUNT u)) % 2 ^ 32 = 0
      ∨ 2 ^ 31 ≤ (t + 2 ^ 32 - s.rd (Reg.RING_TAIL.COUNT u)) % 2 ^ 32) := by
    rintro (hoff | hbarred | hsame | hback)
    · simp [hon] at hoff
    · simp [hbar] at hbarred
    · omega
    · omega
  exact (if_neg hgo).trans (if_neg (Nat.not_lt.mpr hroom))

theorem exec_abortDone {s : State} {a r : Nat} (ha : a < 32) (hr : r < 32) (hcomp : s.computeOn) (hbusy : s.on (Reg.RING_ABORT_STA.BUSY (ringIx a r))) :
    exec (.abortDone a r) s = .next (s.abortDone (ringIx a r)) := by
  show execAbortDone a r s = _
  rw [execAbortDone, if_pos ⟨ha, hr, hcomp, hbusy⟩]

/-- Settles O47: each write of a ring page that its function reaches answers the page's own operation; RESET of an idle ring clears the ring's
registers and brings registers of other pages up to date. -/
theorem ringControl : Obligations.RingControl := by
  unfold Obligations.RingControl
  refine ⟨fun s fn a r h => ⟨fun t ht hon hbar hpos hfwd hroom => ?_, fun hok => ?_, fun hbad => ?_, exec_ringDisable h,
      fun hst hops hheld => ends_ringReset_idle h hst hops hheld, fun c _ => exec_ringCplAck h c, fun t v on ht howns => ⟨fun hvec => ?_, fun hvec => ?_⟩,
      fun t v ht howns => exec_ringWatch_refused h ht v howns⟩,
    fun s fn a r h ha => ⟨exec_abortAll h, fun seq hseq hidle => exec_ringAbort h hseq hidle, fun hcomp hbusy => exec_abortDone ha h.2.1 hcomp hbusy⟩⟩
  · rw [exec_ringDoorbell h ht, State.doorbell_taken hon hbar hpos hfwd hroom]
  · rw [exec_ringEnable h, if_pos hok]
  · rw [exec_ringEnable h, if_neg hbad]
  · rw [exec_ringWatch_taken h ht v howns, if_pos hvec]
  · rw [exec_ringWatch_taken h ht v howns, if_neg (Nat.not_le.mpr hvec)]

end Sys2Proof.Machine
end

section
/-!
SUPPORT. A descriptor is fetched and admitted (R412, R416, R433), and an op ends: a wait that lasts too long, the record of a finished op, a paused op
that its clerk resolves (R421, R422, R428, R434).
-/
namespace Sys2Proof.Machine

/-! Fetch and admission. -/

theorem exec_descriptorAdmit (s : State) {a r : Nat} (ha : a < 32) (hr : r < 32) (f : Fetch) (wr : DmaEnd) :
    exec (.descriptorAdmit a r f wr) s = .next (s.descriptorAdmit (ringIx a r) f wr) := by
  show execDescriptorAdmit a r f wr s = _
  rw [execDescriptorAdmit, if_pos ⟨ha, hr⟩]

section Fetch
variable {s : State} {u : Nat} (hfetch : s.canFetch u) (hon : s.acctOn (u / 32))
include hfetch hon

/-- R412: a ring in host memory admits the bytes that the host read brings. -/
theorem State.descriptorAdmit_host (hhost : s.on (Reg.RING_BASE.LOC u) = false) (bytes : List Byte) (wr : DmaEnd) :
    s.descriptorAdmit u (.ok bytes) wr = s.admitDescriptor u bytes wr := by
  unfold State.descriptorAdmit
  rw [if_neg (by simp [hfetch, hon]), if_neg (by simp [hhost])]

/-- R433: a host read that fails faults the ring. -/
theorem State.descriptorAdmit_failed (hhost : s.on (Reg.RING_BASE.LOC u) = false) {f : Fetch} (hf : f = .timeout ∨ f = .poison ∨ f = .refused)
    (wr : DmaEnd) : s.descriptorAdmit u f wr = s.faultRing u 1 (fetchCode f) := by
  unfold State.descriptorAdmit
  rw [if_neg (by simp [hfetch, hon]), if_neg (by simp [hhost])]
  rcases hf with rfl | rfl | rfl <;> rfl

/-- R412: a ring in device memory admits what its next slot holds, which the die link brings from the other half. -/
theorem State.descriptorAdmit_device (hdev : s.on (Reg.RING_BASE.LOC u)) (hlink : s.linkHolds (s.ringHalf u) (s.headAddr u) = false)
    (hacc : s.ringAccess u (s.headAddr u) 128 false = none) (f : Fetch) (wr : DmaEnd) :
    s.descriptorAdmit u f wr
      = (s.linkAccess (s.ringHalf u) (s.headAddr u) 128 true false).admitDescriptor u (s.load (s.headAddr u) 128) wr := by
  unfold State.descriptorAdmit
  rw [if_neg (by simp [hfetch, hon]), if_pos hdev, if_neg (by simp [hlink]), hacc]

end Fetch

/-! The end of an op. -/

section End
variable {s : State} {a r seq : Nat} {o : Op} (hop : s.opAt a r seq = some o) (hcomp : s.computeOn)
include hop hcomp

theorem exec_waitTimeout (hover : s.waitOver o) : exec (.waitTimeout a r seq) s = .next (s.completeOp { o with code := Code.TIMEOUT } .ok) := by
  show execWaitTimeout a r seq s = _
  rw [execWaitTimeout, hop]
  exact congrArg _ (if_pos ⟨hcomp, hover⟩)

/-- R422: an op whose outcome is decided has no slice left, so its record is taken at once. -/
theorem State.opComplete_done (hdone : o.phase = .done) (hsig : s.signalsHeld o = false) (how : DmaEnd) :
    s.opComplete a r seq how = s.completeOp o how := by
  have hlast : s.lastSlice o = s := if_neg (by simp [hdone])
  simp only [State.opComplete, hop, hlast]
  rw [if_pos ⟨hdone, hcomp, by simp [hsig]⟩]

theorem exec_opComplete (hdone : o.phase = .done) (hsig : s.signalsHeld o = false) : exec (.opComplete a r seq) s = .next (s.completeOp o .ok) := by
  show execOpComplete a r seq s = _
  rw [execOpComplete, State.opComplete_done hop hcomp hdone hsig]

/-- R434: the write of the record fails; one to device memory ends as the access does. -/
theorem exec_cplWriteFail {how : DmaEnd} (hfail : how ≠ .ok ∨ s.on (Reg.RING_CPL_BASE.LOC (ringIx a r))) (hdone : o.phase = .done)
    (hsig : s.signalsHeld o = false) : exec (.cplWriteFail a r seq how) s = .next (s.completeOp o how) := by
  show execCplWriteFail a r seq how s = _
  rw [execCplWriteFail, if_neg (by rintro ⟨hok, hhost⟩; rcases hfail with h | h <;> simp_all), State.opComplete_done hop hcomp hdone hsig]

/-- R428: what the clerk of its half makes of a paused op. -/
theorem exec_exceptionResolve {code : Nat} (hlisted : codeListed code) (hcode : code < 256) (hpaused : o.phase = .paused)
    (hclerk : s.clerkUp (4 + s.opHalf o)) (resume : Bool) : exec (.exceptionResolve a r seq resume code) s = .next (
      if resume ∧ !o.abort then (s.setOp o.run).refreshRing o.u
      else if resume then s
      else if code = Code.OK then s.endOk o 0 else s.cutOp o ⟨code, 0, 15⟩) := by
  show execExceptionResolve a r seq resume code s = _
  rw [execExceptionResolve, hop, Nat.mod_eq_of_lt hcode]
  exact congrArg _ (if_neg (by simp [hpaused, hcomp, hclerk, hlisted]))

end End

/-- Settles O48: a fetch that passes reaches admission, one that fails faults the ring; a finished op completes; a paused op resumes or ends as its
clerk says. -/
theorem admissionAndEnds : Obligations.AdmissionAndEnds := by
  unfold Obligations.AdmissionAndEnds
  refine ⟨fun s a r wr ha hr hfetch hon => ⟨fun bytes hhost => ?_, fun f hdev hlink hacc => ?_, fun f hf hhost => ?_⟩,
    fun s a r seq o hop => ⟨fun hcomp hover => exec_waitTimeout hop hcomp hover, fun hcomp hdone hsig => exec_opComplete hop hcomp hdone hsig,
      fun how hcomp hfail hdone hsig => exec_cplWriteFail hop hcomp hfail hdone hsig, fun code hcomp hlisted hcode hpaused hclerk => ?_⟩⟩
  · rw [exec_descriptorAdmit s ha hr, State.descriptorAdmit_host hfetch hon hhost]
  · rw [exec_descriptorAdmit s ha hr, State.descriptorAdmit_device hfetch hon hdev hlink hacc]
  · rw [exec_descriptorAdmit s ha hr, State.descriptorAdmit_failed hfetch hon hhost hf]
  · have hexec := fun resume => exec_exceptionResolve hop hcomp hlisted hcode hpaused hclerk resume
    refine ⟨fun hgo => ?_, fun hbad => ?_, fun hok => ?_⟩
    · rw [hexec true, if_pos ⟨rfl, by simp [hgo]⟩]
    · rw [hexec false, if_neg (by simp), if_neg (by simp), if_neg hbad]
    · rw [hexec false, if_neg (by simp), if_neg (by simp), if_pos hok]

end Sys2Proof.Machine
end

section
/-!
SUPPORT. Tallies: a write of the tally window (R436), and the ops NOP and TALLY_CAS (R415, R438).
-/
namespace Sys2Proof.Machine

/-! A change of a tally is seen by its watches, which move registers, vectors and outputs alone. -/

@[simp] theorem onlyRegisters_raiseVec (s t : State) (fn v : Nat) : OnlyRegisters s (t.raiseVec fn v) ↔ OnlyRegisters s t := by simp [OnlyRegisters]

@[simp] theorem onlyRegisters_fireWatch (s t : State) (u : Nat) : OnlyRegisters s (t.fireWatch u) ↔ OnlyRegisters s t := by
  unfold State.fireWatch
  split
  · simp
  · rfl

/-- The watches of a tally fire on the state that holds its new value. -/
theorem onlyRegisters_setTally (s : State) (i v : Nat) : OnlyRegisters { s with tallies := tblSet 0 s.tallies i (BitVec.ofNat 64 v) } (s.setTally i v) := by
  unfold State.setTally
  exact List.foldlRecOn (motive := OnlyRegisters _) _ _ (onlyRegisters_refl _) fun t ht u _ => (onlyRegisters_fireWatch _ t u).mpr ht

theorem State.tally_setTally (s : State) (i v j : Nat) : (s.setTally i v).tally j = if j = i then v % 2 ^ 64 else s.tally j := by
  obtain ⟨-, -, -, -, -, -, htallies, -⟩ := onlyRegisters_setTally s i v
  rw [State.tally, htallies, tblGet_set]
  split
  · exact BitVec.toNat_ofNat v 64
  · rfl

/-! The window. -/

section Window
variable {s : State} {fn idx : Nat} (hlive : s.fnLive fn) (hidx : idx < 262144) (howns : fn = 0 ∨ s.ownsTally fn idx)
include hlive hidx howns

theorem exec_tallyWrite (size v : Nat) : exec (.tallyWrite fn idx size v) s = .next (if size ≠ 8 then s.raise 0 2 else s.addTally idx (v % 2 ^ 64)) := by
  show execTallyWrite fn idx size v s = _
  rw [execTallyWrite, if_pos hlive, State.tallyWrite, if_neg (by rintro ⟨hfn, hout⟩; rcases howns with h | h <;> simp_all),
    if_neg (Nat.not_le.mpr hidx)]

theorem ends_tallyWrite_add {v : Nat} (hv : v < 2 ^ 64) : Ends (.tallyWrite fn idx 8 v) s fun t =>
    t.tally idx = (s.tally idx + v) % 2 ^ 64 ∧ (∀ j, j ≠ idx → t.tally j = s.tally j) ∧ t.fuses = s.fuses ∧ t.mem = s.mem ∧ t.vault = s.vault
      ∧ t.ops = s.ops := by
  have hexec := exec_tallyWrite hlive hidx howns 8 v
  rw [if_neg (by decide), Nat.mod_eq_of_lt hv] at hexec
  have hkeeps : OnlyRegisters _ (s.addTally idx v) := onlyRegisters_setTally s idx (s.tally idx + v)
  obtain ⟨hfuses, hmem, -, -, hvault, hops, -, -⟩ := hkeeps
  exact ⟨_, hexec, (State.tally_setTally s idx _ idx).trans (if_pos rfl), fun j hj => (State.tally_setTally s idx _ j).trans (if_neg hj), hfuses, hmem,
    hvault, hops⟩

end Window

/-! NOP and TALLY_CAS. -/

theorem exec_nop {s : State} {a r seq : Nat} {o : Op} (h : s.Issues a r seq 0x0001 o) :
    exec (.nop a r seq) s = .next (((s.begun o).endOk o.run 0).refreshRing o.u) := by
  show execNop a r seq s = _
  rw [execNop, State.issue_of_issues h]

theorem exec_tallyCas {s : State} {a r seq : Nat} {o : Op} (h : s.Issues a r seq 0x0002 o) :
    exec (.tallyCas a r seq) s = .next (((s.begun o).tallyCas o.run).refreshRing o.u) := by
  show execTallyCas a r seq s = _
  rw [execTallyCas, State.issue_of_issues h]

section Cas
variable (s : State) (o : Op)

/-- The state in which a TALLY_CAS reaches its tally: one of the other half is reached over the die link (R28). -/
def State.casReached (s : State) (o : Op) : State :=
  if tallyHome (descAt o.desc 0x40 4) = s.opHalf o then s else s.linkMessage (tallyHome (descAt o.desc 0x40 4))

/-- R438: a TALLY_CAS that reaches its tally swaps where it finds the expected value. -/
theorem State.tallyCas_reached (h : tallyHome (descAt o.desc 0x40 4) = s.opHalf o ∨ s.dlkUp) :
    s.tallyCas o = if s.tally (descAt o.desc 0x40 4) = descAt o.desc 0x48 8
      then ((s.casReached o).setTally (descAt o.desc 0x40 4) (descAt o.desc 0x50 8)).endOp o ⟨Code.OK, s.tally (descAt o.desc 0x40 4), 15⟩ 4096
      else (s.casReached o).endOp o ⟨Code.OK, s.tally (descAt o.desc 0x40 4), 15⟩ 0 := by
  have hreach : ¬ (tallyHome (descAt o.desc 0x40 4) ≠ s.opHalf o ∧ !s.dlkUp) := fun ⟨hfar, hdown⟩ => by simp [h.resolve_left hfar] at hdown
  unfold State.tallyCas State.casReached
  simp only [if_neg hreach, ne_eq, ite_not]

/-- R59: over a die link that is not UP no tally is reached. -/
theorem State.tallyCas_cut (hfar : tallyHome (descAt o.desc 0x40 4) ≠ s.opHalf o) (hdown : s.dlkUp = false) :
    s.tallyCas o = s.endCode o Code.LINK_NOT_READY := if_pos ⟨hfar, by simp [hdown]⟩

end Cas

/-- Settles O49: a 64-bit write sets the tally to its sum and every watch fires without touching a tally; a TALLY_CAS runs in the state its op begins
in, where it reaches its tally or finds the die link down. -/
theorem talliesAndPlainOps : Obligations.TalliesAndPlainOps := by
  unfold Obligations.TalliesAndPlainOps
  refine ⟨fun s fn idx v hlive hidx hv howns => ⟨ends_tallyWrite_add hlive hidx howns hv, exec_tallyWrite hlive hidx howns 4 v⟩,
    fun s a r seq o => ⟨exec_nop, ?_⟩⟩
  rintro h i old want t u rfl rfl rfl rfl rfl
  refine ⟨fun hreach heq => ?_, fun hreach hne => ?_, fun hfar hdown => ?_⟩
  · rw [exec_tallyCas h, State.tallyCas_reached _ o.run hreach]
    exact congrArg (fun t : State => Host.Outcome.next (t.refreshRing o.u)) (if_pos heq)
  · rw [exec_tallyCas h, State.tallyCas_reached _ o.run hreach]
    exact congrArg (fun t : State => Host.Outcome.next (t.refreshRing o.u)) (if_neg hne)
  · rw [exec_tallyCas h, State.tallyCas_cut _ o.run hfar hdown]

end Sys2Proof.Machine
end

section
/-!
SUPPORT. Ops of the tiles (R462-R469), and the commands of a tile: slice boundaries, scratch errors, power and CTL.ENABLE (R471-R480).
-/
namespace Sys2Proof.Machine

/-! Tile ops. -/

/-- A COPY passes, with no flag in DETAIL, whether it had work or none. -/
theorem State.tileCopy_passes (s : State) (o : Op) : (s.tileCopy o).fail = passed ∧ (s.tileCopy o).detail = 0 := by
  simp only [State.tileCopy]
  split
  · exact ⟨rfl, rfl⟩
  · exact ⟨rfl, rfl⟩

/-- What a tile op leaves: its result's state, with the outcome that the result decides. -/
def TileEnd.decided (e : TileEnd) (o : Op) : State := (e.st.decideOp o.run e.fail e.detail).refreshRing o.u

section TileOp
variable {s : State} {a r seq opcode : Nat} {o : Op} (h : s.Issues a r seq opcode o)
  (hf : (s.begunMem o).usesFault ((s.begunMem o).opHalf o.run) ((s.begunMem o).opUses o.run) = none)
include h hf

theorem exec_copy (hop : opcode = 0x0100) :
    exec (.copy a r seq) s = .next ((((s.begunMem o).tileCopy o.run).st.decideOp o.run passed 0).refreshRing o.u) := by
  obtain ⟨hfail, hdetail⟩ := State.tileCopy_passes (s.begunMem o) o.run
  subst hop
  show execCopy a r seq s = _
  rw [execCopy, State.tileOp_of_issues h hf, hfail, hdetail]

theorem exec_fill (hop : opcode = 0x0101) :
    exec (.fill a r seq) s = .next ((((s.begunMem o).tileFill o.run).st.decideOp o.run passed 0).refreshRing o.u) := by
  subst hop
  show execFill a r seq s = _
  rw [execFill, State.tileOp_of_issues h hf]
  rfl

theorem exec_quantise (hop : opcode = 0x0102) : exec (.quantise a r seq) s = .next (((s.begunMem o).tileQuantise o.run).decided o) := by
  subst hop
  show execQuantise a r seq s = _
  rw [execQuantise, State.tileOp_of_issues h hf, TileEnd.decided]

theorem exec_gather (hop : opcode = 0x0103) : exec (.gather a r seq) s = .next (((s.begunMem o).tileGather o.run).decided o) := by
  subst hop
  show execGather a r seq s = _
  rw [execGather, State.tileOp_of_issues h hf, TileEnd.decided]

theorem exec_gemm (hop : opcode = 0x0110) : exec (.gemm a r seq) s = .next (((s.begunMem o).tileGemm o.run).decided o) := by
  subst hop
  show execGemm a r seq s = _
  rw [execGemm, State.tileOp_of_issues h hf, TileEnd.decided]

theorem exec_eltwise (hop : opcode = 0x0120) : exec (.eltwise a r seq) s = .next (((s.begunMem o).tileEltwise o.run).decided o) := by
  subst hop
  show execEltwise a r seq s = _
  rw [execEltwise, State.tileOp_of_issues h hf, TileEnd.decided]

theorem exec_norm (hop : opcode = 0x0130) : exec (.norm a r seq) s = .next (((s.begunMem o).tileNorm o.run).decided o) := by
  subst hop
  show execNorm a r seq s = _
  rw [execNorm, State.tileOp_of_issues h hf, TileEnd.decided]

theorem exec_softmax (hop : opcode = 0x0131) : exec (.softmax a r seq) s = .next (((s.begunMem o).tileSoftmax o.run).decided o) := by
  subst hop
  show execSoftmax a r seq s = _
  rw [execSoftmax, State.tileOp_of_issues h hf, TileEnd.decided]

end TileOp

/-! Tiles. -/

section Tile
variable {s : State} {i : Nat} (hi : i < 48)
include hi

theorem exec_sliceBoundary (hcomp : s.computeOn) (hgo : s.tileWaits i = false) (exc : Bool) :
    exec (.sliceBoundary i exc) s = .next (s.sliceBoundary i exc) := by
  show execSliceBoundary i exc s = _
  rw [execSliceBoundary, if_pos ⟨hi, hcomp, by simp [hgo]⟩]

theorem exec_tileScratchError (hcomp : s.computeOn) (hgood : s.on (Reg.STA.FAULT (0x100 + i)) = false) :
    exec (.tileScratchError i) s = .next (s.scratchError i) := by
  show execTileScratchError i s = _
  rw [execTileScratchError, if_pos ⟨hi, hcomp, by simp [hgood]⟩]

theorem exec_tilePwrReq {q : Req} (hq : s.pf q) {v : Nat} (hv : v < 3) (hany : s.on (Reg.TIL_STA.URGENT_ONLY i) = false) :
    exec (.tilePwrReq q i v) s = .next ((s.wr (Reg.TIL_PWR_REQ.REQ i) v).tileSettle i) := by
  show execTilePwrReq q i v s = _
  rw [execTilePwrReq, if_neg (by simp [hq]; omega), if_neg (by simp [hany])]

theorem exec_tileWakeDone (hwake : s.rd (Reg.TIL_STA.STATE i) = 3) :
    exec (.tileWakeDone i) s = .next (((s.wr (Reg.TIL_STA.STATE i) 0).raise (0x100 + i) 0).tileSettle i) := by
  show execTileWakeDone i s = _
  rw [execTileWakeDone, if_pos ⟨hi, hwake⟩]

theorem exec_tileEnable {q : Req} (hq : s.pf q) (hlive : s.resetting (0x100 + i) = false) (hgood : s.on (Reg.STA.FAULT (0x100 + i)) = false)
    (on : Bool) : exec (.tileEnable q i on) s = .next ((s.wrb (Reg.CTL.ENABLE (0x100 + i)) on).tileSettle i) := by
  show execTileEnable q i on s = _
  rw [execTileEnable, if_pos ⟨.inl hq, hi, by simp [hlive], by simp [hgood]⟩]

end Tile

/-- Settles O50: an op of a tile that issues without a failing access decides what its result says, and each command of a tile that takes effect
answers its own operation. -/
theorem tileOpsAndTiles : Obligations.TileOpsAndTiles := by
  unfold Obligations.TileOpsAndTiles
  exact ⟨fun s a r seq opcode o h hf => ⟨exec_copy h hf, exec_fill h hf, exec_quantise h hf, exec_gather h hf, exec_gemm h hf, exec_eltwise h hf,
      exec_norm h hf, exec_softmax h hf⟩,
    fun s i hi => ⟨fun exc hcomp hgo => exec_sliceBoundary hi hcomp hgo exc, exec_tileScratchError hi, fun q v hq hv hany => exec_tilePwrReq hi hq hv hany,
      exec_tileWakeDone hi, fun q on hq hlive hgood => exec_tileEnable hi hq hlive hgood on⟩⟩

end Sys2Proof.Machine
end

section
/-!
SUPPORT. Group administration: what FAB answers to a request that passes its checks (R634-R637, R669-R671).
-/
namespace Sys2Proof.Machine

/-! The meanings, past their checks. -/

section Served
variable {s : State} {a p : Nat} {m : Jz}

/-- R670: a definition that passes becomes the PENDING version of its group. -/
theorem State.groupDefine_passed (hfields : s.groupFields a m.payload = Code.OK)
    (hcode : s.groupCode (fieldAt m.payload 0 2) (s.groupDescriptor m.payload) = Code.OK) (wr : DmaEnd) :
    s.groupDefine a p m wr
      = ({ s with groups :=
            tblSet default s.groups (fieldAt m.payload 0 2) { s.group (fieldAt m.payload 0 2) with pending := some (s.groupDescriptor m.payload) } } : State).reply
          a p m.typ Code.OK (leBytes 4 (s.groupDescriptor m.payload).rank ++ zeros 4) wr := by
  simp only [State.groupDefine, hfields, hcode]
  rw [if_neg (by decide), if_neg (by decide), if_neg (by decide), State.respond]

/-- R671: a promotion of groups with PENDING versions is staged and posted by FAB. -/
theorem State.groupPromote_passed {gs : List Nat} (hlen : m.payload.length = 48) (hflags : fieldAt m.payload 0 4 < 2) (hone : 1 ≤ fieldAt m.payload 4 4)
    (hmost : fieldAt m.payload 4 4 ≤ 16) (hgs : gs = (List.range (fieldAt m.payload 4 4)).map fun i => fieldAt m.payload (16 + 2 * i) 2)
    (hallowed : gs.all (s.groupAllowed a)) (hpending : gs.all fun g => (s.group g).pending.isSome) (hgroup : s.postGroup 0x280 = 9)
    (hfree : s.slotBusy 3 = false) (hidle : bit (s.rd Reg.GLB_POST_BUSY.GROUPS) 9 = false) (wr : DmaEnd) :
    s.groupPromote a p m wr
      = ((s.stagePromotes gs).busy a p m.typ wr).clerkPost .fab 3 512 (bit (fieldAt m.payload 0 4) 0) (fieldAt m.payload 8 8) ⟨a, p, true, true, 0, false, gs⟩ := by
  have hnone : ¬ (gs.any fun g => (s.group g).pending.isNone) := by
    simp only [List.all_eq_true, Option.isSome_iff_ne_none] at hpending
    simpa using hpending
  simp only [State.groupPromote, ← hgs]
  rw [if_neg (by omega), if_neg (by omega), if_neg (by simp only [hallowed]; decide), if_neg hnone, if_neg (by simp [hgroup, hfree, hidle]),
    if_neg (by simp [hgroup])]

/-- R637: a group that nothing uses is released, with the rosters kept for it. -/
theorem State.groupRelease_passed {g : Nat} (hlen : m.payload.length = 8) (hzero : fieldAt m.payload 2 6 = 0) (hg : fieldAt m.payload 0 2 = g)
    (hallowed : s.groupAllowed a g) (hunused : s.groupInUse g = false) (hstill : s.promoting g = false) (wr : DmaEnd) :
    s.groupRelease a p m wr
      = ({ s with groups := tblSet default s.groups g default, rosters := s.rosters.filter fun k => k.group ≠ g } : State).refreshGroups.reply a p m.typ
          Code.OK [] wr := by
  simp only [State.groupRelease, hg]
  rw [if_neg (by omega), if_neg (by simp [hallowed]), if_neg (by simp [hunused, hstill]), State.respond]

end Served

/-! The commands, while FAB runs. -/

section Commands
variable {s : State} {a p : Nat} {f : Fetch} {m : Jz} (hfab : s.clerkSt 3 = ClerkSt.RUNNING) (wr : DmaEnd)
include hfab

theorem exec_groupDefine (h : s.Asked a p 0x0070 f m) : exec (.groupDefine a p f wr) s = .next ((s.speak a p f).groupDefine a p m wr) := by
  show execGroupDefine a p f wr s = _
  rw [execGroupDefine, State.fabRequest_of_asked h hfab]

theorem exec_groupPromote (h : s.Asked a p 0x0071 f m) : exec (.groupPromote a p f wr) s = .next ((s.speak a p f).groupPromote a p m wr) := by
  show execGroupPromote a p f wr s = _
  rw [execGroupPromote, State.fabRequest_of_asked h hfab]

theorem exec_groupRelease (h : s.Asked a p 0x0072 f m) : exec (.groupRelease a p f wr) s = .next ((s.speak a p f).groupRelease a p m wr) := by
  show execGroupRelease a p f wr s = _
  rw [execGroupRelease, State.fabRequest_of_asked h hfab]

theorem exec_groupQuery (h : s.Asked a p 0x0073 f m) : exec (.groupQuery a p f wr) s = .next ((s.speak a p f).groupQuery a p m wr) := by
  show execGroupQuery a p f wr s = _
  rw [execGroupQuery, State.fabRequest_of_asked h hfab]

end Commands

/-- Settles O44: FAB runs each request on the state its pair speaks in, and the meaning of one that passes every check is the case in which nothing is
refused. -/
theorem groupAdministration : Obligations.GroupAdministration := by
  unfold Obligations.GroupAdministration
  refine fun s a p f m wr hfab => ⟨fun h hfields hcode => ?_, fun gs h hlen hflags hone hmost hgs hallowed hpending hgroup hfree hidle => ?_,
    fun g h hlen hzero hg hallowed hunused hstill => ?_, fun h _ _ _ => exec_groupQuery hfab wr h⟩
  · rw [exec_groupDefine hfab wr h, State.groupDefine_passed hfields hcode, State.typ_of_asked h]
  · rw [exec_groupPromote hfab wr h, State.groupPromote_passed hlen hflags hone hmost hgs hallowed hpending hgroup hfree hidle, State.typ_of_asked h]
  · rw [exec_groupRelease hfab wr h, State.groupRelease_passed hlen hzero hg hallowed hunused hstill, State.typ_of_asked h]

end Sys2Proof.Machine
end

section
/-!
SUPPORT. The ops that end a step: STEP_CLOSE, UPDATE, MIRROR and its restore, COMMIT, and the entry that SVC writes (R722-R741).
-/
namespace Sys2Proof.Machine

section Step
variable {s : State} {a r seq : Nat} {o : Op}

theorem exec_stepClose (h : s.Issues a r seq 0x0601 o) : exec (.stepClose a r seq) s = .next (((s.begunMem o).stepClose o.run).refreshRing o.u) := by
  show execStepClose a r seq s = _
  rw [execStepClose, State.issueMem_of_issues h]

theorem exec_update (h : s.Issues a r seq 0x0600 o) : exec (.update a r seq) s = .next (((s.begunMem o).update o.run).refreshRing o.u) := by
  show execUpdate a r seq s = _
  rw [execUpdate, State.issueMem_of_issues h]

/-- R733: a MIRROR runs under the row of its form, which FLAGS bit 0 of its descriptor tells. -/
theorem State.mirrorOp_of_issues (h : s.Issues a r seq 0x0602 o) {restore : Bool} (hform : bit (descAt o.desc 0x58 1) 0 = restore)
    (run : State → Op → State) : s.mirrorOp a r seq restore run = (run (s.begunMem o) o.run).refreshRing o.u := by
  have hop : s.opAt a r seq = some o := h.1
  rw [State.mirrorOp, hop]
  exact (if_pos hform).trans (State.issueMem_of_issues h run)

theorem exec_mirror (h : s.Issues a r seq 0x0602 o) (hform : bit (descAt o.desc 0x58 1) 0 = false) :
    exec (.mirror a r seq) s = .next (((s.begunMem o).mirror o.run).refreshRing o.u) := by
  show execMirror a r seq s = _
  rw [execMirror, State.mirrorOp_of_issues h hform]

theorem exec_mirrorRestore (h : s.Issues a r seq 0x0602 o) (hform : bit (descAt o.desc 0x58 1) 0 = true) :
    exec (.mirrorRestore a r seq) s = .next (((s.begunMem o).mirrorRestore o.run).refreshRing o.u) := by
  show execMirrorRestore a r seq s = _
  rw [execMirrorRestore, State.mirrorOp_of_issues h hform]

theorem exec_commit (h : s.Issues a r seq 0x0603 o) : exec (.commit a r seq) s = .next (((s.begunMem o).commitOp o.run).refreshRing o.u) := by
  show execCommit a r seq s = _
  rw [execCommit, State.issueMem_of_issues h]

/-- R739: SVC writes the oldest queued commit. -/
theorem exec_commitWrite {c : Commit} {rest : List Commit} (hqueue : s.commits = c :: rest) (hsvc : s.svcUp) :
    exec .commitWrite s = .next (s.writeCommit c) := by
  show execCommitWrite s = _
  rw [execCommitWrite, hqueue]
  exact congrArg _ (if_pos hsvc)

end Step

/-- Settles O60: each op of a step runs its own meaning in the state it begins in, a MIRROR that of its form, and SVC writes the commit at the head of
the queue. -/
theorem stepOps : Obligations.StepOps := by
  unfold Obligations.StepOps
  exact fun s a r seq o => ⟨exec_stepClose, exec_update, exec_mirror, exec_mirrorRestore, exec_commit, fun c rest hqueue hsvc => exec_commitWrite hqueue hsvc⟩

end Sys2Proof.Machine
end

section
/-!
SUPPORT. Global time: Sync, Pdelay and Announce on a node with a master, the loss of Syncs, and the step and rate of FAB (R614-R617).
-/
namespace Sys2Proof.Machine

/-! A node with a master. -/

section Slaved
variable {s : State} (hslave : s.slaved)
include hslave

theorem exec_sync (off : Int) : exec (.sync off) s = .next (s.syncOffset off) := by
  show execSync off s = _
  rw [execSync, if_pos hslave]

theorem exec_pdelay (d : Nat) : exec (.pdelay d) s = .next (s.wr Reg.TSY_DELAY.DELAY d) := by
  show execPdelay d s = _
  rw [execPdelay, if_pos hslave]

theorem exec_announce (synced : Bool) : exec (.announce synced) s = .next (
    if synced then s.wrb Reg.TSY_STA.MASTER_SYNCED synced else (s.wrb Reg.TSY_STA.MASTER_SYNCED synced).setSynced false) := by
  show execAnnounce synced s = _
  rw [execAnnounce, if_neg (by simp [hslave])]

end Slaved

/-! The loss of Syncs. -/

/-- Only SYNCED, its mirror and the events of the TSY page change, and nothing but registers, when a node is to be no longer SYNCED. -/
theorem State.setSynced_false_keeps (s : State) (hgood : s.goodOffsets = 0) : OnlyRegisters s (s.setSynced false) ∧ (s.setSynced false).goodOffsets = 0
    ∧ (s.setSynced false).timeFine = s.timeFine := by
  unfold State.setSynced
  split
  · exact ⟨onlyRegisters_refl s, hgood, rfl⟩
  · exact ⟨(onlyRegisters_raise _ _ _ _).mpr (onlyRegisters_refl s), by simp, by simp⟩

theorem State.rd_goodOffsets (s : State) (ever : Bool) (n : Nat) (f : Fld) : ({ s with everSynced := ever, goodOffsets := n } : State).rd f = s.rd f := rfl

theorem State.on_synced_setSynced (s : State) (b : Bool) : (s.setSynced b).on Reg.TSY_STA.SYNCED = b := by
  unfold State.setSynced
  split
  next hsame => exact hsame
  next =>
    have hsynced : ((s.wrb Reg.TSY_STA.SYNCED b).wrb Reg.GLB_TIME_FRAC.SYNCED b).on Reg.TSY_STA.SYNCED = b := by
      rw [State.on_wrb_apart _ _ _ _ (by decide) (by decide), State.on_wrb _ _ _ (by decide) (by decide)]
    rw [State.on_raise _ _ _ _ (by decide), State.on, State.rd_goodOffsets]
    exact hsynced

theorem State.rd_setSynced (s : State) (b : Bool) {f : Fld} (hsynced : f.key ≠ Reg.TSY_STA.SYNCED.key ∨ Reg.TSY_STA.SYNCED.apart f = true)
    (hfrac : f.key ≠ Reg.GLB_TIME_FRAC.SYNCED.key) (hraw : f.key ≠ 0x261010) (hwide : f.lo + f.width ≤ 64) : (s.setSynced b).rd f = s.rd f := by
  unfold State.setSynced
  split
  · rfl
  · rw [State.rd_raise _ _ _ _ hraw, State.rd_goodOffsets, State.wrb, State.rd_wr_key _ _ _ _ hfrac, State.wrb,
      State.rd_wr_apart _ _ _ _ hsynced hwide]

/-- R616: eight Syncs are missed; the node holds over, and its good offsets count from 0 again. -/
def State.syncLost (s : State) : State :=
  let t := s.count Reg.TSY_CNT.SYNC_MISS 8
  let t := if t.on Reg.TSY_STA.HOLDOVER then t else (t.wrb Reg.TSY_STA.HOLDOVER true).raise 0x261 3
  { t with goodOffsets := 0 }

theorem State.on_holdover_syncLost (s : State) : s.syncLost.on Reg.TSY_STA.HOLDOVER = true := by
  show State.on (if _ then _ else _) _ = true
  split
  next hon => exact hon
  next => rw [State.on_raise _ _ _ _ (by decide), State.on_wrb _ _ _ (by decide) (by decide)]

theorem State.rd_miss_syncLost (s : State) : s.syncLost.rd Reg.TSY_CNT.SYNC_MISS = min (s.rd Reg.TSY_CNT.SYNC_MISS + 8) 0xFFFF := by
  have hcount : (s.count Reg.TSY_CNT.SYNC_MISS 8).rd Reg.TSY_CNT.SYNC_MISS = min (s.rd Reg.TSY_CNT.SYNC_MISS + 8) 0xFFFF := State.rd_count _ _ _ (by decide)
  show State.rd (if _ then _ else _) _ = _
  split
  · exact hcount
  · rw [State.rd_raise _ _ _ _ (by decide), State.wrb, State.rd_wr_key _ _ _ _ (by decide), hcount]

theorem State.syncLost_keeps (s : State) : OnlyRegisters s s.syncLost ∧ s.syncLost.timeFine = s.timeFine := by
  unfold State.syncLost
  simp only
  split
  · exact ⟨onlyRegisters_refl s, rfl⟩
  · exact ⟨(onlyRegisters_raise _ _ _ _).mpr (onlyRegisters_refl s), by simp [State.count]⟩

theorem exec_syncMiss {s : State} (h : s.role ≠ Role.ROOT) : exec .syncMiss s = .next (s.syncLost.setSynced false) := by
  show execSyncMiss s = _
  rw [execSyncMiss, if_neg h, State.syncLost]

theorem ends_syncMiss {s : State} (h : s.role ≠ Role.ROOT) : Ends .syncMiss s fun t =>
    t.on Reg.TSY_STA.SYNCED = false ∧ t.on Reg.TSY_STA.HOLDOVER ∧ t.goodOffsets = 0
      ∧ t.rd Reg.TSY_CNT.SYNC_MISS = min (s.rd Reg.TSY_CNT.SYNC_MISS + 8) 0xFFFF ∧ t.timeFine = s.timeFine ∧ OnlyRegisters s t := by
  obtain ⟨hregs, hgood, htime⟩ := State.setSynced_false_keeps s.syncLost rfl
  obtain ⟨hlost, htime'⟩ := State.syncLost_keeps s
  refine ⟨_, exec_syncMiss h, State.on_synced_setSynced _ _, ?_, hgood, ?_, htime.trans htime', ?_⟩
  · have hrd : (s.syncLost.setSynced false).rd Reg.TSY_STA.HOLDOVER = s.syncLost.rd Reg.TSY_STA.HOLDOVER :=
      State.rd_setSynced _ _ (by decide) (by decide) (by decide) (by decide)
    rw [State.on, hrd]
    exact State.on_holdover_syncLost s
  · exact (State.rd_setSynced _ _ (by decide) (by decide) (by decide) (by decide)).trans (State.rd_miss_syncLost s)
  · obtain ⟨h1, h2, h3, h4, h5, h6, h7, h8⟩ := hlost
    obtain ⟨g1, g2, g3, g4, g5, g6, g7, g8⟩ := hregs
    exact ⟨g1.trans h1, g2.trans h2, g3.trans h3, g4.trans h4, g5.trans h5, g6.trans h6, g7.trans h7, g8.trans h8⟩

/-! A master's Syncs, and FAB's step and rate. -/

theorem exec_syncTimer_master {s : State} {p : Nat} (hport : s.portPresent p) (hcomp : s.computeOn) (hup : s.portUp p) (hmaster : s.masterPort p) :
    exec (.syncTimer p false) s = .next (s.sendFrame p Frame.SYNC s.now 0) := by
  show execSyncTimer p false s = _
  rw [execSyncTimer, if_neg (by simp [State.present, hport, hcomp, hup]), if_neg (by decide), if_pos hmaster]

section Fab
variable {s : State} (hfab : s.reqLive .fab)
include hfab

theorem exec_tsyStep_first (hnew : s.everSynced = false) (ns : Int) : exec (.tsyStep .fab ns) s = .next ((s.stepTime ns).wrb Reg.TSY_STA.TIME_SET true) := by
  show execTsyStep .fab ns s = _
  rw [execTsyStep, if_neg (by simp [hfab, hnew])]

theorem exec_tsyRate {rate : Int} (hrate : rate.natAbs ≤ 549755813) : exec (.tsyRate .fab rate) s = .next (s.wr Reg.TSY_RATE.RATE (rate % 2 ^ 32).toNat) := by
  show execTsyRate .fab rate s = _
  rw [execTsyRate, if_pos ⟨rfl, hfab, hrate⟩]

end Fab

/-- R615: once it was SYNCED, a node's time is not stepped back. -/
theorem exec_tsyStep_back {s : State} (hsynced : s.everSynced) {ns : Int} (hback : ns < 0) : exec (.tsyStep .fab ns) s = .next s := by
  show execTsyStep .fab ns s = _
  rw [execTsyStep, if_pos (.inr (.inr ⟨hsynced, .inl hback⟩))]

/-- Settles O58: each message of a master is taken while the node has one; missed Syncs end SYNCED and start the holdover; a master port sends its
Sync; FAB steps a time that was never SYNCED, and sets the rate. -/
theorem globalTime : Obligations.GlobalTime := by
  unfold Obligations.GlobalTime
  exact fun s => ⟨fun off h => exec_sync h off, fun d h _ => exec_pdelay h d, fun h => exec_announce h true, fun h => exec_announce h false, ends_syncMiss,
    fun p hport hcomp hup hmaster => exec_syncTimer_master hport hcomp hup hmaster, fun ns hfab hnew => exec_tsyStep_first hfab hnew ns,
    fun ns _ hsynced hback => exec_tsyStep_back hsynced hback, fun rate hfab hrate => exec_tsyRate hfab hrate⟩

end Sys2Proof.Machine
end

section
/-!
SUPPORT. Collective and MINT ops and the messages, rosters and timeouts of their steps (R642, R643, R656, R657, R660, R665-R667, R690).
-/
namespace Sys2Proof.Machine

/-! Issue. -/

/-- R643: an op whose group has an issue slot starts its step. -/
theorem State.collIssue_of_issues {s : State} {a r seq opcode : Nat} {o : Op} (h : s.Issues a r seq opcode o)
    (hslot : (s.begunMem o).groupFull o.run (s.begunMem o).ops = false) :
    s.collIssue a r seq opcode = ((s.begunMem o).collStart o.run).refreshRing o.u := by
  rw [State.collIssue, State.issueMem_of_issues h]
  exact congrArg (State.refreshRing · o.u) (if_neg (by simp [hslot]))

section Issue
variable {s : State} {a r seq opcode : Nat} {o : Op} (h : s.Issues a r seq opcode o)
  (hslot : (s.begunMem o).groupFull o.run (s.begunMem o).ops = false)
include h hslot

theorem exec_allReduce (hop : opcode = 0x0400) : exec (.allReduce a r seq) s = .next (((s.begunMem o).collStart o.run).refreshRing o.u) := by
  subst hop
  exact congrArg Host.Outcome.next (State.collIssue_of_issues h hslot)

theorem exec_reduceScatter (hop : opcode = 0x0401) : exec (.reduceScatter a r seq) s = .next (((s.begunMem o).collStart o.run).refreshRing o.u) := by
  subst hop
  exact congrArg Host.Outcome.next (State.collIssue_of_issues h hslot)

theorem exec_allGather (hop : opcode = 0x0402) : exec (.allGather a r seq) s = .next (((s.begunMem o).collStart o.run).refreshRing o.u) := by
  subst hop
  exact congrArg Host.Outcome.next (State.collIssue_of_issues h hslot)

theorem exec_broadcast (hop : opcode = 0x0403) : exec (.broadcast a r seq) s = .next (((s.begunMem o).collStart o.run).refreshRing o.u) := by
  subst hop
  exact congrArg Host.Outcome.next (State.collIssue_of_issues h hslot)

theorem exec_allToAll (hop : opcode = 0x0404) : exec (.allToAll a r seq) s = .next (((s.begunMem o).collStart o.run).refreshRing o.u) := by
  subst hop
  exact congrArg Host.Outcome.next (State.collIssue_of_issues h hslot)

theorem exec_mint (hop : opcode = 0x0500) : exec (.mint a r seq) s = .next (((s.begunMem o).collStart o.run).refreshRing o.u) := by
  subst hop
  exact congrArg Host.Outcome.next (State.collIssue_of_issues h hslot)

end Issue

/-- R643: a held op starts its step when no op before it and no full group holds it any more. -/
theorem exec_collIssueUnblock {s : State} {a r seq : Nat} {o : Op} (hop : s.opAt a r seq = some o) (hheld : o.phase = .held) (hgroup : o.group.isSome)
    (hslot : s.groupFull o (s.ops.takeWhile fun x => !x.is o.acct o.ring o.seq) = false) (hcomp : s.computeOn) :
    exec (.collIssueUnblock a r seq) s = .next (((s.setOp o.run).collStart o.run).refreshRing o.u) := by
  have hnone : o.group.isNone = false := by rw [← Option.not_isSome, hgroup]; rfl
  show execCollIssueUnblock a r seq s = _
  rw [execCollIssueUnblock, hop]
  simp only [State.collUnblock]
  rw [if_neg (by simp [hheld, hnone, hslot, hcomp]), Op.run]

/-! Messages. -/

section Message
variable {s : State} {m : CollMsg} (hcomp : s.computeOn)
include hcomp

/-- R666: a message of its own stage that passes the checks and whose step is issued is taken by it. -/
theorem State.collStage_taken {stage : Nat} (hstage : m.stage = stage) (hok : s.collCheck m = Code.OK) {st : CollStep}
    (hst : s.collStepOf m = some st) (n : Nat) : s.collStage stage m n = (s.collTake st m n s.uptime).collSettle := by
  rw [State.collStage, if_pos ⟨hcomp, hstage⟩, State.collArrive, if_neg (by simp [hok]), hst]

/-- R666: one that fails a check is answered. -/
theorem State.collStage_answered {stage : Nat} (hstage : m.stage = stage) (hbad : s.collCheck m ≠ Code.OK) (n : Nat) :
    s.collStage stage m n = s.collAnswer m (s.collCheck m) := by
  rw [State.collStage, if_pos ⟨hcomp, hstage⟩, State.collArrive, if_pos hbad]

end Message

/-! Rosters and timeouts. -/

section Timeouts
variable {s : State} {a r seq : Nat} {st : CollStep} (hst : s.stepAt a r seq = some st) (hcomp : s.computeOn)
include hst hcomp

theorem exec_rosterDecide : exec (.rosterDecide a r seq) s = .next ((s.collDecide st).collSettle) := by
  show execRosterDecide a r seq s = _
  rw [execRosterDecide, hst]
  exact congrArg _ (if_pos hcomp)

theorem exec_collTimeout (hpast : st.issued + st.ver.timeout * 1000000 ≤ s.uptime) :
    exec (.collTimeout a r seq) s = .next (s.collFail st Code.TIMEOUT 0) := by
  show execCollTimeout a r seq s = _
  simp only [execCollTimeout, hst]
  rw [if_pos ⟨hpast, hcomp⟩]

end Timeouts

/-- R667: the one early message goes when it has waited its group's timeout. -/
theorem exec_earlyArrivalExpiry {s : State} {m : CollMsg} {at_ rf : Nat} {v : GroupVer} (hearly : s.early = [(m, at_, rf)])
    (hver : s.msgVersion m = some v) (hpast : at_ + v.timeout * 1000000 ≤ s.uptime) :
    exec (.earlyArrivalExpiry (m.group % 2)) s = .next ({ s with early := [] } : State).refreshEarly := by
  show execEarlyArrivalExpiry (m.group % 2) s = _
  simp [execEarlyArrivalExpiry, hearly, hver, hpast]

/-- R657: the one kept roster goes when its group's timeout has passed since its step completed. -/
theorem exec_rosterRetentionExpiry {s : State} {k : KeptRoster} {d : Nat} (hrosters : s.rosters = [k]) (hdone : k.doneAt = some d)
    (hpast : d + k.timeout * 1000000 ≤ s.uptime) :
    exec (.rosterRetentionExpiry k.group k.epoch k.step) s = .next { s with rosters := [] } := by
  have hover : (k.doneAt.any fun t => decide (t + k.timeout * 1000000 ≤ s.uptime)) = true := by
    rw [hdone, Option.any_some]
    exact decide_eq_true hpast
  show execRosterRetentionExpiry k.group k.epoch k.step s = _
  rw [execRosterRetentionExpiry, hrosters, List.filter_cons_of_neg (by simp [hover]), List.filter_nil]

/-- Settles O59: an op with an issue slot starts its step, a message that passes its checks is taken by its step, and each expiry ends what waited too
long. -/
theorem collectives : Obligations.Collectives := by
  unfold Obligations.Collectives
  refine ⟨fun s a r seq opcode o => ⟨fun h hslot => ⟨exec_allReduce h hslot, exec_reduceScatter h hslot, exec_allGather h hslot, exec_broadcast h hslot,
      exec_allToAll h hslot, exec_mint h hslot⟩, fun hop hheld hgroup hslot hcomp => exec_collIssueUnblock hop hheld hgroup hslot hcomp⟩,
    fun s m n hcomp => ⟨fun st hok hst => ?_, fun hstage hbad => congrArg Host.Outcome.next (State.collStage_answered hcomp hstage hbad n)⟩,
    fun s a r seq st => ⟨exec_rosterDecide, exec_collTimeout, fun m at_ rf v => exec_earlyArrivalExpiry, fun k d => exec_rosterRetentionExpiry⟩⟩
  have htaken : ∀ {stage} n, m.stage = stage → Host.Outcome.next (s.collStage stage m n) = (.next ((s.collTake st m n s.uptime).collSettle) : Result) :=
    fun n hstage => congrArg Host.Outcome.next (State.collStage_taken hcomp hstage hok hst n)
  exact ⟨htaken 0, htaken 0, htaken 0, htaken n, htaken n, htaken 0⟩

end Sys2Proof.Machine
end

section
/-!
SUPPORT. Folio ops, partial attention and FOL_QUERY (R540-R568).
-/
namespace Sys2Proof.Machine

/-! Ops that issue. -/

section Issue
variable {s : State} {a r seq opcode : Nat} {o : Op} (h : s.Issues a r seq opcode o)
  (hfree : (s.begunMem o).folioBlocked o.run (s.begunMem o).ops = false)
include h hfree

theorem exec_folioOpen (hop : opcode = 0x0200) : exec (.folioOpen a r seq) s = .next (((s.begunMem o).folioOpen o.run).refreshRing o.u) := by
  subst hop
  exact congrArg Host.Outcome.next (State.folioOp_of_issues h hfree State.folioOpen)

theorem exec_folioClose (hop : opcode = 0x0201) : exec (.folioClose a r seq) s = .next (((s.begunMem o).folioClose o.run).refreshRing o.u) := by
  subst hop
  exact congrArg Host.Outcome.next (State.folioOp_of_issues h hfree State.folioClose)

theorem exec_appendKv (hop : opcode = 0x0202) : exec (.appendKv a r seq) s = .next (((s.begunMem o).appendKv o.run).refreshRing o.u) := by
  subst hop
  exact congrArg Host.Outcome.next (State.folioOp_of_issues h hfree State.appendKv)

theorem exec_attend (hop : opcode = 0x0203) : exec (.attend a r seq) s = .next (((s.begunMem o).attend o.run).refreshRing o.u) := by
  subst hop
  exact congrArg Host.Outcome.next (State.folioOp_of_issues h hfree State.attend)

theorem exec_folioLink (hop : opcode = 0x0204) : exec (.folioLink a r seq) s = .next (((s.begunMem o).folioLink o.run).refreshRing o.u) := by
  subst hop
  exact congrArg Host.Outcome.next (State.folioOp_of_issues h hfree State.folioLink)

end Issue

/-! Ops that waited. -/

/-- The meaning of a folio op by its opcode. -/
def State.folioRun (s : State) (o : Op) : State :=
  if o.opcode = 0x0200 then s.folioOpen o else if o.opcode = 0x0201 then s.folioClose o else if o.opcode = 0x0202 then s.appendKv o
  else if o.opcode = 0x0203 then s.attend o else s.folioLink o

theorem Op.opcode_run (o : Op) : o.run.opcode = o.opcode := rfl

/-- An op that waited runs once nothing excludes it and its operands are ready. -/
theorem exec_folioOpUnblock {s : State} {a r seq : Nat} {o : Op} (hop : s.opAt a r seq = some o) (hcomp : s.computeOn) (hheld : o.phase = .held)
    (hfree : s.folioBlocked o (s.ops.takeWhile fun x => !x.is o.acct o.ring o.seq) = false)
    (hready : ((s.opUses o).any fun u => s.extentBusy (s.opHalf o) u.opd) = false) (hfolio : isFolioOp o) :
    exec (.folioOpUnblock a r seq) s = .next (((s.setOp o.run).folioRun o.run).refreshRing o.u) := by
  show execFolioOpUnblock a r seq s = _
  rw [execFolioOpUnblock, hop]
  simp only [State.folioUnblock]
  rw [if_neg (by rw [hready, hfree]; simp [hcomp, hheld, hfolio])]
  rfl

theorem isFolioOp_of_opcode {o : Op} {n : Nat} (hop : o.opcode = n) (hlo : 0x0200 ≤ n) (hhi : n ≤ 0x0204) : isFolioOp o := by
  simp [isFolioOp, hop, hlo, hhi]

/-! Partial attention and FOL_QUERY. -/

section Requests
variable {s : State} (hcomp : s.computeOn)
include hcomp

/-- R566: a peer's request is served by the half that holds its folio, and its response goes back over the transport. -/
theorem exec_partReq_peer {m : PartReq} (hpeer : m.peer) (href : m.ref < 1024) :
    exec (.partReq m) s = .next (
      (if (s.servePart m).code = Code.OK then
          (s.countWrap (Reg.FOL_PART_RX.COUNT (m.ref / 512)) 1).noteFault ((s.servePart m).code, (s.servePart m).info) false Source.FABRIC (s.folio m.ref).acct
        else (((s.countWrap (Reg.FOL_PART_RX.COUNT (m.ref / 512)) 1).noteFault ((s.servePart m).code, (s.servePart m).info) false Source.FABRIC
          (s.folio m.ref).acct).count (Reg.FOL_REFUSED.COUNT (m.ref / 512)) 1).raise (0x1C0 + m.ref / 512) 2).sendMsg
        { fabMsg m.srcNode 6 Kind.PART_RSP (s.folio m.ref).acct 0 (partRspBytes (s.servePart m)) none with
          status := (s.servePart m).code, reqSeq := m.reqSeq, value := (s.servePart m).info, half := some (m.ref / 512) }) := by
  show execPartReq m s = _
  rw [execPartReq, if_pos ⟨hcomp, .inl hpeer⟩]
  simp only [State.partReq, if_pos hpeer, if_pos href]

theorem exec_partRsp {n : Nat} (m : PartRsp) (hfree : (s.requests.any fun r => r.chan = 1 && r.seq = n && s.rspHeld r) = false) :
    exec (.partRsp n m) s = .next (s.partRsp n m) := by
  show execPartRsp n m s = _
  rw [execPartRsp, if_pos ⟨hcomp, by rw [hfree]; rfl⟩]

end Requests

theorem exec_folQuery {s : State} {q : Req} (hq : s.direct q) {h : Nat} (hh : h < 2) (v : Nat) : exec (.folQuery q h v) s = .next (s.folQuery h v) := by
  show execFolQuery q h v s = _
  rw [execFolQuery, if_pos ⟨hq, hh⟩]

/-- Settles O54: a folio op that nothing excludes runs its own meaning, at issue or after it waited; a peer's request is served and answered; a response
is taken, and FOL_QUERY answers. -/
theorem folioOps : Obligations.FolioOps := by
  unfold Obligations.FolioOps
  refine ⟨fun s a r seq opcode o => ⟨fun h hfree => ⟨exec_folioOpen h hfree, exec_folioClose h hfree, exec_appendKv h hfree, exec_attend h hfree,
      exec_folioLink h hfree⟩, fun hop hcomp hheld hfree hready => ?_⟩,
    fun s hcomp => ⟨?_, fun n m hfree => exec_partRsp hcomp m hfree, fun q h v hq hh => exec_folQuery hq hh v⟩⟩
  · have hexec := exec_folioOpUnblock hop hcomp hheld hfree hready
    refine ⟨fun hcode => ?_, fun hcode => ?_, fun hcode => ?_, fun hcode => ?_, fun hcode => ?_⟩
    all_goals
      rw [hexec (isFolioOp_of_opcode hcode (by decide) (by decide)), State.folioRun, Op.opcode_run, hcode]
      rfl
  · rintro m p half t r hpeer href rfl rfl rfl rfl
    refine ⟨fun hok => ?_, fun hbad => ?_⟩
    · rw [exec_partReq_peer hcomp hpeer href, if_pos hok]
    · rw [exec_partReq_peer hcomp hpeer href, if_neg hbad]

end Sys2Proof.Machine
end

section
/-!
SUPPORT. Fabric transfers, whole messages at their target, and responses at their requester (R606-R613).
-/
namespace Sys2Proof.Machine

section Transfer
variable {s : State} {a r seq : Nat} {o : Op}

theorem exec_fabWrite (h : s.Issues a r seq 0x0300 o) : exec (.fabWrite a r seq) s = .next (((s.begunMem o).fabWrite o.run).refreshRing o.u) := by
  show execFabWrite a r seq s = _
  rw [execFabWrite, State.issueMem_of_issues h]

theorem exec_fabRead (h : s.Issues a r seq 0x0301 o) : exec (.fabRead a r seq) s = .next (((s.begunMem o).fabRead o.run).refreshRing o.u) := by
  show execFabRead a r seq s = _
  rw [execFabRead, State.issueMem_of_issues h]

end Transfer

/-! Whole messages. -/

section Message
variable {s t : State} {src first : Nat} {m : RxMsg} (hcomp : s.computeOn)
include hcomp

theorem exec_write (hmsg : s.takeMsg Kind.WRITE src first = some (m, t)) : exec (.write src first) s = .next (t.writeWhole m) := by
  show execWrite src first s = _
  rw [execWrite, if_pos hcomp, hmsg]

theorem exec_readReq (hmsg : s.takeMsg Kind.READ_REQ src first = some (m, t)) (hgo : s.readHeld m = false) :
    exec (.readReq src first) s = .next (t.readWhole m) := by
  show execReadReq src first s = _
  rw [execReadReq, if_pos hcomp, hmsg]
  exact congrArg _ (if_neg (by simp [hgo]))

theorem exec_readRsp_answers {q : FabReq} {u : State} (hmsg : s.takeMsg Kind.READ_RSP src first = some (m, t)) (hreq : t.takeRequest m = some (q, u))
    (hgo : s.rspHeld q = false) : exec (.readRsp src first) s = .next (u.readDone q m) := by
  show execReadRsp src first s = _
  rw [execReadRsp, if_neg (by simp [hcomp]), hmsg]
  simp only [hreq]
  rw [if_neg (by simp [hgo])]

theorem exec_readRsp_late (hmsg : s.takeMsg Kind.READ_RSP src first = some (m, t)) (hreq : t.takeRequest m = none) :
    exec (.readRsp src first) s = .next t.lateResponse := by
  show execReadRsp src first s = _
  rw [execReadRsp, if_neg (by simp [hcomp]), hmsg]
  simp only [hreq]

theorem exec_writeDone_answers {q : FabReq} {u : State} (hmsg : s.takeMsg Kind.WRITE_DONE src first = some (m, t))
    (hreq : t.takeRequest m = some (q, u)) : exec (.writeDone src first) s = .next (u.writeEnded q m) := by
  show execWriteDone src first s = _
  rw [execWriteDone, if_neg (by simp [hcomp]), hmsg]
  simp only [hreq]

end Message

theorem exec_control {s t : State} {src first : Nat} {m : RxMsg} (hfab : s.clerkUp 3) (hmsg : s.takeMsg Kind.CONTROL src first = some (m, t)) :
    exec (.control src first) s = .next t := by
  show execControl src first s = _
  rw [execControl, if_pos hfab, hmsg]

/-! The request timeout. -/

/-- R613: the op's one outstanding request is over, counted and answered PEER_LOST, when it has waited the request timeout. -/
theorem exec_fabricReqTimeout_one {s : State} {a r seq : Nat} {q : FabReq} (hqueue : s.queuedOf (a, r, seq) = []) (hreqs : s.requests = [q])
    (howner : q.owner = (a, r, seq)) (hpast : q.entered + s.reqTimeout ≤ s.uptime) :
    exec (.fabricReqTimeout a r seq) s = .next ((((({ s with requests := [] } : State).count Reg.XPT_TIMEOUT.COUNT 1).raise 0x260 0).failOwner (a, r, seq)
      q.tag Code.PEER_LOST (peerInfo q.dst q.port) q.retx)) := by
  show execFabricReqTimeout a r seq s = _
  simp only [execFabricReqTimeout, hqueue, List.any_nil, Bool.false_eq_true, if_false]
  rw [hreqs, List.filter_cons_of_pos (by simpa using ⟨howner, hpast⟩), List.filter_nil, List.foldl_cons, List.foldl_nil, hreqs,
    List.filter_cons_of_neg (by simp [howner]), List.filter_nil]

/-- Settles O55: a transfer runs in the transport; a whole message is taken and handed on, a response to the request that it answers; and the one request
of an op that waited too long fails it. -/
theorem fabricMessages : Obligations.FabricMessages := by
  unfold Obligations.FabricMessages
  exact ⟨fun s a r seq o => ⟨exec_fabWrite, exec_fabRead⟩,
    fun s t src first m hcomp => ⟨exec_write hcomp, exec_readReq hcomp, fun q u => exec_readRsp_answers hcomp, exec_readRsp_late hcomp,
      fun q u => exec_writeDone_answers hcomp, exec_control, fun a r seq q => exec_fabricReqTimeout_one⟩⟩

end Sys2Proof.Machine
end

section
/-!
SUPPORT. Fabric ports: what CTL.ENABLE, RETRAIN, training, lanes, signals, HELLOs and their limits answer on a present port (R581-R589).
-/
namespace Sys2Proof.Machine

/-- CTL.ENABLE and the state of a port lie in different registers. -/
theorem State.portSt_enabled (s : State) (p : Nat) (b : Bool) : (s.wrb (Reg.CTL.ENABLE (0x240 + p)) b).portSt p = s.portSt p :=
  State.rd_wr_key _ _ _ _ (by simp only [Reg.FPT_STA.STATE, Reg.CTL.ENABLE]; omega)

section Port
variable {s : State} {p : Nat} (hport : s.portPresent p) (hcomp : s.computeOn)
include hport

theorem State.lt_of_portPresent : p < 18 := by
  simp only [State.portPresent, Bool.and_eq_true, decide_eq_true_eq] at hport
  exact hport.1

/-- A live PF or clerk reaches the page of a present port. -/
theorem State.portWrite_present {q : Req} (hq : s.direct q) (run : State → State) : s.portWrite q p run = run s := by
  have hlt := State.lt_of_portPresent hport
  rw [State.portWrite, if_neg (by simp [hq]; exact hlt), if_neg (by simp [hport])]

theorem exec_portDisable {q : Req} (hq : s.direct q) (hlive : s.resetting (0x240 + p) = false) :
    exec (.portDisable q p) s = .next ((s.wrb (Reg.CTL.ENABLE (0x240 + p)) false).portGo p PortSt.DISABLED 0) := by
  show execPortDisable q p s = _
  rw [execPortDisable, State.portWrite_present hport hq, fptPage, if_neg (by simp [hlive])]

include hcomp

theorem State.present_of_portPresent : s.present p := by simp [State.present, hport, hcomp]

/-- R581: a port that is enabled trains if it was DISABLED. -/
theorem exec_portEnable {q : Req} (hq : s.direct q) (hlive : s.resetting (0x240 + p) = false) : exec (.portEnable q p) s = .next (
    if s.portSt p = PortSt.DISABLED then (s.wrb (Reg.CTL.ENABLE (0x240 + p)) true).trainMax p else s.wrb (Reg.CTL.ENABLE (0x240 + p)) true) := by
  show execPortEnable q p s = _
  rw [execPortEnable, State.portWrite_present hport hq, fptPage, if_neg (by simp [hlive])]
  simp only [State.portSt_enabled, hcomp, and_true]

theorem exec_portRetrain {q : Req} (hq : s.direct q) (hst : s.portSt p ≠ PortSt.DISABLED) : exec (.portRetrain q p) s = .next (s.trainMax p) := by
  show execPortRetrain q p s = _
  rw [execPortRetrain, State.portWrite_present hport hq, if_pos ⟨hcomp, hst⟩]

/-! Training. -/

section Training
variable (hst : s.portSt p = PortSt.TRAINING) (hgo : s.bringUpWaits = false)
include hst hgo

theorem exec_trainingDone (ok inv : Nat) : exec (.trainingDone p ok inv) s = .next (s.trainingDone p ok inv) := by
  show execTrainingDone p ok inv s = _
  rw [execTrainingDone, if_pos ⟨State.present_of_portPresent hport hcomp, hst, by simp [hgo]⟩]

theorem exec_trainingTimeout (noSignal : Bool) : exec (.trainingTimeout p noSignal) s
    = .next (s.portGo p PortSt.DOWN (if noSignal then PortCause.NO_SIGNAL else PortCause.TRAIN_FAIL)) := by
  show execTrainingTimeout p noSignal s = _
  rw [execTrainingTimeout, if_pos ⟨State.present_of_portPresent hport hcomp, hst, by simp [hgo]⟩]

end Training

/-! A port that is UP, ADAPTING or DOWN. -/

section Up
variable (hst : s.portSt p = PortSt.UP)
include hst

theorem exec_laneFail (l : Nat) : exec (.laneFail p l) s = .next (s.laneFail p l) := by
  show execLaneFail p l s = _
  rw [execLaneFail, if_pos ⟨State.present_of_portPresent hport hcomp, .inl hst⟩]

theorem exec_adaptStart : exec (.adaptStart p) s = .next (s.portGo p PortSt.ADAPTING 0) := by
  show execAdaptStart p s = _
  rw [execAdaptStart, if_pos ⟨State.present_of_portPresent hport hcomp, hst⟩]

theorem exec_partnerRetrain : exec (.partnerRetrain p) s = .next (s.trainMax p) := by
  show execPartnerRetrain p s = _
  exact congrArg Host.Outcome.next (if_pos ⟨State.present_of_portPresent hport hcomp, .inr (.inl hst)⟩)

theorem exec_lossOfSignal : exec (.lossOfSignal p) s = .next (s.portGo p PortSt.DOWN PortCause.NO_SIGNAL) := by
  show execLossOfSignal p s = _
  rw [execLossOfSignal, if_neg (by simp [State.present_of_portPresent hport hcomp]), if_pos hst]

end Up

theorem exec_adaptDone (hst : s.portSt p = PortSt.ADAPTING) : exec (.adaptDone p) s = .next (s.portGo p PortSt.UP 0) := by
  show execAdaptDone p s = _
  rw [execAdaptDone, if_pos ⟨State.present_of_portPresent hport hcomp, hst⟩]

theorem exec_signalDetect (hst : s.portSt p = PortSt.DOWN) : exec (.signalDetect p) s = .next (s.trainMax p) := by
  show execSignalDetect p s = _
  rw [execSignalDetect, if_pos ⟨State.present_of_portPresent hport hcomp, hst⟩]

theorem exec_downRetry (hst : s.portSt p = PortSt.DOWN) (hpast : (s.fport p).downAt + 1000000000 ≤ s.uptime) :
    exec (.downRetry p) s = .next (s.trainMax p) := by
  show execDownRetry p s = _
  rw [execDownRetry, if_pos ⟨State.present_of_portPresent hport hcomp, hst, hpast⟩]

/-! HELLOs of a mesh port. -/

section Mesh
variable (hmesh : s.isMesh p)
include hmesh

theorem exec_fabricHello (hst : s.portSt p = PortSt.VERIFY) (hgo : s.bringUpWaits = false) (h : Hello) :
    exec (.fabricHello p h) s = .next (s.hello p h) := by
  have hpresent := State.present_of_portPresent hport hcomp
  show execFabricHello p h s = _
  rw [execFabricHello, if_pos ⟨hpresent, hmesh, Nat.le_of_eq hst.symm, by rw [hst]; decide, by simp [hgo]⟩]

/-- R589: an UP port says in its HELLO whether its own check passes. -/
theorem exec_helloTimer (hst : s.portSt p = PortSt.UP) :
    exec (.helloTimer p) s = .next (s.sendFrame p Frame.HELLO (b2n ((s.fport p).selfOk)) 0) := by
  have hgo : s.present p ∧ s.isMesh p ∧ (s.portSt p = PortSt.VERIFY ∨ s.portSt p = PortSt.UP ∨ s.portSt p = PortSt.MISWIRED) :=
    ⟨State.present_of_portPresent hport hcomp, hmesh, .inr (.inl hst)⟩
  show execHelloTimer p s = _
  simp only [execHelloTimer]
  rw [if_pos hgo, decide_eq_true (show s.portSt p ≠ PortSt.MISWIRED by rw [hst]; decide), Bool.and_true]

theorem exec_helloTimeout (hst : s.portSt p = PortSt.UP) (hpast : (s.fport p).heard + 1000000000 ≤ s.uptime) :
    exec (.helloTimeout p) s = .next (s.portGo p PortSt.MISWIRED PortCause.NO_HELLO) := by
  show execHelloTimeout p s = _
  rw [execHelloTimeout, if_pos ⟨State.present_of_portPresent hport hcomp, hmesh, .inr hst, hpast⟩]

end Mesh

end Port

/-- Settles O56: on a present port with compute on, each command takes the port where its state leads. -/
theorem fabricPorts : Obligations.FabricPorts := by
  unfold Obligations.FabricPorts
  refine ⟨fun s p hport hcomp => ⟨fun q hq hlive hst => ?_, fun q hq hlive hst => ?_, fun q hq hlive => exec_portDisable hport hq hlive,
      fun q hq hst => exec_portRetrain hport hcomp hq hst,
      fun hst hgo => ⟨exec_trainingDone hport hcomp hst hgo, exec_trainingTimeout hport hcomp hst hgo true, exec_trainingTimeout hport hcomp hst hgo false⟩,
      fun hst => ⟨exec_laneFail hport hcomp hst, exec_adaptStart hport hcomp hst, exec_partnerRetrain hport hcomp hst, exec_lossOfSignal hport hcomp hst⟩,
      exec_adaptDone hport hcomp, fun hst => ⟨exec_signalDetect hport hcomp hst, exec_downRetry hport hcomp hst⟩⟩,
    fun s p h hport hcomp hmesh => ⟨fun hst hgo => exec_fabricHello hport hcomp hmesh hst hgo h, exec_helloTimer hport hcomp hmesh,
      exec_helloTimeout hport hcomp hmesh⟩⟩
  · rw [exec_portEnable hport hcomp hq hlive, if_neg hst]
  · rw [exec_portEnable hport hcomp hq hlive, if_pos hst]

end Sys2Proof.Machine
end

section
/-!
SUPPORT. Links, packets, acknowledgements and pauses (R590, R597-R605), and the packet that a check of R597 drops.
-/
namespace Sys2Proof.Machine

/-! What an event of a present port, or of a stream, answers. -/

section Port
variable {s : State} {p : Nat} (hport : s.portPresent p) (hcomp : s.computeOn)
include hcomp

theorem exec_fabricAck (n c q : Nat) : exec (.fabricAck n c q) s = .next (s.advanceTx n c q) := by
  show execFabricAck n c q s = _
  rw [execFabricAck, if_pos hcomp]

theorem exec_fabricNack (n c q : Nat) : exec (.fabricNack n c q) s = .next ((s.advanceTx n c q).resend n c) := by
  show execFabricNack n c q s = _
  rw [execFabricNack, if_pos hcomp]

theorem exec_ackTimer {n c : Nat} (hdue : 0 < (s.rx n c).unacked) : exec (.ackTimer n c) s = .next (s.sendAck (s.routePort n c) n c) := by
  show execAckTimer n c s = _
  rw [execAckTimer, if_pos ⟨hcomp, hdue⟩]

theorem exec_rtoExpiry (n c : Nat) : exec (.rtoExpiry n c) s = .next (s.resend n c) := by
  show execRtoExpiry n c s = _
  rw [execRtoExpiry, if_pos hcomp]

include hport

theorem exec_linkWaitExpiry : exec (.linkWaitExpiry p) s = .next (
    s.failQueued fun m => m.port = p && (s.linkCuts m.half p || (!s.portUp p && decide (s.holdUntil m ≤ s.uptime)))) := by
  show execLinkWaitExpiry p s = _
  rw [execLinkWaitExpiry, if_pos (State.present_of_portPresent hport hcomp)]

theorem exec_fabricGrant {m : FabMsg} (hup : s.portUp p) (hgrant : s.nextGrant p = some m) : exec (.fabricGrant p) s = .next (s.grant m) := by
  show execFabricGrant p s = _
  rw [execFabricGrant, if_pos ⟨State.present_of_portPresent hport hcomp, hup⟩, hgrant]

theorem exec_fabricData {k : Packet} (hchan : k.chan < 7) (hup : s.portSt p = PortSt.UP) : exec (.fabricData p k) s = .next (s.packet p k) := by
  show execFabricData p k s = _
  rw [execFabricData, if_pos ⟨State.present_of_portPresent hport hcomp, .inl hup, hchan⟩]

theorem exec_pfcPause {prio quanta : Nat} (hprio : prio < 8) (hen : bit (s.rd (Reg.FPT_PFC.PRIO_EN p)) prio) (hquanta : 0 < quanta) :
    exec (.pfcPause p prio quanta) s = .next ((s.count (Reg.FPT_PFC_CNT.RX p) 1).setPaused p prio true) := by
  show execPfcPause p prio quanta s = _
  rw [execPfcPause, if_pos ⟨State.present_of_portPresent hport hcomp, hprio, hen⟩, if_neg (Nat.ne_of_gt hquanta)]

theorem exec_pfcPauseExpiry {prio : Nat} (hprio : prio < 8) : exec (.pfcPauseExpiry p prio) s = .next (s.setPaused p prio false) := by
  show execPfcPauseExpiry p prio s = _
  rw [execPfcPauseExpiry, if_pos ⟨State.present_of_portPresent hport hcomp, hprio⟩]

end Port

/-! A dropped packet. -/

/-- The checks of R597 read the routes and identities that XPT and the port hold: two states that agree on them drop the same packets. -/
theorem State.packetDropped_congr {s t : State} {p : Nat} (h : ∀ f : Fld, f.key ≠ (Reg.FPT_RX_FRAMES.COUNT p).key → t.rd f = s.rd f) (hp : p < 18)
    (k : Packet) : t.packetDropped p k = s.packetDropped p k := by
  have hsystem : t.rd Reg.XPT_SYSTEM.SYSTEM = s.rd Reg.XPT_SYSTEM.SYSTEM := h _ (by simp only [Reg.XPT_SYSTEM.SYSTEM, Reg.FPT_RX_FRAMES.COUNT]; omega)
  have hnode : t.node = s.node := h _ (by simp only [Reg.XPT_NODE.NODE, Reg.FPT_RX_FRAMES.COUNT]; omega)
  have hpeer : t.rd (Reg.FPT_PEER.NODE p) = s.rd (Reg.FPT_PEER.NODE p) := h _ (by simp only [Reg.FPT_PEER.NODE, Reg.FPT_RX_FRAMES.COUNT]; omega)
  have huplink : ∀ plane, t.uplinkPort plane = s.uplinkPort plane := fun plane =>
    congrArg (fun v => byteOf v plane) (h _ (by simp only [Reg.XPT_UPLINK.PORTS, Reg.FPT_RX_FRAMES.COUNT]; omega))
  have hmesh : ∀ m, t.meshPort m = s.meshPort m := fun m =>
    congrArg (fun v => byteOf v (m % 4)) (h _ (by simp only [Reg.XPT_MESH.PORTS, Reg.FPT_RX_FRAMES.COUNT]; omega))
  have hisMesh : t.isMesh p = s.isMesh p := by simp only [State.isMesh, hmesh]
  rw [State.packetDropped, hsystem, hnode, hpeer, huplink, hisMesh, State.packetDropped]

/-- A received frame that R597 drops: it is counted, with its FCS error. -/
def State.frameDropped (s : State) (p : Nat) (k : Packet) : State :=
  let t := (s.countWrap (Reg.FPT_RX_FRAMES.COUNT p) 1).count Reg.XPT_DROPPED.COUNT 1
  if k.fcsOk then t else t.count (Reg.FPT_FCS_ERR.COUNT p) 1

theorem State.packet_dropped {s : State} {p : Nat} {k : Packet} (hp : p < 18) (hdrop : s.packetDropped p k) : s.packet p k = s.frameDropped p k := by
  have hsame := State.packetDropped_congr (fun f hf => State.rd_countWrap_key s (Reg.FPT_RX_FRAMES.COUNT p) f 1 hf) hp k
  simp only [State.packet]
  rw [if_pos (hsame.trans hdrop), State.frameDropped]

theorem State.rd_dropped_frameDropped (s : State) {p : Nat} (hp : p < 18) (k : Packet) :
    (s.frameDropped p k).rd Reg.XPT_DROPPED.COUNT = min (s.rd Reg.XPT_DROPPED.COUNT + 1) 0xFFFFFFFF := by
  have hcount : ((s.countWrap (Reg.FPT_RX_FRAMES.COUNT p) 1).count Reg.XPT_DROPPED.COUNT 1).rd Reg.XPT_DROPPED.COUNT
      = min (s.rd Reg.XPT_DROPPED.COUNT + 1) 0xFFFFFFFF := by
    rw [State.rd_count _ _ _ (by decide), State.rd_countWrap_key _ _ _ _ (by simp only [Reg.XPT_DROPPED.COUNT, Reg.FPT_RX_FRAMES.COUNT]; omega)]
    rfl
  simp only [State.frameDropped]
  split
  · exact hcount
  · rw [State.rd_count_apart _ _ _ _ (.inl (by simp only [Reg.XPT_DROPPED.COUNT, Reg.FPT_FCS_ERR.COUNT]; omega)) (by decide), hcount]

/-- Counters alone change. -/
theorem State.frameDropped_keeps (s : State) (p : Nat) (k : Packet) : (s.frameDropped p k).rxStreams = s.rxStreams
    ∧ (s.frameDropped p k).txStreams = s.txStreams ∧ (s.frameDropped p k).inbox = s.inbox ∧ (s.frameDropped p k).sessions = s.sessions
    ∧ (s.frameDropped p k).out = s.out ∧ OnlyRegisters s (s.frameDropped p k) := by
  simp only [State.frameDropped]
  split
  · exact ⟨rfl, rfl, rfl, rfl, rfl, onlyRegisters_refl s⟩
  · exact ⟨rfl, rfl, rfl, rfl, rfl, onlyRegisters_refl s⟩

/-- Settles O57: each event of a link or a stream answers its own operation, and a dropped packet changes counters alone. -/
theorem fabricTransport : Obligations.FabricTransport := by
  unfold Obligations.FabricTransport
  refine ⟨fun s p hport hcomp => ⟨exec_linkWaitExpiry hport hcomp, fun m => exec_fabricGrant hport hcomp, fun k => exec_fabricData hport hcomp,
      exec_fabricAck hcomp, exec_fabricNack hcomp, fun n c => exec_ackTimer hcomp, exec_rtoExpiry hcomp,
      fun prio quanta => exec_pfcPause hport hcomp, fun prio => exec_pfcPauseExpiry hport hcomp⟩,
    fun s p k hp hport hcomp hup hchan hdrop => ⟨s.frameDropped p k, ?_, State.rd_dropped_frameDropped s hp k, State.frameDropped_keeps s p k⟩⟩
  rw [exec_fabricData hport hcomp hchan hup, State.packet_dropped hp hdrop]

end Sys2Proof.Machine
end

section
/-!
SUPPORT. HBM: what a read, a whole write and a partial write of a line do to the line and leave alone (R493, R496-R498), retrains, faults, refresh, the
on-die counter and the patrol scrub (R487-R491, R502).
-/
namespace Sys2Proof.Machine

/-! Bytes that a masked store leaves alone. -/

/-- A byte outside the stored ones reads as before. -/
theorem byteAt_storeMasked_outside (bs : List Byte) : ∀ (es : List Bool) (m : Tbl Byte) (a x : Nat), x < a ∨ a + bs.length ≤ x →
    byteAt (storeMasked m a bs es) x = byteAt m x := by
  induction bs with
  | nil => intro es m a x _; cases es <;> rfl
  | cons b bs ih =>
    intro es m a x hx
    rw [List.length_cons] at hx
    cases es with
    | nil => rfl
    | cons e es =>
      rw [storeMasked, ih es _ _ _ (by omega)]
      cases e with
      | false => rfl
      | true => exact tblGet_set_ne 0 m b (by omega)

/-! Decoding a line. -/

section Decode
variable {s : State} {a : Nat} (stack source acct kindBad kindPoison : Nat)

theorem State.decodeLine_clean (h : s.poisoned a = false) : s.decodeLine stack a source acct 0 kindBad kindPoison = (s, true) := by
  unfold State.decodeLine
  simp only [h, Bool.false_eq_true, if_false, if_true]

theorem State.decodeLine_poisoned (h : s.poisoned a) (symErr : Nat) : s.decodeLine stack a source acct symErr kindBad kindPoison
    = ((s.count (Reg.HMC_POISON_CNT.READS stack) 1).logErr (0x180 + stack) a kindPoison source acct, false) := by
  unfold State.decodeLine
  simp only [h, if_true]

end Decode

/-! A line that its stack serves. -/

section Line
variable {s : State} {a k : Nat} (hstack : s.stackAt a = some k) (hgood : s.stackFaulted k = false)
include hstack hgood

theorem State.hbmRead_clean (hclean : s.poisoned (a / 64 * 64) = false) (src acct : Nat) :
    s.hbmRead a src acct 0 = s.emit (.memData (a / 64 * 64) (s.load (a / 64 * 64) 64)) := by
  simp only [State.hbmRead, hstack, hgood, State.decodeLine_clean _ _ _ _ _ hclean, Bool.false_eq_true, if_false, if_true]

theorem State.hbmRead_poisoned (hpoison : s.poisoned (a / 64 * 64)) (src acct symErr : Nat) : s.hbmRead a src acct symErr
    = (((s.count (Reg.HMC_POISON_CNT.READS k) 1).logErr (0x180 + k) (a / 64 * 64) Err.POISON_READ src acct).pciePoison src acct).emit
        (.memFail (a / 64 * 64) Code.POISON) := by
  simp only [State.hbmRead, hstack, hgood, State.decodeLine_poisoned _ _ _ _ _ hpoison, Bool.false_eq_true, if_false]

theorem State.hbmFullWrite_served (bs : List Byte) :
    s.hbmFullWrite a bs = (s.store (a / 64 * 64) (padTo 64 bs)).setPoison (a / 64 * 64) false := by
  simp only [State.hbmFullWrite, hstack, hgood, Bool.false_eq_true, if_false]

theorem State.hbmPartialWrite_clean (hclean : s.poisoned (a / 64 * 64) = false) (src acct : Nat) (bs : List Byte) (be : List Bool) :
    s.hbmPartialWrite a src acct 0 bs be = { s with mem := storeMasked s.mem (a / 64 * 64) (bs.take 64) be } := by
  simp only [State.hbmPartialWrite, hstack, hgood, State.decodeLine_clean _ _ _ _ _ hclean, Bool.false_eq_true, if_false, if_true]

end Line

/-! What a write of a line can do. -/

/-- A whole write shows in no register and no memory, or it replaces the line and clears its poison. -/
theorem exec_hbmFullWrite_cases {s t : State} {a : Nat} {bs : List Byte} (h : exec (.hbmFullWrite a bs) s = .next t) :
    OnlyRegisters s t ∧ t.regs = s.regs ∨ t = (s.store (a / 64 * 64) (padTo 64 bs)).setPoison (a / 64 * 64) false := by
  have hexec : execHbmFullWrite a bs s = .next t := h
  unfold execHbmFullWrite at hexec
  obtain rfl := Host.Outcome.next.inj hexec
  split
  · exact .inl ⟨onlyRegisters_refl s, rfl⟩
  · split
    · exact .inl ⟨onlyRegisters_holdHbm s _, rfl⟩
    · unfold State.hbmFullWrite
      split
      · exact .inl ⟨onlyRegisters_refl s, rfl⟩
      · simp only
        split
        · exact .inl ⟨(onlyRegisters_emit s s _).mpr (onlyRegisters_refl s), rfl⟩
        · exact .inr rfl

/-- A partial write without an error changes registers, or the enabled bytes of the line. -/
theorem exec_hbmPartialWrite_cases {s t : State} {a src acct : Nat} {bs : List Byte} {be : List Bool}
    (h : exec (.hbmPartialWrite a src acct 0 bs be) s = .next t) :
    OnlyRegisters s t ∨ t = { s with mem := storeMasked s.mem (a / 64 * 64) (bs.take 64) be } := by
  have hexec : execHbmPartialWrite a src acct 0 bs be s = .next t := h
  unfold execHbmPartialWrite at hexec
  obtain rfl := Host.Outcome.next.inj hexec
  split
  · exact .inl (onlyRegisters_refl s)
  · split
    · exact .inl (onlyRegisters_holdHbm s _)
    · cases hstack : s.stackAt a with
      | none => exact .inl (by rw [State.hbmPartialWrite_of_none hstack]; exact onlyRegisters_refl s)
      | some k =>
        cases hfault : s.stackFaulted k with
        | true =>
          have hfail : s.hbmPartialWrite a src acct 0 bs be = s.emit (.memFail (a / 64 * 64) Code.UNCORRECTABLE) := by
            simp only [State.hbmPartialWrite, hstack, hfault, if_true]
          exact .inl (by rw [hfail]; exact (onlyRegisters_emit s s _).mpr (onlyRegisters_refl s))
        | false =>
          cases hpoison : s.poisoned (a / 64 * 64) with
          | false => exact .inr (State.hbmPartialWrite_clean hstack hfault hpoison src acct bs be)
          | true =>
            have hfail := State.decodeLine_poisoned k src acct Err.RMW_POISONED Err.RMW_POISONED hpoison 0
            left
            simp only [State.hbmPartialWrite, hstack, hfault, hfail, Bool.false_eq_true, if_false]
            rw [onlyRegisters_emit, onlyRegisters_pciePoison, onlyRegisters_logErr, onlyRegisters_count]
            exact onlyRegisters_refl s

/-- Setting the poison of one line leaves that of the others. -/
theorem State.poisonLine_setPoison_ne (s : State) (a : Nat) (b : Bool) {l : Nat} (h : l ≠ a / 64) :
    tblGet false (s.setPoison a b).poisonLine l = tblGet false s.poisonLine l := by
  unfold State.setPoison
  split
  · exact tblGet_set_ne false _ b h
  · rfl
  · rfl

theorem State.setPoison_keeps (s : State) (a : Nat) (b : Bool) : (s.setPoison a b).mem = s.mem ∧ (s.setPoison a b).regs = s.regs
    ∧ (s.setPoison a b).fuses = s.fuses ∧ (s.setPoison a b).vault = s.vault ∧ (s.setPoison a b).ops = s.ops
    ∧ (s.setPoison a b).tallies = s.tallies := by
  unfold State.setPoison
  split <;> exact ⟨rfl, rfl, rfl, rfl, rfl, rfl⟩

/-- Settles O14: a write of a line changes only registers, or it stores into the 64 bytes of its line, a partial one its enabled bytes, and a whole one
sets the line's own poison. -/
theorem hbmLineFrame : Obligations.HbmLineFrame := by
  unfold Obligations.HbmLineFrame
  refine fun s t a bs hlen => ⟨fun h => ?_, fun src acct be h => ?_⟩
  · rcases exec_hbmFullWrite_cases h with ⟨⟨hfuses, hmem, hline, -, hvault, hops, htallies, -⟩, hregs⟩ | rfl
    · exact ⟨fun x _ => congrArg (byteAt · x) hmem, fun l _ => congrArg (tblGet false · l) hline, hregs, hfuses, hvault, hops, htallies⟩
    · obtain ⟨hmem, hregs, hfuses, hvault, hops, htallies⟩ := State.setPoison_keeps (s.store (a / 64 * 64) (padTo 64 bs)) (a / 64 * 64) false
      refine ⟨fun x hx => ?_, fun l hl => State.poisonLine_setPoison_ne _ _ _ (by omega), hregs, hfuses, hvault, hops, htallies⟩
      rw [hmem]
      exact byteAt_store_outside _ _ _ _ (by rwa [length_padTo])
  · rcases exec_hbmPartialWrite_cases h with ⟨hfuses, hmem, hline, -, hvault, hops, htallies, -⟩ | rfl
    · exact ⟨fun x _ => congrArg (byteAt · x) hmem, fun i _ => congrArg (byteAt · _) hmem, hline, hfuses, hvault, hops, htallies⟩
    · refine ⟨fun x hx => byteAt_storeMasked_outside _ _ _ _ _ ?_, fun i hi => byteAt_storeMasked_disabled _ _ _ _ _ fun j hj => ?_, rfl, rfl, rfl, rfl, rfl⟩
      · rwa [List.length_take, hlen]
      · rwa [show j = i by omega]

/-! Accesses. -/

section Access
variable {s : State} {a k : Nat} (hcomp : s.computeOn) (hbusy : s.stackBusy a = false)
include hcomp hbusy

theorem exec_hbmRead (src acct symErr : Nat) : exec (.hbmRead a src acct symErr) s = .next (s.hbmRead a src acct symErr) := by
  show execHbmRead a src acct symErr s = _
  rw [execHbmRead, if_neg (by simp [hcomp]), if_neg (by simp [hbusy])]

theorem exec_hbmFullWrite (bs : List Byte) : exec (.hbmFullWrite a bs) s = .next (s.hbmFullWrite a bs) := by
  show execHbmFullWrite a bs s = _
  rw [execHbmFullWrite, if_neg (by simp [hcomp]), if_neg (by simp [hbusy])]

theorem exec_hbmPartialWrite (src acct symErr : Nat) (bs : List Byte) (be : List Bool) :
    exec (.hbmPartialWrite a src acct symErr bs be) s = .next (s.hbmPartialWrite a src acct symErr bs be) := by
  show execHbmPartialWrite a src acct symErr bs be s = _
  rw [execHbmPartialWrite, if_neg (by simp [hcomp]), if_neg (by simp [hbusy])]

end Access

/-! A poisoned line. -/

/-- An entry of the error log leaves a register alone that is neither the log's own nor the page's EVT_RAW. -/
theorem State.rd_logErr (s : State) (pg a kind source acct : Nat) {f : Fld} (hlevel : f.key ≠ (errLevel pg).key) (hlost : f.key ≠ (errLost pg).key)
    (hraw : f.key ≠ 0x1000 * pg + 0x10) : (s.logErr pg a kind source acct).rd f = s.rd f := by
  unfold State.logErr
  simp only
  split
  · exact State.rd_wr_key _ _ _ _ hlevel
  · split
    · rw [State.rd_raise _ _ _ _ hraw]
      exact State.rd_wr_key _ _ _ _ hlost
    · exact State.rd_wr_key _ _ _ _ hlost

theorem State.rd_pciePoison (s : State) (source acct : Nat) {f : Fld} (h : f.key ≠ (Reg.LAST_STATUS.CODE (0x40 + acct)).key) :
    (s.pciePoison source acct).rd f = s.rd f := by
  unfold State.pciePoison
  split
  · exact State.rd_wr_key _ _ _ _ h
  · rfl

theorem ends_hbmRead_poisoned {s : State} {a k : Nat} (hcomp : s.computeOn) (hstack : s.stackAt a = some k) (hgood : s.stackFaulted k = false)
    (hbusy : s.stackBusy a = false) (hpoison : s.poisoned (a / 64 * 64)) (src acct e : Nat) : Ends (.hbmRead a src acct e) s fun t =>
      Out.memFail (a / 64 * 64) Code.POISON ∈ t.out ∧ t.mem = s.mem ∧ t.poisonLine = s.poisonLine
        ∧ t.rd (Reg.HMC_POISON_CNT.READS k) = min (s.rd (Reg.HMC_POISON_CNT.READS k) + 1) 0xFFFF := by
  have hexec := exec_hbmRead hcomp hbusy src acct e
  rw [State.hbmRead_poisoned hstack hgood hpoison src acct e] at hexec
  have hkeeps : OnlyRegisters s (((s.count (Reg.HMC_POISON_CNT.READS k) 1).logErr (0x180 + k) (a / 64 * 64) Err.POISON_READ src acct).pciePoison src acct) := by
    rw [onlyRegisters_pciePoison, onlyRegisters_logErr, onlyRegisters_count]
    exact onlyRegisters_refl s
  obtain ⟨-, hmem, hline, -⟩ := hkeeps
  have hlevel : errLevel (0x180 + k) = Reg.HMC_ERR_STA.LEVEL k := (if_pos (Nat.le_add_right _ _)).trans (by rw [Nat.add_sub_cancel_left])
  have hlost : errLost (0x180 + k) = Reg.HMC_ERR_STA.LOST k := (if_pos (Nat.le_add_right _ _)).trans (by rw [Nat.add_sub_cancel_left])
  refine ⟨_, hexec, List.mem_cons_self, hmem, hline, ?_⟩
  rw [State.rd_emit, State.rd_pciePoison _ _ _ (by simp only [Reg.HMC_POISON_CNT.READS, Reg.LAST_STATUS.CODE]; omega),
    State.rd_logErr _ _ _ _ _ _ (by rw [hlevel]; simp only [Reg.HMC_POISON_CNT.READS, Reg.HMC_ERR_STA.LEVEL]; omega)
      (by rw [hlost]; simp only [Reg.HMC_POISON_CNT.READS, Reg.HMC_ERR_STA.LOST]; omega) (by simp only [Reg.HMC_POISON_CNT.READS]; omega)]
  exact State.rd_count _ _ _ (Nat.le_of_ble_eq_true rfl)

/-! Stacks. -/

section Stack
variable {s : State} {k : Nat} (hpresent : s.stackPresent k) (hcomp : s.computeOn)
include hpresent hcomp

/-- R488: a transfer that fails is tried again; at the third failure the stack retrains. -/
theorem exec_hbmXferRetry (hgood : s.stackFaulted k = false) (hidle : s.on (Reg.HMC_STA.RETRAINING k) = false) (tries : Nat) :
    exec (.hbmXferRetry k tries) s = .next (if tries < 3 then s.count (Reg.HMC_XFER_CNT.RETRIES k) 1
      else ((s.wrb (Reg.HMC_STA.RETRAINING k) true).count (Reg.HMC_XFER_CNT.RETRAINS k) 1).raise (0x180 + k) 2) := by
  show execHbmXferRetry k tries s = _
  rw [execHbmXferRetry, if_neg (by simp [hpresent, hcomp, hgood, hidle])]

theorem exec_hbmRetrainDone (hretrain : s.on (Reg.HMC_STA.RETRAINING k)) (ok : Bool) :
    exec (.hbmRetrainDone k ok) s = .next ((if ok then s.wrb (Reg.HMC_STA.RETRAINING k) false else s.faultStack k 2).releaseHbm k) := by
  show execHbmRetrainDone k ok s = _
  rw [execHbmRetrainDone, if_neg (by simp [hpresent, hcomp, hretrain])]

theorem exec_stackFault (hgood : s.stackFaulted k = false) : exec (.stackFault k) s = .next ((s.faultStack k 3).releaseHbm k) := by
  show execStackFault k s = _
  rw [execStackFault, if_neg (by simp [hpresent, hcomp, hgood])]

theorem exec_odeccPoll (hgood : s.stackFaulted k = false) (n : Nat) : exec (.odeccPoll k n) s = .next (s.countWrap (Reg.HMC_ODECC.COUNT k) n) := by
  show execOdeccPoll k n s = _
  rw [execOdeccPoll, if_pos ⟨hpresent, hcomp, by simp [hgood]⟩]

/-- R502: the scrub reads a clean line that is not the stack's last and goes on to the next. -/
theorem exec_scrubLine_clean (hgood : s.stackFaulted k = false) (hidle : s.on (Reg.HMC_STA.RETRAINING k) = false)
    (hperiod : s.rd (Reg.HMC_SCRUB_CFG.PERIOD_H k) ≠ 0) (hclean : s.poisoned (s.scrubAddr k (tblGet 0 s.scrubPos k)) = false)
    (hnext : tblGet 0 s.scrubPos k + 1 < stackLines) :
    exec (.scrubLine k 0) s = .next (({ s with scrubPos := tblSet 0 s.scrubPos k (tblGet 0 s.scrubPos k + 1) } : State).wr (Reg.HMC_SCRUB_STA.PERMILLE k)
      ((tblGet 0 s.scrubPos k + 1) * 1000 / stackLines)) := by
  show execScrubLine k 0 s = _
  rw [execScrubLine, if_neg (by simp [hpresent, hcomp, hgood, hidle, hperiod])]
  simp only [hclean, State.decodeLine_clean _ _ _ _ _ hclean, Bool.false_eq_true, if_false, if_neg (Nat.ne_of_lt hnext), if_neg (Nat.succ_ne_zero _)]

end Stack

/-- Settles O51: a served access of a line does what its decoding allows, and each command of a stack answers its own operation. -/
theorem hbmAccesses : Obligations.HbmAccesses := by
  unfold Obligations.HbmAccesses
  refine ⟨fun s a src acct k hcomp hstack hgood hbusy => ⟨fun hclean => ?_, fun bs => ?_, fun bs be hclean => ?_,
      fun e hpoison => ends_hbmRead_poisoned hcomp hstack hgood hbusy hpoison src acct e⟩,
    fun s k hpresent hcomp => ⟨fun tries htries hgood hidle => ?_, fun tries htries hgood hidle => ?_,
      fun hretrain => exec_hbmRetrainDone hpresent hcomp hretrain true, fun hretrain => exec_hbmRetrainDone hpresent hcomp hretrain false,
      exec_stackFault hpresent hcomp, rfl, fun n hgood => exec_odeccPoll hpresent hcomp hgood n, exec_scrubLine_clean hpresent hcomp⟩⟩
  · rw [exec_hbmRead hcomp hbusy, State.hbmRead_clean hstack hgood hclean]
  · rw [exec_hbmFullWrite hcomp hbusy, State.hbmFullWrite_served hstack hgood]
  · rw [exec_hbmPartialWrite hcomp hbusy, State.hbmPartialWrite_clean hstack hgood hclean]
  · rw [exec_hbmXferRetry hpresent hcomp hgood hidle, if_pos htries]
  · rw [exec_hbmXferRetry hpresent hcomp hgood hidle, if_neg (Nat.not_lt.mpr htries)]

end Sys2Proof.Machine
end

section
/-!
SUPPORT. Bank words (R508), the power of banks (R509, R510) and banks taken out of service (R521).
-/
namespace Sys2Proof.Machine

/-! Words of a bank that is in service. -/

section Word
variable {s : State} {h b a o : Nat} (hplace : placeOf a = .bank h b o) (hgood : s.bankFaulted h b = false)
  (hopen : (s.isSecure h b && s.on (Reg.BNK_TAMPER.LATCHED h)) = false) (hwipe : s.bankWiping h b = false) (hserve : s.bankOffline h b = false)
  (hon : s.bankSta h b = 0)
include hplace hgood hopen hwipe hserve hon

/-- R508: an access of a bank that is ON, open and in service is served at once. -/
theorem State.bankAccess_served {x : BankAccess} (hx : x.addr = a) : s.bankAccess x = s.bankWord x := by
  have hlocked : ¬ (s.isSecure h b ∧ s.on (Reg.BNK_TAMPER.LATCHED h)) := fun ⟨hsecure, hlatched⟩ => by simp [hsecure, hlatched] at hopen
  simp only [State.bankAccess, hx, hplace]
  rw [if_neg (by simp [hgood]), if_neg hlocked, if_neg (by simp [hwipe, hserve, hon]), if_neg (by simp [hon])]

end Word

/-- R508: a write of all 8 bytes replaces the word and clears its poison. -/
theorem State.bankWord_whole (s : State) (time h a src acct e : Nat) (bs : List Byte) :
    s.bankWord ⟨time, h, a, src, acct, e, some (bs, List.replicate 8 true)⟩ = (s.store (a / 8 * 8) (padTo 8 bs)).setPoison (a / 8 * 8) false := rfl

/-- R508: a read of a word without poison or error returns its bytes. -/
theorem State.bankWord_read {s : State} {a : Nat} (hclean : s.poisoned (a / 8 * 8) = false) (time h src acct : Nat) :
    s.bankWord ⟨time, h, a, src, acct, 0, none⟩ = s.emit (.memData (a / 8 * 8) (s.load (a / 8 * 8) 8)) := by
  simp only [State.bankWord, hclean, Bool.false_eq_true, if_false]
  rfl

theorem exec_bankAccess {s : State} (hcomp : s.computeOn) (h a src acct e : Nat) (w : Option (List Byte × List Bool)) :
    exec (.bankAccess h a src acct e w) s = .next (s.bankAccess ⟨s.uptime, h, a, src, acct, e, w⟩) := by
  show execBankAccess h a src acct e w s = _
  rw [execBankAccess, if_pos hcomp]

/-! Requests and the states they reach. -/

theorem exec_bankPwrReq {s : State} {q : Req} (hq : s.direct q) {h i : Nat} (hh : h < 2) (hi : i < 3) (v : Nat) :
    exec (.bankPwrReq q h i v) s = .next (s.bankPwrReq h i v) := by
  show execBankPwrReq q h i v s = _
  rw [execBankPwrReq, if_pos ⟨hq, hh, hi⟩]

theorem exec_bankOfflineReq {s : State} {q : Req} (hq : s.direct q) {h : Nat} (hh : h < 2) (m : Nat) :
    exec (.bankOfflineReq q h m) s = .next ((s.wr (Reg.BNK_OFFLINE_REQ.MASK h) m).returnBanks h) := by
  show execBankOfflineReq q h m s = _
  rw [execBankOfflineReq, if_pos ⟨hq, hh⟩]

section Bank
variable {s : State} {h b : Nat} (hh : h < 2) (hb : b < 48) (hcomp : s.computeOn)
include hh hb hcomp

/-- R510: a bank that is ON and asked for another state reaches it once nothing woke it and nothing waits for it. -/
theorem exec_bankPwrReached (hreq : s.bankReq h b ≠ 0) (hon : s.bankSta h b = 0) (hidle : tblGet false s.woken (48 * h + b) = false)
    (hnone : (s.bankWait.any fun x => x.isFor h b) = false) : exec (.bankPwrReached h b) s = .next (s.setBankSta h b (s.bankReq h b)) := by
  show execBankPwrReached h b s = _
  rw [execBankPwrReached, if_pos ⟨hh, hb, hcomp, hreq, by simp [hon], by simp [hidle], by rw [hnone]; rfl⟩]
  have honSta : ¬ (s.bankSta h b = 2 ∧ s.bankReq h b = 1) := fun ⟨hoff, _⟩ => by simp [hon] at hoff
  simp only [if_neg honSta]

theorem exec_bankWakeDone (hwake : s.bankSta h b = 3) : exec (.bankWakeDone h b) s = .next ((s.bankOn h b).releaseBank h b) := by
  show execBankWakeDone h b s = _
  rw [execBankWakeDone, if_pos ⟨hh, hb, hcomp, hwake⟩]

theorem exec_bankIdleReturn (hwoken : tblGet false s.woken (48 * h + b) = true) (hon : s.bankSta h b = 0) : exec (.bankIdleReturn h b) s
    = .next (({ s with woken := tblSet false s.woken (48 * h + b) false } : State).setBankSta h b (s.bankReq h b)) := by
  show execBankIdleReturn h b s = _
  rw [execBankIdleReturn, if_pos ⟨hh, hb, hcomp, hwoken, hon⟩]

/-- R521: a bank asked out of service goes once no access waits for it. -/
theorem exec_bankOffline (hreq : bit (s.rd (Reg.BNK_OFFLINE_REQ.MASK h)) b) (hserve : s.bankOffline h b = false)
    (hnone : (s.bankWait.any fun x => x.isFor h b) = false) : exec (.bankOffline h b) s
      = .next ((s.wr (Reg.BNK_OFFLINE.MASK h) (setBit (s.rd (Reg.BNK_OFFLINE.MASK h)) b true)).raise (0x140 + h) 7) := by
  show execBankOffline h b s = _
  rw [execBankOffline, if_pos ⟨hh, hb, hcomp, hreq, by simp [hserve], by rw [hnone]; rfl⟩]

end Bank

/-- Settles O52: a word of a bank in service is written or read at once, and each power command takes the bank where its request leads. -/
theorem banksAndPower : Obligations.BanksAndPower := by
  unfold Obligations.BanksAndPower
  refine fun s h b hh hb hcomp => ⟨fun a o src acct bs hplace hgood hopen hwipe hserve hon => ?_,
    fun a o src acct hplace hgood hopen hwipe hserve hon hclean => ?_, fun q i v hq hi => exec_bankPwrReq hq hh hi v, exec_bankPwrReached hh hb hcomp,
    exec_bankWakeDone hh hb hcomp, exec_bankIdleReturn hh hb hcomp, fun q m hq => exec_bankOfflineReq hq hh m, exec_bankOffline hh hb hcomp⟩
  · rw [exec_bankAccess hcomp, State.bankAccess_served hplace hgood hopen hwipe hserve hon rfl, State.bankWord_whole]
  · rw [exec_bankAccess hcomp, State.bankAccess_served hplace hgood hopen hwipe hserve hon rfl, State.bankWord_read hclean]

end Sys2Proof.Machine
end

section
/-!
SUPPORT. Wipes after tamper and supply glitches, the march test engine, and the reads that take entries of the error FIFO and of the repair log
(R504, R513-R516, R522, R523).
-/
namespace Sys2Proof.Machine

/-! Reads that take the oldest entry. -/

/-- R504: a whole read of ERR_ENTRY takes the oldest entry of a present page's FIFO. -/
theorem ends_errEntryRead {s : State} {pg : Nat} {e : DWord} {rest : List DWord} (hpage : (0x180 ≤ pg ∧ pg < 0x188) ∨ pg = 0x140 ∨ pg = 0x141)
    (hpresent : s.pageAbsent pg = false) (hfifo : tblGet [] s.errFifo pg = e :: rest) : Ends (.errEntryRead pg 8) s fun t =>
      tblGet [] t.errFifo pg = rest ∧ (∃ off, t.out = .regRead off e.toNat :: s.out) ∧ OnlyRegisters s t := by
  have hexec : exec (.errEntryRead pg 8) s = .next ((({ s with errFifo := tblSet [] s.errFifo pg rest } : State).wr (errLevel pg) rest.length).emit
      (.regRead (pg * 0x1000 + (if 0x180 ≤ pg then 0x58 else 0x88)) e.toNat)) := by
    show execErrEntryRead pg 8 s = _
    rw [execErrEntryRead, if_neg (by simp; omega)]
    simp only [hpresent, hfifo, Bool.false_eq_true, if_false, if_true]
  exact ⟨_, hexec, tblGet_set_same [] s.errFifo pg rest, ⟨_, rfl⟩, onlyRegisters_refl s⟩

section RepairLog
variable {s : State} {h : Nat} (hh : h < 2)
include hh

/-- R523: a whole read of the repair log takes its oldest entry. -/
theorem exec_repairLogRead_cons {e : Nat} {rest : List Nat} (he : e < 2 ^ 32) (hlog : tblGet [] s.mteLog h = e :: rest) : exec (.repairLogRead h 8) s
    = .next (({ s with mteLog := tblSet [] s.mteLog h rest } : State).emit (.regRead (0x142050 + 0x1000 * h) (e + 2 ^ 63))) := by
  show execRepairLogRead h 8 s = _
  rw [execRepairLogRead, if_neg (Nat.not_le.mpr hh)]
  simp only [hlog, Nat.mod_eq_of_lt he, if_true]

theorem exec_repairLogRead_nil (hlog : tblGet [] s.mteLog h = []) : exec (.repairLogRead h 8) s = .next (s.emit (.regRead (0x142050 + 0x1000 * h) 0)) := by
  show execRepairLogRead h 8 s = _
  rw [execRepairLogRead, if_neg (Nat.not_le.mpr hh)]
  simp only [hlog, if_true]

end RepairLog

/-! The log of SEC leaves everything but clerk 0's own page and what waits to be logged. -/

theorem onlyRegisters_logSec (s t : State) (level code a0 a1 a2 : Nat) : OnlyRegisters s (t.logSec level code a0 a1 a2) ↔ OnlyRegisters s t := by
  unfold State.logSec State.logClerk State.offerLog
  simp only
  split
  · exact Iff.rfl
  · split
    · exact Iff.rfl
    · rw [onlyRegisters_raise, onlyRegisters_count]
      exact Iff.rfl

theorem State.cell_logSec (s : State) (level code a0 a1 a2 : Nat) {k : Nat} (h : 0x11000 ≤ k) : (s.logSec level code a0 a1 a2).cell k = s.cell k := by
  have hdropped : k ≠ (Reg.FWP_LOG_DROPPED.COUNT 0).key := by simp only [Reg.FWP_LOG_DROPPED.COUNT]; omega
  unfold State.logSec State.logClerk State.offerLog
  simp only
  split
  · rfl
  · split
    · rfl
    · rw [State.cell_raise _ _ _ (by omega), State.cell_count_ne _ _ _ hdropped]
      rfl

/-! A wipe changes memory, ops and BNK_WIPING, and leaves the fuses, the Vault and the tallies alone. -/

/-- The fuses, the Vault, the tallies and every register but BNK_WIPING of both halves are as before. -/
def WipeKeeps (s t : State) : Prop :=
  t.fuses = s.fuses ∧ t.vault = s.vault ∧ t.tallies = s.tallies
    ∧ ∀ k, k ≠ (Reg.BNK_WIPING.MASK 0).key → k ≠ (Reg.BNK_WIPING.MASK 1).key → t.cell k = s.cell k

theorem wipeKeeps_refl (s : State) : WipeKeeps s s := ⟨rfl, rfl, rfl, fun _ _ _ => rfl⟩

theorem WipeKeeps.trans {s t u : State} (hst : WipeKeeps s t) (htu : WipeKeeps t u) : WipeKeeps s u := by
  obtain ⟨hfuses, hvault, htallies, hcell⟩ := hst
  obtain ⟨hfuses', hvault', htallies', hcell'⟩ := htu
  exact ⟨hfuses'.trans hfuses, hvault'.trans hvault, htallies'.trans htallies, fun k h0 h1 => (hcell' k h0 h1).trans (hcell k h0 h1)⟩

theorem wipeKeeps_zeroBanks (s : State) (h mask : Nat) : WipeKeeps s (s.zeroBanks h mask) := by
  unfold State.zeroBanks
  exact List.foldlRecOn (motive := WipeKeeps s) _ _ (wipeKeeps_refl s) fun t ht b _ => ht.trans (wipeKeeps_refl t)

theorem wipeKeeps_startWipe (s : State) {h : Nat} (hh : h = 0 ∨ h = 1) (mask : Nat) : WipeKeeps s (s.startWipe h mask) := by
  unfold State.startWipe
  split
  · exact wipeKeeps_refl s
  · refine (wipeKeeps_zeroBanks s h mask).trans ⟨rfl, rfl, rfl, fun k h0 h1 => ?_⟩
    rcases hh with rfl | rfl
    · exact State.cell_wr_ne _ _ _ h0
    · exact State.cell_wr_ne _ _ _ h1

theorem wipeKeeps_wipeSecure (s : State) : WipeKeeps s s.wipeSecure :=
  (wipeKeeps_startWipe s (.inl rfl) _).trans (wipeKeeps_startWipe _ (.inr rfl) _)

/-! Tamper and supply glitches. -/

/-- R516: the level and the latch of the tamper input in both halves. -/
def State.tamperShown (s : State) : State :=
  (((s.wrb (Reg.BNK_TAMPER.LEVEL 0) false).wrb (Reg.BNK_TAMPER.LEVEL 1) false).wrb (Reg.BNK_TAMPER.LATCHED 0) true).wrb (Reg.BNK_TAMPER.LATCHED 1) true

theorem State.on_tamperShown (s : State) : s.tamperShown.on (Reg.BNK_TAMPER.LATCHED 0) = true ∧ s.tamperShown.on (Reg.BNK_TAMPER.LATCHED 1) = true
    ∧ s.tamperShown.on (Reg.BNK_TAMPER.LEVEL 0) = false ∧ s.tamperShown.on (Reg.BNK_TAMPER.LEVEL 1) = false := by
  simp (disch := decide) only [State.tamperShown, State.on_wrb_apart, State.on_wrb, and_self]

/-- The state after tamper: shown, the secure region wiped, raised on both BNK pages and logged. -/
def State.tampered (s : State) : State :=
  ((s.tamperShown.wipeSecure.raise 0x140 2).raise 0x141 2).logSec Level.ERROR SecLog.TAMPER 0 0 0

theorem exec_tamper (s : State) : exec .tamper s = .next s.tampered := rfl

theorem State.on_tampered (s : State) {f : Fld} (hkey : f.key = 0x140044 ∨ f.key = 0x141044) : s.tampered.on f = s.tamperShown.on f := by
  obtain ⟨-, -, -, hcell⟩ := wipeKeeps_wipeSecure s.tamperShown
  have hkeep : s.tampered.cell f.key = s.tamperShown.cell f.key := by
    rw [State.tampered, State.cell_logSec _ _ _ _ _ _ (by omega), State.cell_raise _ _ _ (by omega), State.cell_raise _ _ _ (by omega)]
    exact hcell _ (by simp only [Reg.BNK_WIPING.MASK]; omega) (by simp only [Reg.BNK_WIPING.MASK]; omega)
  rw [State.on, State.on, State.rd, State.rd, hkeep]

theorem State.tampered_keeps (s : State) : s.tampered.fuses = s.fuses ∧ s.tampered.vault = s.vault ∧ s.tampered.tallies = s.tallies := by
  obtain ⟨hfuses, hvault, htallies, -⟩ := wipeKeeps_wipeSecure s.tamperShown
  have hlog : OnlyRegisters s.tamperShown.wipeSecure s.tampered := by
    rw [State.tampered, onlyRegisters_logSec, onlyRegisters_raise, onlyRegisters_raise]
    exact onlyRegisters_refl _
  obtain ⟨hfuses', -, -, -, hvault', -, htallies', -⟩ := hlog
  exact ⟨hfuses'.trans hfuses, hvault'.trans hvault, htallies'.trans htallies⟩

theorem ends_tamper (s : State) : Ends .tamper s fun t => t.on (Reg.BNK_TAMPER.LATCHED 0) ∧ t.on (Reg.BNK_TAMPER.LATCHED 1)
    ∧ t.on (Reg.BNK_TAMPER.LEVEL 0) = false ∧ t.on (Reg.BNK_TAMPER.LEVEL 1) = false ∧ t.fuses = s.fuses ∧ t.vault = s.vault
    ∧ t.tallies = s.tallies := by
  obtain ⟨hlatched0, hlatched1, hlevel0, hlevel1⟩ := State.on_tamperShown s
  exact ⟨_, exec_tamper s, (State.on_tampered s (.inl rfl)).trans hlatched0, (State.on_tampered s (.inr rfl)).trans hlatched1,
    (State.on_tampered s (.inl rfl)).trans hlevel0, (State.on_tampered s (.inr rfl)).trans hlevel1, State.tampered_keeps s⟩

theorem exec_supplyGlitch (s : State) {h : Nat} (hh : h < 2) : exec (.supplyGlitch h) s
    = .next ((((s.wipeSecure).count (Reg.BNK_TAMPER.GLITCH_V h) 1).raise (0x140 + h) 3).logSec Level.ERROR SecLog.TAMPER 1 h 0) := by
  show execSupplyGlitch h s = _
  rw [execSupplyGlitch, if_pos hh]

theorem exec_wipeDone {s : State} {h : Nat} (hh : h < 2) (hwipe : s.wiping h ≠ 0) (bad : Nat) : exec (.wipeDone h bad) s = .next (s.wipeDone h bad) := by
  show execWipeDone h bad s = _
  rw [execWipeDone, if_pos ⟨hh, hwipe⟩]

/-! The march test engine. -/

theorem exec_mteStart {s : State} {q : Req} {h : Nat} (hh : h < 2) (hq : s.pf q ∨ q = .sec) (hlive : s.reqLive q)
    (hidle : s.resetting (0x142 + h) = false) (v : Nat) : exec (.mteStart q h v) s = .next (s.mteStart h v) := by
  show execMteStart q h v s = _
  rw [execMteStart, if_pos ⟨⟨hq, hlive⟩, hh, by simp [hidle]⟩]

theorem onlyRegisters_mteFields (s : State) (h v : Nat) : OnlyRegisters s (s.mteFields h v) := by
  simp only [State.mteFields, onlyRegisters_wr]
  split
  · exact onlyRegisters_refl s
  · exact onlyRegisters_refl s

theorem State.mteStart_unstarted (s : State) (h : Nat) {v : Nat} (hstart : bit v 31 = false) : s.mteStart h v = s.mteFields h v := by
  simp only [State.mteStart, hstart, Bool.not_false, if_true]

/-- R522: a start while a run is in progress is refused. -/
theorem State.mteStart_busy {s : State} {h v : Nat} (hstart : bit v 31) (hbusy : s.rd (Reg.MTE_STA.STATE h) = 1) : s.mteStart h v
    = (((s.mteFields h v).wr (Reg.MTE_STA.CODE h) Code.LIMIT).lastStatus (0x142 + h) Code.LIMIT).raise (0x142 + h) 2 := by
  simp only [State.mteStart, hstart, hbusy, Bool.not_true, Bool.false_eq_true, if_false, if_true]

/-- A run of a half begins: MTE_STA shows it, and its repair log is empty. -/
def State.mteBegun (s : State) (h : Nat) (r : MteRun) : State :=
  let u := ((s.wr (Reg.MTE_STA.STATE h) 1).wr (Reg.MTE_STA.CODE h) 0).wr (Reg.MTE_STA.FAIL_ROWS h) 0
  { u with mteLog := tblSet [] u.mteLog h [], mteRun := tblSet default u.mteRun h r }

theorem State.mteStart_begins {s : State} {h v : Nat} (hstart : bit v 31) (hidle : s.rd (Reg.MTE_STA.STATE h) ≠ 1)
    (hok : (s.mteFields h v).mteRefusal h (bits v 0 2) (bits v 8 6) (bit v 16) = Code.OK) :
    s.mteStart h v = (s.mteFields h v).mteBegun h ⟨bits v 0 2, bits v 8 6, bit v 16, bit v 17⟩ := by
  simp only [State.mteStart, hok]
  rw [if_neg (by simp [hstart]), if_neg hidle, if_neg (fun h => h rfl), State.mteBegun]

theorem State.rd_setMteRun (s : State) (log : Tbl (List Nat)) (run : Tbl MteRun) (f : Fld) :
    ({ s with mteLog := log, mteRun := run } : State).rd f = s.rd f := rfl

theorem State.rd_mteBegun_eq (s : State) (h : Nat) (r : MteRun) (f : Fld) : (s.mteBegun h r).rd f
    = (((s.wr (Reg.MTE_STA.STATE h) 1).wr (Reg.MTE_STA.CODE h) 0).wr (Reg.MTE_STA.FAIL_ROWS h) 0).rd f := State.rd_setMteRun _ _ _ f

theorem State.rd_mteBegun (s : State) (h : Nat) (r : MteRun) :
    (s.mteBegun h r).rd (Reg.MTE_STA.STATE h) = 1 ∧ (s.mteBegun h r).rd (Reg.MTE_STA.CODE h) = 0 := by
  have hstate : (Reg.MTE_STA.STATE h).lo + (Reg.MTE_STA.STATE h).width ≤ 64 := by simp [Reg.MTE_STA.STATE]
  have hcode : (Reg.MTE_STA.CODE h).lo + (Reg.MTE_STA.CODE h).width ≤ 64 := by simp [Reg.MTE_STA.CODE]
  have hrowsState : (Reg.MTE_STA.FAIL_ROWS h).apart (Reg.MTE_STA.STATE h) = true := by simp [Fld.apart, Reg.MTE_STA.FAIL_ROWS, Reg.MTE_STA.STATE]
  have hrowsCode : (Reg.MTE_STA.FAIL_ROWS h).apart (Reg.MTE_STA.CODE h) = true := by simp [Fld.apart, Reg.MTE_STA.FAIL_ROWS, Reg.MTE_STA.CODE]
  have hcodeState : (Reg.MTE_STA.CODE h).apart (Reg.MTE_STA.STATE h) = true := by simp [Fld.apart, Reg.MTE_STA.CODE, Reg.MTE_STA.STATE]
  constructor
  · rw [State.rd_mteBegun_eq, State.rd_wr_apart _ _ _ _ (.inr hrowsState) hstate, State.rd_wr_apart _ _ _ _ (.inr hcodeState) hstate,
      State.rd_wr _ _ _ hstate]
    simp [Reg.MTE_STA.STATE]
  · rw [State.rd_mteBegun_eq, State.rd_wr_apart _ _ _ _ (.inr hrowsCode) hcode, State.rd_wr _ _ _ hcode, Nat.zero_mod]

theorem State.mteLog_mteBegun (s : State) (h : Nat) (r : MteRun) : tblGet [] (s.mteBegun h r).mteLog h = [] := by
  rw [State.mteBegun]
  exact tblGet_set_same [] _ h []

theorem onlyRegisters_mteBegun (s t : State) (h : Nat) (r : MteRun) : OnlyRegisters s (t.mteBegun h r) ↔ OnlyRegisters s t := Iff.rfl

theorem exec_mteDone {s : State} {h : Nat} (hh : h < 2) (hcomp : s.computeOn) (hrun : s.rd (Reg.MTE_STA.STATE h) = 1) (rows free : Nat)
    (words log : List Nat) : exec (.mteDone h rows free words log) s = .next (s.mteDone h rows free words log) := by
  show execMteDone h rows free words log s = _
  rw [execMteDone, if_pos ⟨hh, hcomp, hrun⟩]

/-- Settles O53: a read takes the oldest entry of its log, tamper latches before the wipe that keeps it, and MTE_CMD stores its fields, starts a run or
is refused. -/
theorem wipesTestsAndLogs : Obligations.WipesTestsAndLogs := by
  unfold Obligations.WipesTestsAndLogs
  refine ⟨fun s => ⟨fun pg e rest hpage hpresent hfifo => ends_errEntryRead hpage hpresent hfifo, fun h e rest hh he hlog =>
        ⟨_, exec_repairLogRead_cons hh he hlog, tblGet_set_same [] s.mteLog h rest, rfl, rfl, onlyRegisters_refl s⟩,
      fun h hh hlog => exec_repairLogRead_nil hh hlog⟩,
    fun s h hh => ⟨ends_tamper s, exec_supplyGlitch s hh, fun bad hwipe => exec_wipeDone hh hwipe bad, fun q v hq hlive hidle => ?_,
      fun rows free words log hcomp hrun => exec_mteDone hh hcomp hrun rows free words log⟩⟩
  have hexec := exec_mteStart hh hq hlive hidle v
  refine ⟨fun hstart => ?_, fun hfree hstart hok => ?_, fun hbusy hstart => ?_⟩
  · rw [hexec, State.mteStart_unstarted s h hstart]
  · rw [State.mteStart_begins hstart hfree hok] at hexec
    obtain ⟨hstate, hcode⟩ := State.rd_mteBegun (s.mteFields h v) h ⟨bits v 0 2, bits v 8 6, bit v 16, bit v 17⟩
    exact ⟨_, hexec, hstate, hcode, State.mteLog_mteBegun _ h _, (onlyRegisters_mteBegun s _ h _).mpr (onlyRegisters_mteFields s h v)⟩
  · rw [hexec, State.mteStart_busy hstart hbusy]

end Sys2Proof.Machine
end

section
/-!
SUPPORT. Element formats: the value of a code rounds back to the code (R454, R455, R459).
-/
namespace Sys2Proof.Machine

/-! Bit lengths. -/

theorem Num.bitLen_le {m k : Nat} (h : m < 2 ^ k) : Num.bitLen m ≤ k := by
  unfold Num.bitLen
  split
  · exact Nat.zero_le k
  · exact (Nat.log2_lt ‹_›).mpr h

/-- A significand with its leading bit at bit `k` has `k + 1` bits. -/
theorem Num.bitLen_normal {k x : Nat} (h : x < 2 ^ k) : Num.bitLen (2 ^ k + x) = k + 1 := by
  have hpos := Nat.two_pow_pos k
  have hlog : Nat.log2 (2 ^ k + x) = k := (Nat.log2_eq_iff (by omega)).mpr ⟨Nat.le_add_right _ _, by rw [Nat.pow_succ]; omega⟩
  rw [Num.bitLen, if_neg (by omega), hlog]

/-! A finite code rounds to itself. -/

section Format
variable (f : FloatFmt)

/-- A subnormal value, or zero: its significand is its code. -/
theorem FloatFmt.roundMag_subnormal {m : Nat} (h : m < 2 ^ f.mb) : f.roundMag m (1 - f.bias - f.mb) = m := by
  have hlen := Num.bitLen_le h
  have hq : max (1 - f.bias - f.mb + (Num.bitLen m : Int) - (f.mb + 1)) (1 - f.bias - f.mb) = 1 - f.bias - f.mb := by omega
  simp only [FloatFmt.roundMag, hq, Int.le_refl, if_true, Int.sub_self, Int.toNat_zero, Nat.pow_zero, Nat.mul_one, Nat.zero_mul, Nat.zero_add]
  split
  next hzero => exact hzero.symm
  next => rfl

/-- A normal value: its exponent field and its fraction make its code. -/
theorem FloatFmt.roundMag_normal {e x : Nat} (he : 1 ≤ e) (hx : x < 2 ^ f.mb) :
    f.roundMag (2 ^ f.mb + x) ((e : Int) - f.bias - f.mb) = e * 2 ^ f.mb + x := by
  have hpos := Nat.two_pow_pos f.mb
  have hlen := Num.bitLen_normal hx
  have hq : max ((e : Int) - f.bias - f.mb + ((f.mb + 1 : Nat) : Int) - (f.mb + 1)) (1 - f.bias - f.mb) = (e : Int) - f.bias - f.mb := by push_cast; omega
  have hexp : ((e : Int) - f.bias - f.mb - (1 - f.bias - f.mb)).toNat = e - 1 := by omega
  simp only [FloatFmt.roundMag, hlen, hq, Int.le_refl, if_true, Int.sub_self, Int.toNat_zero, Nat.pow_zero, Nat.mul_one, hexp]
  rw [if_neg (by omega), ← Nat.add_assoc, ← Nat.succ_mul, Nat.succ_eq_add_one, Nat.sub_add_cancel he]

/-- The sign bit and the magnitude make the code again. -/
theorem FloatFmt.signed_decode {c : Nat} (h : c < 2 ^ (f.eb + f.mb + 1)) : f.signed (bit c (f.eb + f.mb)) (c % 2 ^ (f.eb + f.mb)) = c := by
  have hsplit := Nat.mod_add_div c (2 ^ (f.eb + f.mb))
  have hlt : c / 2 ^ (f.eb + f.mb) < 2 := Nat.div_lt_of_lt_mul (by rwa [Nat.pow_succ] at h)
  rcases Nat.lt_succ_iff_lt_or_eq.mp hlt with hlow | hhigh
  · have hzero : c / 2 ^ (f.eb + f.mb) = 0 := Nat.lt_one_iff.mp hlow
    simp only [FloatFmt.signed, bit, hzero]
    simp only [hzero, Nat.mul_zero] at hsplit
    simpa using hsplit
  · simp only [FloatFmt.signed, bit, hhigh]
    simp only [hhigh, Nat.mul_one] at hsplit
    simpa using hsplit

/-- What a code above the largest finite one, and a finite one, decode to. -/
theorem FloatFmt.decode_cases (c : Nat) (hnan : (f.decode c).isNan = false) :
    f.decode c = .inf (bit c (f.eb + f.mb)) ∧ c % 2 ^ (f.eb + f.mb) = f.maxCode + 1 ∧ (f.maxCode + 1) % 2 ^ f.mb = 0 ∨
      ∃ m e, f.decode c = .fin (bit c (f.eb + f.mb)) m e ∧ f.roundMag m e = c % 2 ^ (f.eb + f.mb) ∧ c % 2 ^ (f.eb + f.mb) ≤ f.maxCode := by
  have hdiv := Nat.div_add_mod (c % 2 ^ (f.eb + f.mb)) (2 ^ f.mb)
  have hfrac : c % 2 ^ (f.eb + f.mb) % 2 ^ f.mb < 2 ^ f.mb := Nat.mod_lt _ (Nat.two_pow_pos _)
  simp only [FloatFmt.decode] at hnan ⊢
  by_cases hbig : f.maxCode < c % 2 ^ (f.eb + f.mb)
  · rw [if_pos hbig] at hnan ⊢
    by_cases hinf : c % 2 ^ (f.eb + f.mb) = f.maxCode + 1 ∧ c % 2 ^ (f.eb + f.mb) % 2 ^ f.mb = 0
    · obtain ⟨hmag, hwhole⟩ := id hinf
      exact .inl ⟨if_pos hinf, hmag, hmag ▸ hwhole⟩
    · rw [if_neg hinf] at hnan
      exact absurd hnan (by decide)
  · rw [if_neg hbig]
    by_cases hsub : c % 2 ^ (f.eb + f.mb) / 2 ^ f.mb = 0
    · refine .inr ⟨_, _, if_pos hsub, FloatFmt.roundMag_subnormal f ?_, Nat.not_lt.mp hbig⟩
      exact (Nat.div_eq_zero_iff_lt (Nat.two_pow_pos _)).mp hsub
    · refine .inr ⟨_, _, if_neg hsub, (FloatFmt.roundMag_normal f (Nat.one_le_iff_ne_zero.mpr hsub) hfrac).trans ?_, Nat.not_lt.mp hbig⟩
      rw [Nat.mul_comm, hdiv]

end Format

/-! Conversion. -/

theorem convert_fin {f m : Nat} {s : Bool} {e : Int} (h : (floatFmt f).roundMag m e ≤ (floatFmt f).maxCode) :
    convert f (.fin s m e) = ⟨(floatFmt f).signed s ((floatFmt f).roundMag m e), false, false⟩ := if_pos h

theorem convert_inf {f : Nat} (s : Bool) (h : f ≠ Fmt.E4M3) : convert f (.inf s) = ⟨(floatFmt f).signed s ((floatFmt f).maxCode + 1), false, true⟩ := if_neg h

/-- E4M3 has no infinity: its code above the largest finite one has a fraction, so it is a NaN. -/
theorem ne_e4m3_of_infinity {f : Nat} (h : ((floatFmt f).maxCode + 1) % 2 ^ (floatFmt f).mb = 0) : f ≠ Fmt.E4M3 := by
  rintro rfl
  exact absurd h (by decide)

/-- A format's codes have its sign bit above its magnitude. -/
theorem codeBits {f : Nat} (h : f ∈ [Fmt.FP32, Fmt.BF16, Fmt.E4M3, Fmt.E5M2]) : 8 * fmtUnit f = (floatFmt f).eb + (floatFmt f).mb + 1 := by
  revert f
  decide

/-- Settles O12: a code that is no NaN is an infinity or a finite value; the finite value rounds to its magnitude, and the sign bit makes the code
again. -/
theorem formatRoundTrip : Obligations.FormatRoundTrip := by
  unfold Obligations.FormatRoundTrip
  intro f hf c hc hnan
  rw [codeBits hf] at hc
  have hcode := FloatFmt.signed_decode (floatFmt f) hc
  rcases FloatFmt.decode_cases (floatFmt f) c hnan with ⟨hinf, hmag, hwhole⟩ | ⟨m, e, hfin, hround, hmost⟩
  · rw [hinf, convert_inf _ (ne_e4m3_of_infinity hwhole), ← hmag]
    exact ⟨hcode, rfl⟩
  · rw [hfin, convert_fin (by rwa [hround]), hround]
    exact ⟨hcode, rfl⟩

end Sys2Proof.Machine
end

section
/-!
SUPPORT. The clearing sum: its maxima and totals do not depend on the order of the roster, nor on the order in which contributions arrived under their
keys (R647, R665, R668, R697).
-/
namespace Sys2Proof.Machine

/-! Maxima row by row. -/

theorem zipWith_max_comm (a b : List Nat) : a.zipWith max b = b.zipWith max a := List.zipWith_comm_of_comm Nat.max_comm

theorem zipWith_max_assoc : ∀ a b c : List Nat, (a.zipWith max b).zipWith max c = a.zipWith max (b.zipWith max c)
  | [], _, _ => rfl
  | _ :: _, [], _ => rfl
  | _ :: _, _ :: _, [] => rfl
  | x :: a, y :: b, z :: c => by simp only [List.zipWith_cons_cons, Nat.max_assoc, zipWith_max_assoc a b c]

/-- Two rows enter a running maximum in either order. -/
theorem zipWith_max_right_comm (a b c : List Nat) : (a.zipWith max b).zipWith max c = (a.zipWith max c).zipWith max b := by
  rw [zipWith_max_assoc, zipWith_max_comm b c, ← zipWith_max_assoc]

/-- The maximum of the rows of a roster does not depend on their order. -/
theorem maxRows_perm {l m : List (List Nat)} (h : l.Perm m) : maxRows l = maxRows m := by
  induction h with
  | nil => rfl
  | cons r h _ => exact h.foldl_eq' (fun x _ y _ z => zipWith_max_right_comm z x y) r
  | swap r t l =>
    show l.foldl _ (t.zipWith max r) = l.foldl _ (r.zipWith max t)
    rw [zipWith_max_comm]
  | trans _ _ ih ih' => exact ih.trans ih'

/-! Totals. -/

/-- A total over the roster does not depend on its order. -/
theorem foldl_add_perm {β : Type} (g : β → Int) {l m : List β} (h : l.Perm m) : l.foldl (fun t row => t + g row) 0 = m.foldl (fun t row => t + g row) 0 :=
  h.foldl_eq' (fun x _ y _ t => Int.add_right_comm t (g x) (g y)) 0

/-! Contributions under their keys. -/

/-- With distinct keys, the entry of a key is the one that is found. -/
theorem find?_key_of_mem {κ β : Type} [DecidableEq κ] {l : List (κ × β)} (hkeys : (l.map (·.1)).Nodup) {e : κ × β} (he : e ∈ l) :
    (l.find? fun x => x.1 = e.1) = some e := by
  induction l with
  | nil => exact absurd he List.not_mem_nil
  | cons x l ih =>
    obtain ⟨hx, hrest⟩ := List.nodup_cons.mp hkeys
    rcases List.mem_cons.mp he with rfl | hl
    · exact List.find?_cons_of_pos (by simp)
    · have hne : x.1 ≠ e.1 := fun h => hx (List.mem_map.mpr ⟨e, hl, h.symm⟩)
      rw [List.find?_cons_of_neg (by simp [hne]), ih hrest hl]

/-- With distinct keys, what stands under a key does not depend on the order of the entries. -/
theorem find?_key_perm {κ β : Type} [DecidableEq κ] {l m : List (κ × β)} (h : l.Perm m) (hkeys : (l.map (·.1)).Nodup) (key : κ) :
    (l.find? fun e => e.1 = key) = m.find? fun e => e.1 = key := by
  cases hfind : l.find? fun e => e.1 = key with
  | some e =>
    obtain rfl : e.1 = key := by simpa using List.find?_some hfind
    have hmem := h.mem_iff.mp (List.mem_of_find?_eq_some hfind)
    exact (find?_key_of_mem ((h.map (·.1)).nodup_iff.mp hkeys) hmem).symm
  | none => exact (List.find?_eq_none.mpr fun e he => List.find?_eq_none.mp hfind e (h.mem_iff.mpr he)).symm

theorem CollStep.valsOf_perm {st u : CollStep} (h : st.got.Perm u.got) (hkeys : (st.got.map (·.1)).Nodup) (stage c r : Nat) :
    u.valsOf stage c r = st.valsOf stage c r := by
  rw [CollStep.valsOf, CollStep.valsOf, find?_key_perm h hkeys]

/-- The exponent bytes of a chunk do not depend on the order of the roster or of the arrivals. -/
theorem CollStep.chunkEb_perm {st u : CollStep} (h : st.got.Perm u.got) (hkeys : (st.got.map (·.1)).Nodup) {ranks others : List Nat}
    (hranks : ranks.Perm others) (c : Nat) : u.chunkEb others c = st.chunkEb ranks c := by
  simp only [CollStep.chunkEb, ← find?_key_perm h hkeys]
  exact (maxRows_perm (hranks.map _)).symm

/-- Settles O13: the maxima and the totals of the clearing sum are the same over a permuted roster, and each rank's contribution is found under its key
whatever the order of arrival. -/
theorem clearingOrderFree : Obligations.ClearingOrderFree := by
  unfold Obligations.ClearingOrderFree
  intro st u j ranks others c hclears hranks hgot hkeys
  have hvals := CollStep.valsOf_perm hgot hkeys
  have heb := CollStep.chunkEb_perm hgot hkeys hranks c
  simp only [CollStep.reduced, hclears, if_true, hvals, heb]
  split
  · have hrows := hranks.map fun r => j.mintPatterns (bytesOf (st.valsOf Stage.DATA c r)) c
    rw [maxRows_perm (hrows.map blockMax)]
    exact List.map_congr_left fun i _ => by rw [foldl_add_perm (fun row => clearQuant _ (row.getD i 0)) hrows]
  · have hrows := hranks.map fun r => st.valsOf Stage.DATA c r
    exact List.map_congr_left fun i _ => by rw [foldl_add_perm (fun row => row.getD i 0) hrows]

end Sys2Proof.Machine
end

section
/-!
SUPPORT. One nanosecond on an empty queue: the tiles count their busy cycles, and nothing else shows it.
-/
namespace Sys2Proof.Machine

/-- TIL_BUSY alone changes while tiles run their slices (R478): what holds of a state for every change of such a counter holds after the count. -/
theorem State.countBusy_keeps {P : State → Prop} (hcount : ∀ t i n, i < 48 → P t → P (t.countWrap (Reg.TIL_BUSY.CYCLES i) n)) {s : State} (h : P s) :
    P s.countBusy := by
  unfold State.countBusy
  split
  · exact h
  · refine List.foldlRecOn _ _ h fun t ht i hi => ?_
    split
    · exact hcount t i _ (List.mem_range.mp hi) ht
    · exact ht

theorem State.onlyRegisters_countBusy (s : State) : OnlyRegisters s s.countBusy :=
  State.countBusy_keeps (fun t i n _ h => (onlyRegisters_countWrap s t (Reg.TIL_BUSY.CYCLES i) n).mpr h) (onlyRegisters_refl s)

theorem State.cell_countBusy (s : State) {k : Nat} (hk : ∀ i, i < 48 → k ≠ (Reg.TIL_BUSY.CYCLES i).key) : s.countBusy.cell k = s.cell k :=
  State.countBusy_keeps (P := fun t => t.cell k = s.cell k) (fun t i _ hi h => (State.cell_wr_ne t _ _ (hk i hi)).trans h) rfl

/-- A nanosecond changes the two clocks and TIL_BUSY. -/
theorem State.tick_eq (s : State) : ∃ fine, s.tick = { s.countBusy with uptime := s.uptime + 1, timeFine := fine } := by
  unfold State.tick
  split
  · exact ⟨_, rfl⟩
  · exact ⟨_, rfl⟩

theorem step_of_empty {s : State} (h : s.pending = []) : step s = .next s.tick := by rw [step, h]

/-- Settles O1: the step matches on the queue, and a nanosecond is the count of the busy cycles with the two clocks advanced. -/
theorem queueStep : Obligations.QueueStep := by
  unfold Obligations.QueueStep
  refine ⟨fun _ _ _ => rfl, fun s hempty => ⟨step_of_empty hempty, ?_⟩⟩
  obtain ⟨fine, htick⟩ := s.tick_eq
  obtain ⟨hfuses, hmem, -, -, hvault, hops, -⟩ := s.onlyRegisters_countBusy
  rw [htick]
  exact ⟨rfl, hmem, hops, hfuses, hvault, fun k hk => s.cell_countBusy hk⟩

end Sys2Proof.Machine
end

section
/-!
SUPPORT. Counterfoils, and the writes of postable registers: what a write reaches that lands whole in one register, and what it leaves (R75, R76,
R83, R95, R96, R101).
-/
namespace Sys2Proof.Machine

/-! Counterfoils (R95). -/

/-- Two words are each other's complement when they add up to all ones. -/
theorem xor_eq_ones_iff {a b : Nat} (ha : a < 2 ^ 32) : a ^^^ b = 0xFFFFFFFF ↔ a + b = 2 ^ 32 - 1 := by
  have hnot : a ^^^ 0xFFFFFFFF = 2 ^ 32 - 1 - a := by
    have h := congrArg BitVec.toNat (BitVec.xor_allOnes (x := BitVec.ofNat 32 a))
    simpa [Nat.mod_eq_of_lt (show a < 4294967296 from ha)] using h
  constructor
  · intro h
    have hb' : b = a ^^^ 0xFFFFFFFF := by rw [← h, ← Nat.xor_assoc, Nat.xor_self, Nat.zero_xor]
    omega
  · intro h
    have hb' : b = a ^^^ 0xFFFFFFFF := by omega
    rw [hb', ← Nat.xor_assoc, Nat.xor_self, Nat.zero_xor]

theorem cfOk_iff_xor (w : Nat) : cfOk w = true ↔ (w % 2 ^ 32) ^^^ (w / 2 ^ 32 % 2 ^ 32) = 0xFFFFFFFF := by
  rw [xor_eq_ones_iff (Nat.mod_lt _ (by decide)), cfOk, decide_eq_true_eq]

/-- The halves of a counterfoil. -/
theorem cfOf_halves {v : Nat} (h : v < 2 ^ 32) : cfOf v % 2 ^ 32 = v ∧ cfOf v / 2 ^ 32 = 0xFFFFFFFF - v := by
  rw [cfOf]
  omega

/-- Settles O3: halves that add up to all ones are complements, and the counterfoil of a value is built of such halves. -/
theorem counterfoils : Obligations.Counterfoils := by
  unfold Obligations.Counterfoils
  exact ⟨cfOk_iff_xor, fun v h => ⟨cfVal_cfOf h, cfOf_halves h⟩⟩

/-! A write that lands in one register. -/

/-- A write of one or two words onto one register, aligned to its size. -/
def whole (off size : Nat) : Bool := (size = 4 && off % 4 = 0) || (size = 8 && off % 8 = 0)

theorem badAccess_of_whole {off size : Nat} (h : whole off size) : badAccess off size 0xFF = false := by
  have hlow : wordOn 0xFF 0 = true := by decide
  have hhigh : wordOn 0xFF 1 = true := by decide
  rw [badAccess, hlow, hhigh]
  simpa only [Bool.and_true, Bool.not_eq_false', whole] using h

/-- A whole write of four bytes, or of one 64-bit register, arrives at its page in one part. -/
theorem State.pageWrite_whole {s : State} {q : Req} {off size o v : Nat} (hacts : s.Acts q off) (hhit : hitOf q off = .page o)
    (hpresent : s.pageAbsent (o / 0x1000) = false) (htakes : takesWrites q (o / 0x1000)) (hwhole : whole off size)
    (hwide : size = 8 → wideAt o = true) : s.pageWrite q off size 0xFF v = s.partWrite q o size v := by
  have hlow : wordOn 0xFF 0 = true := by decide
  have hhigh : wordOn 0xFF 1 = true := by decide
  have haligned : ((size = 4 && off % 4 = 0) || (size = 8 && off % 8 = 0)) = true := hwhole
  simp only [State.pageWrite, State.arrives_of_acts hacts, badAccess_of_whole hwhole, hhit, hpresent, htakes, hlow, hhigh, haligned, Bool.false_eq_true,
    if_false, if_true, Bool.and_self, State.wordWrite]
  simp only [whole, Bool.or_eq_true, Bool.and_eq_true, decide_eq_true_eq] at hwhole
  obtain ⟨rfl, -⟩ | ⟨rfl, -⟩ := hwhole
  · rfl
  · simp [hwide rfl]

/-! Live writes of postable registers (R101). -/

theorem State.liveOffset_posted {s : State} {off key : Nat} {r : RegRow} (hrow : regRowAt off = some (r, key)) (hposted : r.posted) (q : Req) (k : PageKind)
    (i n v : Nat) : s.liveOffset q k i off n v = s.raise (off / 0x1000) 24 := by
  simp only [State.liveOffset, hrow, hposted, if_true]

theorem State.partWrite_live {s : State} {off i : Nat} {k : PageKind} (hk : pageKind (off / 0x1000) = some (k, i)) (hlive : off % 0x1000 < 0x800)
    (q : Req) (n v : Nat) : s.partWrite q off n v = s.liveOffset q k i off n v := by
  simp only [State.partWrite, hk, if_neg (show ¬(k ≠ .ring ∧ 0x800 ≤ off % 0x1000) by omega)]

theorem State.partWrite_staged {s : State} {off i : Nat} {k : PageKind} (hk : pageKind (off / 0x1000) = some (k, i)) (hr : k ≠ .ring)
    (hstaged : 0x800 ≤ off % 0x1000) (q : Req) (n v : Nat) : s.partWrite q off n v = s.stagedOffset q k i (off - 0x800) n v := by
  simp only [State.partWrite, hk, if_pos (And.intro hr hstaged)]

/-- A raised event of a page shows there, and the registers beside EVT_RAW and the staged view are as before. -/
theorem State.raise_shows (s : State) (pg : Nat) {i : Nat} (hi : i < 32) :
    bit ((s.raise pg i).rd (Reg.EVT_RAW.RAW pg)) i ∧ (s.raise pg i).staged = s.staged ∧ ∀ c, c ≠ 0x1000 * pg + 0x10 → (s.raise pg i).cell c = s.cell c :=
  ⟨State.evtRaw_raise s pg hi, State.raise_staged s pg i, fun _ hc => State.cell_raise s pg i hc⟩

/-- Settles O4: a postable register's live offset raises STAGE_VIOLATION and nothing else. -/
theorem postableLiveWrite : Obligations.PostableLiveWrite := by
  unfold Obligations.PostableLiveWrite
  intro s q off size o key v k i r hacts hhit hpresent htakes hk hr hlive hrow hposted hsize
  have hwhole : whole off size := by
    simp only [whole, Bool.or_eq_true, Bool.and_eq_true, decide_eq_true_eq]
    omega
  have hwide : size = 8 → wideAt o = true := by
    intro h8
    obtain ⟨h4, -⟩ | ⟨-, -, hbytes, hkey⟩ := hsize
    · omega
    · simp only [wideAt, if_neg (Nat.not_le.mpr hlive), hrow]
      simp [hbytes, hkey]
  obtain ⟨hevt, hstaged, hcells⟩ := State.raise_shows s (o / 0x1000) (show 24 < 32 by decide)
  refine ⟨s.raise (o / 0x1000) 24, ?_, hevt, hstaged, (onlyRegisters_raise s s _ _).mpr (onlyRegisters_refl s), hcells⟩
  show execRegisterWrite q off size 0xFF v s = _
  rw [execRegisterWrite, State.pageWrite_whole hacts hhit hpresent htakes hwhole hwide, State.partWrite_live hk hlive,
    State.liveOffset_posted hrow hposted]

/-! Staged writes (R75, R76, R83, R96). -/

/-- The bits of a register value after a write of some of them. -/
theorem testBit_mergeBits (old w : Nat) {m : Nat} (hm : m < 2 ^ 64) {b : Nat} (hb : b < 64) :
    (mergeBits old w m).testBit b = if m.testBit b then w.testBit b else old.testBit b := by
  have hnot : (2 ^ 64 - 1 - m).testBit b = !m.testBit b := by
    have h := Nat.testBit_two_pow_sub_succ hm b
    rw [show 2 ^ 64 - (m + 1) = 2 ^ 64 - 1 - m by omega] at h
    simpa [hb] using h
  rw [mergeBits, Nat.testBit_or, Nat.testBit_and, Nat.testBit_and, hnot]
  cases m.testBit b <;> simp

theorem testBit_laneMask_zero (n b : Nat) : (laneMask 0 n).testBit b = decide (b < 8 * n) := by
  simp [laneMask, Nat.testBit_two_pow_sub_one]

theorem laneMask_zero_lt {n : Nat} (h : n ≤ 8) : laneMask 0 n < 2 ^ 64 := by
  have hpow : 2 ^ (8 * n) ≤ 2 ^ 64 := Nat.pow_le_pow_right (by decide) (by omega)
  have hpos := Nat.two_pow_pos (8 * n)
  simp only [laneMask, Nat.mul_zero, Nat.pow_zero, Nat.mul_one]
  omega

/-- A field that is the whole register takes the value. -/
theorem Fld.put_full (key : Nat) (c : DWord) (v : Nat) : (⟨key, 0, 64⟩ : Fld).put c v = BitVec.ofNat 64 v := by
  apply BitVec.eq_of_toNat_eq
  apply Nat.eq_of_testBit_eq
  intro i
  rw [Fld.testBit_put, testBit_ofNat64]
  by_cases hi : i < 64 <;> simp [hi]

theorem testBit_toNat_ge (c : DWord) {b : Nat} (hb : 64 ≤ b) : c.toNat.testBit b = false :=
  Nat.testBit_lt_two_pow (Nat.lt_of_lt_of_le c.isLt (Nat.pow_le_pow_right (by decide) hb))

@[simp] theorem State.stagedCell_wr (s : State) (f : Fld) (v k : Nat) : (s.wr f v).stagedCell k = s.stagedCell k := rfl

/-- R76: a staged register that takes a value shows it, its cluster is dirty, and no other register of either view changes. -/
theorem State.stageFld_full (s : State) {key : Nat} (v : Nat) (hkey : key % 0x1000 < 0x800) :
    (s.stageFld ⟨key, 0, 64⟩ v).stagedCell key = BitVec.ofNat 64 v
      ∧ (∀ c, c ≠ key → (s.stageFld ⟨key, 0, 64⟩ v).stagedCell c = s.stagedCell c)
      ∧ bit ((s.stageFld ⟨key, 0, 64⟩ v).rd (Reg.STAGE_DIRTY.CLUSTER (key / 0x1000))) (key % 0x1000 / 64)
      ∧ ∀ c, c ≠ 0x1000 * (key / 0x1000) + 0x24 → (s.stageFld ⟨key, 0, 64⟩ v).cell c = s.cell c := by
  refine ⟨?_, fun c hc => ?_, ?_, fun c hc => ?_⟩
  · rw [State.stageFld, ← Fld.put_full key (s.stagedCell key)]
    exact State.stagedCell_setStaged_same s key _
  · exact State.stagedCell_setStaged_ne s _ hc
  · rw [State.stageFld, State.rd_wr _ _ _ (by simp [Reg.STAGE_DIRTY.CLUSTER]), bit_eq_testBit, Nat.testBit_mod_two_pow, ← bit_eq_testBit, bit_setBit_true,
      Bool.and_true, decide_eq_true_eq]
    show key % 0x1000 / 64 < 32
    omega
  · rw [State.stageFld, State.cell_wr_ne _ _ _ (by simpa [Reg.STAGE_DIRTY.CLUSTER] using hc)]
    exact State.cell_setStaged _ _ _ _

/-- The counterfoils of the register tables are 64-bit registers. -/
theorem bytes_of_cf {off key : Nat} {r : RegRow} (hrow : regRowAt off = some (r, key)) (hcf : r.cf) : r.bytes = 8 := by
  have hrows : ∀ k, ∀ x ∈ pageRows k, x.cf = true → x.bytes = 8 := by intro k; cases k <;> decide
  have hfind : ∀ {l : List RegRow} {o : Nat} {x : RegRow} {y : Nat}, findRow l o = some (x, y) → x ∈ l := by
    intro l
    induction l with
    | nil => intro o x y h; cases h
    | cons z l ih =>
      intro o x y h
      rw [findRow] at h
      split at h
      · cases h; exact List.mem_cons_self
      · exact List.mem_cons_of_mem _ (ih h)
  unfold regRowAt at hrow
  split at hrow
  · cases hrow
  · split at hrow
    · cases hrow
    · split at hrow
      · cases hrow
      · rename_i hfound
        obtain ⟨rfl, -⟩ := Prod.mk.inj (Option.some.inj hrow)
        have hin := hrows _ _ (hfind hfound)
        split at hcf
        · rename_i h5
          rw [if_pos h5]
          exact hin hcf
        · rename_i h5
          rw [if_neg h5]
          exact hin hcf

/-! What a staged offset answers, case by case. -/

section Staged

variable {s : State} {q : Req} {k : PageKind} {i off : Nat} {r : RegRow}

theorem State.stagedOffset_frozen (hrow : regRowAt off = some (r, off)) (hposted : r.posted) (hstager : s.stager q k i)
    (hfrozen : s.frozen (off / 0x1000)) (n v : Nat) : s.stagedOffset q k i off n v = s.raise (off / 0x1000) 24 := by
  simp only [State.stagedOffset, hrow, hposted, hstager, hfrozen, Bool.not_true, Bool.false_eq_true, if_false, if_true]

theorem State.stagedOffset_cf (hrow : regRowAt off = some (r, off)) (hposted : r.posted) (hstager : s.stager q k i)
    (hfree : s.frozen (off / 0x1000) = false) (hcf : r.cf) {v : Nat} (hv : v < 2 ^ 64) :
    s.stagedOffset q k i off 8 v = if cfOk v then s.stageFld ⟨off, 0, 64⟩ v else s.raise (off / 0x1000) 25 := by
  simp only [State.stagedOffset, hrow, hposted, hstager, hfree, hcf, Bool.not_true, Bool.false_eq_true, if_false, if_true, Nat.mod_eq_of_lt hv, true_and]

theorem State.stagedOffset_plain (hrow : regRowAt off = some (r, off)) (hposted : r.posted) (hstager : s.stager q k i)
    (hfree : s.frozen (off / 0x1000) = false) (hcf : r.cf = false) {n v : Nat} (hv : v < 2 ^ (8 * n)) :
    s.stagedOffset q k i off n v
      = (s.stageFld ⟨off, 0, 64⟩ (mergeBits (s.stagedCell off).toNat v (r.rw &&& laneMask 0 n))).wr (Reg.STAGE_DIRTY.CLUSTER (off / 0x1000))
          (setBit ((s.stageFld ⟨off, 0, 64⟩ (mergeBits (s.stagedCell off).toNat v (r.rw &&& laneMask 0 n))).rd (Reg.STAGE_DIRTY.CLUSTER (off / 0x1000)))
            (off % 0x1000 / 64) true) := by
  simp only [State.stagedOffset, hrow, hposted, hstager, hfree, hcf, Bool.not_true, Bool.false_eq_true, if_false, Nat.sub_self, Nat.mul_zero, Nat.pow_zero,
    Nat.mul_one, Nat.mod_eq_of_lt hv]

/-- R75, R76: a staged register that is no counterfoil takes the writable bits and keeps the others. -/
theorem State.stagedOffset_plain_shows (hrow : regRowAt off = some (r, off)) (hposted : r.posted) (hstager : s.stager q k i)
    (hfree : s.frozen (off / 0x1000) = false) (hcf : r.cf = false) {n v : Nat} (hn : n ≤ 8) (hv : v < 2 ^ (8 * n)) (hoff : off % 0x1000 < 0x800) :
    (∀ b, b < 8 * n → r.rw.testBit b → ((s.stagedOffset q k i off n v).stagedCell off).toNat.testBit b = v.testBit b)
      ∧ (∀ b, r.rw.testBit b = false → ((s.stagedOffset q k i off n v).stagedCell off).toNat.testBit b = (s.stagedCell off).toNat.testBit b)
      ∧ bit ((s.stagedOffset q k i off n v).rd (Reg.STAGE_DIRTY.CLUSTER (off / 0x1000))) (off % 0x1000 / 64)
      ∧ (∀ c, c ≠ off → (s.stagedOffset q k i off n v).stagedCell c = s.stagedCell c)
      ∧ ∀ c, c ≠ 0x1000 * (off / 0x1000) + 0x24 → (s.stagedOffset q k i off n v).cell c = s.cell c := by
  have hmask : r.rw &&& laneMask 0 n < 2 ^ 64 := Nat.lt_of_le_of_lt Nat.and_le_right (laneMask_zero_lt hn)
  obtain ⟨hval, hstaged, -, hcells⟩ := s.stageFld_full (mergeBits (s.stagedCell off).toNat v (r.rw &&& laneMask 0 n)) hoff
  rw [State.stagedOffset_plain hrow hposted hstager hfree hcf hv]
  refine ⟨fun b hb hbit => ?_, fun b hbit => ?_, ?_, hstaged, fun c hc => ?_⟩
  · have h64 : b < 64 := by omega
    rw [State.stagedCell_wr, hval, testBit_ofNat64, testBit_mergeBits _ _ hmask h64]
    simp [h64, hbit, testBit_laneMask_zero, hb]
  · rw [State.stagedCell_wr, hval, testBit_ofNat64]
    by_cases h64 : b < 64
    · rw [testBit_mergeBits _ _ hmask h64]
      simp [h64, hbit]
    · simp [h64, testBit_toNat_ge (s.stagedCell off) (Nat.not_lt.mp h64)]
  · rw [State.rd_wr _ _ _ (by simp [Reg.STAGE_DIRTY.CLUSTER]), bit_eq_testBit, Nat.testBit_mod_two_pow, ← bit_eq_testBit, bit_setBit_true, Bool.and_true, decide_eq_true_eq]
    show off % 0x1000 / 64 < 32
    omega
  · rw [State.cell_wr_ne _ _ _ hc, hcells c hc]

end Staged

/-- A staged write that the page takes is one access of the staged view. -/
theorem State.pageWrite_staged {s : State} {q : Req} {off size o key v i : Nat} {k : PageKind} {r : RegRow} (hacts : s.Acts q off)
    (hhit : hitOf q off = .page o) (hpresent : s.pageAbsent (o / 0x1000) = false) (htakes : takesWrites q (o / 0x1000))
    (hk : pageKind (o / 0x1000) = some (k, i)) (hr : k ≠ .ring) (hlow : 0x800 ≤ o % 0x1000) (hrow : regRowAt (o - 0x800) = some (r, key))
    (hkey : key = o - 0x800) (halign : off % size = 0) (hsize : size = r.bytes) (hbytes : size = 4 ∨ size = 8) :
    s.pageWrite q off size 0xFF v = s.stagedOffset q k i key size v := by
  have hwhole : whole off size := by
    obtain rfl | rfl := hbytes
    · simp [whole, halign]
    · simp [whole, halign]
  have hwide : size = 8 → wideAt o = true := by
    intro h8
    simp only [wideAt, if_pos hlow, hrow]
    simp [← hsize, h8, hkey]
  rw [State.pageWrite_whole hacts hhit hpresent htakes hwhole hwide, State.partWrite_staged hk hr hlow, hkey]

/-- Settles O5: a staged write that its page takes is `stagedOffset` of the register, and each clause is one of its cases. -/
theorem stagedWrites : Obligations.StagedWrites := by
  unfold Obligations.StagedWrites
  intro s q off size o key v k i r hacts hhit hpresent htakes hk hr hstager hlow hrow hposted hkey halign hsize hbytes hv
  have hpage : o / 0x1000 = key / 0x1000 := by omega
  have hoff : key % 0x1000 < 0x800 := by omega
  have hwrite : s.pageWrite q off size 0xFF v = s.stagedOffset q k i key size v :=
    State.pageWrite_staged hacts hhit hpresent htakes hk hr hlow hrow hkey halign hsize hbytes
  have hexec : exec (.stagedWrite q off size v) s = .next (s.stagedOffset q k i key size v) := by
    show execStagedWrite q off size v s = _
    rw [execStagedWrite, hwrite]
  have hexecCf : exec (.cfWrite q off size v) s = .next (s.stagedOffset q k i key size v) := by
    show execCfWrite q off size v s = _
    rw [execCfWrite, hwrite]
  rw [← hkey] at hrow
  rw [hpage]
  refine ⟨fun hfrozen => ⟨_, hexec, ?_⟩, fun hfree hcf => ⟨_, hexec, ?_⟩, fun hfree hcf hbad => ⟨_, hexecCf, ?_⟩, fun hfree hcf hgood => ⟨_, hexecCf, ?_⟩⟩
  · rw [State.stagedOffset_frozen hrow hposted hstager hfrozen]
    exact State.raise_shows s _ (by decide)
  · exact State.stagedOffset_plain_shows hrow hposted hstager hfree hcf (by omega) hv hoff
  · obtain rfl : size = 8 := hsize.trans (bytes_of_cf hrow hcf)
    rw [State.stagedOffset_cf hrow hposted hstager hfree hcf hv, hbad]
    exact State.raise_shows s _ (by decide)
  · obtain rfl : size = 8 := hsize.trans (bytes_of_cf hrow hcf)
    obtain ⟨hval, hstaged, -, hcells⟩ := s.stageFld_full v hoff
    rw [State.stagedOffset_cf hrow hposted hstager hfree hcf hv, if_pos hgood]
    exact ⟨by rw [hval, BitVec.toNat_ofNat, Nat.mod_eq_of_lt hv], hstaged, hcells⟩

end Sys2Proof.Machine
end

section
/-!
SUPPORT. Posting: what a start and a cancel answer, what the end of an action leaves, and the apply edge (R77-R93).
-/
namespace Sys2Proof.Machine

/-! Starting (R79-R81). -/

section Start

variable {s : State} {q : Req} {n token : Nat} (hn : n < 4) (howns : s.ownsSlot q n) (htoken : token < 2 ^ 16)
include hn howns htoken

/-- A start that its slot's owner writes is answered with its ACK; an accepted one begins. -/
theorem State.post_of_owner (mask : Nat) : s.post q n (s.rd (Reg.GLB_POST_MODE.ACTION n)) mask token
    = if s.startAck n token = Code.OK
      then (s.wr (Reg.GLB_POST_STA.ACK n) Code.OK).startAction n (s.rd (Reg.GLB_POST_MODE.ACTION n)) (mask % 65536) token
      else s.wr (Reg.GLB_POST_STA.ACK n) (s.startAck n token) := by
  have htok : token % 65536 = token := Nat.mod_eq_of_lt htoken
  simp only [State.post, htok, howns, show ¬4 ≤ n by omega, Bool.not_true, Bool.false_eq_true, ne_eq, not_true_eq_false, or_self, if_false]
  split
  next hok => rw [hok]
  next => rfl

/-- The three starts are one operation under the action that GLB_POST_MODE holds. -/
theorem exec_start {c : Instr} {mask act : Nat} (hact : act = s.rd (Reg.GLB_POST_MODE.ACTION n))
    (hc : c = .post q n mask token ∧ act = 0 ∨ c = .checkOnly q n mask token ∧ act = 1 ∨ c = .discard q n mask token ∧ act = 2) :
    exec c s = .next (if s.startAck n token = Code.OK then (s.wr (Reg.GLB_POST_STA.ACK n) Code.OK).startAction n act (mask % 65536) token
      else s.wr (Reg.GLB_POST_STA.ACK n) (s.startAck n token)) := by
  rw [hact, ← State.post_of_owner hn howns htoken mask, ← hact]
  obtain ⟨rfl, rfl⟩ | ⟨rfl, rfl⟩ | ⟨rfl, rfl⟩ := hc <;> rfl

theorem exec_cancel {mask : Nat} (hact : s.rd (Reg.GLB_POST_MODE.ACTION n) = 3) :
    exec (.cancel q n mask token) s = .next (s.cancel n (mask % 65536) token) := by
  show execCancel q n mask token s = _
  have htok : token % 65536 = token := Nat.mod_eq_of_lt htoken
  simp only [execCancel, htok, howns, hact, show ¬4 ≤ n by omega, Bool.not_true, Bool.false_eq_true, ne_eq, not_true_eq_false, or_self, if_false]

end Start

/-! ACKs (R79). -/

section Ack

variable {s : State} {n token : Nat}

theorem State.startAck_zero : s.startAck n 0 = Code.FORMAT := rfl

theorem State.startAck_busy (h0 : token ≠ 0) (hbusy : s.slotBusy n) : s.startAck n token = Code.LIMIT := by rw [State.startAck, if_neg h0, if_pos hbusy]

theorem State.startAck_duplicate (h0 : token ≠ 0) (hidle : s.slotBusy n = false) (htok : token = s.rd (Reg.GLB_POST_STA.TOKEN n)) :
    s.startAck n token = Code.DUPLICATE := by
  rw [State.startAck, if_neg h0, if_neg (by simp [hidle]), if_pos htok]

theorem State.startAck_ok (h0 : token ≠ 0) (hidle : s.slotBusy n = false) (htok : token ≠ s.rd (Reg.GLB_POST_STA.TOKEN n)) :
    s.startAck n token = Code.OK := by
  rw [State.startAck, if_neg h0, if_neg (by simp [hidle]), if_neg htok]

/-- A cancel with an ACK other than OK changes nothing else. -/
theorem State.cancel_refused {mask ack : Nat} (hack : s.cancelAck n token = ack) (hrefused : ack ≠ Code.OK) :
    s.cancel n mask token = s.wr (Reg.GLB_POST_STA.ACK n) ack := by
  simp only [State.cancel, hack, if_neg hrefused]

theorem State.cancelAck_zero : s.cancelAck n 0 = Code.FORMAT := rfl

theorem State.cancelAck_foreign (h0 : token ≠ 0) (htok : token ≠ s.rd (Reg.GLB_POST_STA.TOKEN n)) : s.cancelAck n token = Code.PERMISSION := by
  simp only [State.cancelAck, if_neg h0, if_pos htok]

theorem State.cancelAck_applied (h0 : token ≠ 0) (htok : token = s.rd (Reg.GLB_POST_STA.TOKEN n)) (hst : s.postSt n = PostSt.APPLIED) :
    s.cancelAck n token = Code.TOO_LATE := by
  simp only [State.cancelAck, if_neg h0, if_neg (not_not.mpr htok), if_pos hst]

theorem State.cancelAck_over (h0 : token ≠ 0) (htok : token = s.rd (Reg.GLB_POST_STA.TOKEN n)) (hst : s.postSt n ≠ PostSt.APPLIED)
    (hidle : s.slotBusy n = false) : s.cancelAck n token = Code.ALREADY_DONE := by
  simp only [State.cancelAck, if_neg h0, if_neg (not_not.mpr htok), if_neg hst, hidle, Bool.not_false, if_true]

theorem State.slotBusy_iff : s.slotBusy n = true ↔ s.postSt n = PostSt.CHECKING ∨ s.postSt n = PostSt.ARMED := by simp [State.slotBusy]

theorem State.slotBusy_false_of_ne (hcheck : s.postSt n ≠ PostSt.CHECKING) (harmed : s.postSt n ≠ PostSt.ARMED) : s.slotBusy n = false := by
  simp [State.slotBusy, hcheck, harmed]

/-- R93: of a running action, a DISCARD and a post whose strobe is issued are too late to cancel. -/
theorem State.cancelAck_busy (h0 : token ≠ 0) (htok : token = s.rd (Reg.GLB_POST_STA.TOKEN n)) (hbusy : s.slotBusy n) :
    s.cancelAck n token = if (s.slot n).action = 2 ∨ (s.slot n).strobed then Code.TOO_LATE else Code.OK := by
  have hst : s.postSt n ≠ PostSt.APPLIED := by
    intro h
    rw [State.slotBusy_iff, h] at hbusy
    exact absurd hbusy (by decide)
  simp only [State.cancelAck, if_neg h0, if_neg (not_not.mpr htok), if_neg hst, hbusy, Bool.not_true, Bool.false_eq_true, if_false]

end Ack

/-- Settles O6: the ACK is `startAck` or `cancelAck` of the slot, and each clause names the first of their conditions that holds. -/
theorem postAcks : Obligations.PostAcks := by
  unfold Obligations.PostAcks
  intro s q n mask token ack hn htoken howns hack
  simp only [hack]
  refine ⟨fun c hc => ⟨fun h0 => ?_, fun h0 hbusy => ?_, fun h0 hcheck harmed htok => ?_⟩, fun c act hmask hact hc h0 hcheck harmed htok => ?_, fun hact => ?_⟩
  · subst h0
    rw [exec_start hn howns htoken rfl hc, State.startAck_zero, if_neg (by decide)]
  · rw [exec_start hn howns htoken rfl hc, State.startAck_busy h0 (State.slotBusy_iff.mpr hbusy), if_neg (by decide)]
  · rw [exec_start hn howns htoken rfl hc, State.startAck_duplicate h0 (State.slotBusy_false_of_ne hcheck harmed) htok, if_neg (by decide)]
  · rw [exec_start hn howns htoken hact hc, State.startAck_ok h0 (State.slotBusy_false_of_ne hcheck harmed) htok, if_pos rfl,
      show mask % 65536 = mask from Nat.mod_eq_of_lt hmask]
  · refine ⟨fun h0 => ?_, fun h0 htok => ?_, fun h0 htok hst => ?_, fun h0 htok hst => ?_, fun h0 htok hst hdiscard => ?_⟩ <;>
      rw [exec_cancel hn howns htoken hact]
    · subst h0
      rw [State.cancel_refused State.cancelAck_zero (by decide)]
    · rw [State.cancel_refused (State.cancelAck_foreign h0 htok) (by decide)]
    · rw [State.cancel_refused (State.cancelAck_applied h0 htok hst) (by decide)]
    · have hne : s.postSt n ≠ PostSt.APPLIED ∧ s.postSt n ≠ PostSt.CHECKING ∧ s.postSt n ≠ PostSt.ARMED := by
        obtain h | h | h := hst <;> rw [h] <;> decide
      obtain ⟨happlied, hcheck, harmed⟩ := hne
      rw [State.cancel_refused (State.cancelAck_over h0 htok happlied (State.slotBusy_false_of_ne hcheck harmed)) (by decide)]
    · have hlate := State.cancelAck_busy h0 htok (State.slotBusy_iff.mpr (.inl hst))
      rw [if_pos (.inl hdiscard)] at hlate
      rw [State.cancel_refused hlate (by decide)]

/-! The end of an action (R78). -/

/-- The fields of a slot's status, which share one register. -/
theorem State.cell_endSlot (s : State) (n st code reason page : Nat) {k : Nat} (_hn : n < 4) (hk : 0x1000 ≤ k) :
    (s.endSlot n st code reason page).cell k = s.cell k := by
  rw [State.endSlot, State.cell_raise _ _ _ (by omega), State.lastStatus, State.cell_wr_ne _ _ _ (by simp only [Reg.LAST_STATUS.CODE]; omega), State.refreshBusy,
    State.cell_wr_ne _ _ _ (by simp only [Reg.GLB_POST_BUSY.GROUPS]; omega), State.cell_wr_ne _ _ _ (by simp only [Reg.GLB_POST_STA.PAGE]; omega),
    State.cell_wr_ne _ _ _ (by simp only [Reg.GLB_POST_STA.REASON]; omega), State.cell_wr_ne _ _ _ (by simp only [Reg.GLB_POST_STA.CODE]; omega),
    State.cell_wr_ne _ _ _ (by simp only [Reg.GLB_POST_STA.STATE]; omega)]

theorem onlyRegisters_endSlot (s t : State) (n st code reason page : Nat) : OnlyRegisters s (t.endSlot n st code reason page) ↔ OnlyRegisters s t := by
  simp only [State.endSlot, State.lastStatus, State.refreshBusy, onlyRegisters_raise, onlyRegisters_wr]

/-- A field of the slot's own status after its action ends, as long as what follows leaves it. -/
theorem State.rd_endSlot (s : State) (n st code reason page : Nat) (_hn : n < 4) {f : Fld} (hf : f.key = 0x158 + 0x20 * n) :
    (s.endSlot n st code reason page).rd f = ((((s.wr (Reg.GLB_POST_STA.STATE n) st).wr (Reg.GLB_POST_STA.CODE n) code).wr (Reg.GLB_POST_STA.REASON n)
      reason).wr (Reg.GLB_POST_STA.PAGE n) page).rd f := by
  rw [State.endSlot, State.rd_raise _ _ _ _ (by omega), State.lastStatus, State.rd_wr_key _ _ _ _ (by simp only [Reg.LAST_STATUS.CODE]; omega),
    State.refreshBusy, State.rd_wr_key _ _ _ _ (by simp only [Reg.GLB_POST_BUSY.GROUPS]; omega)]

/-- What an ended action shows: its state, code and reason; its ACK stays. -/
theorem State.status_endSlot (s : State) (n : Nat) {st code reason : Nat} (page : Nat) (hn : n < 4) (hst : st < 8) (hcode : code < 256)
    (hreason : reason < 256) :
    (s.endSlot n st code reason page).postSt n = st ∧ (s.endSlot n st code reason page).rd (Reg.GLB_POST_STA.CODE n) = code
      ∧ (s.endSlot n st code reason page).rd (Reg.GLB_POST_STA.REASON n) = reason
      ∧ (s.endSlot n st code reason page).rd (Reg.GLB_POST_STA.ACK n) = s.rd (Reg.GLB_POST_STA.ACK n) := by
  have hst' : st % 2 ^ 3 = st := Nat.mod_eq_of_lt hst
  have hcode' : code % 2 ^ 8 = code := Nat.mod_eq_of_lt hcode
  have hreason' : reason % 2 ^ 8 = reason := Nat.mod_eq_of_lt hreason
  have hwide : ∀ f ∈ [Reg.GLB_POST_STA.STATE n, Reg.GLB_POST_STA.CODE n, Reg.GLB_POST_STA.REASON n, Reg.GLB_POST_STA.ACK n], f.lo + f.width ≤ 64 := by
    simp [Reg.GLB_POST_STA.STATE, Reg.GLB_POST_STA.CODE, Reg.GLB_POST_STA.REASON, Reg.GLB_POST_STA.ACK]
  refine ⟨?_, ?_, ?_, ?_⟩
  · rw [State.postSt, State.rd_endSlot _ _ _ _ _ _ hn rfl, State.rd_wr_apart _ _ _ _ (.inr rfl) (hwide _ (by simp)),
      State.rd_wr_apart _ _ _ _ (.inr rfl) (hwide _ (by simp)), State.rd_wr_apart _ _ _ _ (.inr rfl) (hwide _ (by simp)),
      State.rd_wr _ _ _ (hwide _ (by simp))]
    exact hst'
  · rw [State.rd_endSlot _ _ _ _ _ _ hn rfl, State.rd_wr_apart _ _ _ _ (.inr rfl) (hwide _ (by simp)),
      State.rd_wr_apart _ _ _ _ (.inr rfl) (hwide _ (by simp)), State.rd_wr _ _ _ (hwide _ (by simp))]
    exact hcode'
  · rw [State.rd_endSlot _ _ _ _ _ _ hn rfl, State.rd_wr_apart _ _ _ _ (.inr rfl) (hwide _ (by simp)), State.rd_wr _ _ _ (hwide _ (by simp))]
    exact hreason'
  · rw [State.rd_endSlot _ _ _ _ _ _ hn rfl, State.rd_wr_apart _ _ _ _ (.inr rfl) (hwide _ (by simp)),
      State.rd_wr_apart _ _ _ _ (.inr rfl) (hwide _ (by simp)), State.rd_wr_apart _ _ _ _ (.inr rfl) (hwide _ (by simp)),
      State.rd_wr_apart _ _ _ _ (.inr rfl) (hwide _ (by simp))]

theorem State.endSlot_postWait (s : State) (n st code reason page : Nat) : (s.endSlot n st code reason page).postWait = s.postWait := by
  simp only [State.endSlot, State.lastStatus, State.refreshBusy, State.raise_postWait, State.wr_postWait]

theorem State.endSlot_staged (s : State) (n st code reason page : Nat) : (s.endSlot n st code reason page).staged = s.staged := by
  simp only [State.endSlot, State.lastStatus, State.refreshBusy, State.raise_staged, State.wr_staged]

/-- An action that no request waits for ends in its slot alone. -/
theorem State.postEnd_of_unawaited {s : State} {n : Nat} (h : (tblGet default s.postWait n).active = false) (st code reason page : Nat) :
    s.postEnd n st code reason page = (s.setSlot n { s.slot n with strobed := false, recheck := false }).endSlot n st code reason page := by
  have hwait : (tblGet default (State.endSlot (s.setSlot n { s.slot n with strobed := false, recheck := false }) n st code reason page).postWait n).active = false := by
    rw [State.endSlot_postWait]
    exact h
  simp only [State.postEnd, State.postReply, hwait, Bool.not_false, if_true]

/-- R78: what such an end leaves. -/
theorem State.postEnd_shows {s : State} {n st code reason : Nat} (hn : n < 4) (h : (tblGet default s.postWait n).active = false) (hst : st < 8)
    (hcode : code < 256) (hreason : reason < 256) (page : Nat) :
    (s.postEnd n st code reason page).postSt n = st ∧ (s.postEnd n st code reason page).rd (Reg.GLB_POST_STA.CODE n) = code
      ∧ (s.postEnd n st code reason page).rd (Reg.GLB_POST_STA.REASON n) = reason
      ∧ (s.postEnd n st code reason page).rd (Reg.GLB_POST_STA.ACK n) = s.rd (Reg.GLB_POST_STA.ACK n)
      ∧ (s.postEnd n st code reason page).staged = s.staged ∧ (∀ k, 0x1000 ≤ k → (s.postEnd n st code reason page).cell k = s.cell k)
      ∧ OnlyRegisters s (s.postEnd n st code reason page) := by
  rw [State.postEnd_of_unawaited h]
  obtain ⟨hstate, hcodes, hreasons, hack⟩ := State.status_endSlot (s.setSlot n { s.slot n with strobed := false, recheck := false }) n page hn hst hcode hreason
  exact ⟨hstate, hcodes, hreasons, hack, State.endSlot_staged _ _ _ _ _ _, fun k hk => State.cell_endSlot _ _ _ _ _ _ hn hk,
    (onlyRegisters_endSlot _ _ _ _ _ _ _).mpr (onlyRegisters_refl s)⟩

/-! The strobe (R93). -/

theorem State.rd_ack {s : State} {n : Nat} (code : Nat) {f : Fld} (h : (Reg.GLB_POST_STA.ACK n).apart f = true) (hw : f.lo + f.width ≤ 64) :
    (s.wr (Reg.GLB_POST_STA.ACK n) code).rd f = s.rd f := State.rd_wr_apart _ _ _ _ (.inr h) hw

theorem exec_postApply {s : State} {n : Nat} (hn : n < 4) (hbusy : s.slotBusy n) (hstrobed : (s.slot n).strobed)
    (hdue : (s.slot n).timed = false ∨ (s.slot n).time ≤ s.now) (bad : Nat) : exec (.postApply n bad) s = .next (s.applyEdge n bad) := by
  show execPostApply n bad s = _
  have htime : (!(s.slot n).timed || decide ((s.slot n).time ≤ s.now)) = true := by simpa using hdue
  rw [execPostApply, if_pos ⟨hn, hbusy, hstrobed, htime⟩]

/-- An accepted cancel writes the slot's ACK and command before the action ends; neither is a waiting request. -/
theorem State.unawaited_accepted {s : State} {n : Nat} (hwait : (tblGet default s.postWait n).active = false) (v : DWord) :
    (tblGet default ((s.wr (Reg.GLB_POST_STA.ACK n) Code.OK).setCell (Reg.GLB_POST_CTL.MASK n).key v).postWait n).active = false := hwait

theorem State.rd_ack_accepted (s : State) (n : Nat) (v : DWord) :
    ((s.wr (Reg.GLB_POST_STA.ACK n) Code.OK).setCell (Reg.GLB_POST_CTL.MASK n).key v).rd (Reg.GLB_POST_STA.ACK n) = Code.OK := by
  rw [State.rd, State.cell_setCell_ne _ _ (by simp only [Reg.GLB_POST_STA.ACK, Reg.GLB_POST_CTL.MASK]; omega)]
  exact State.rd_wr s (Reg.GLB_POST_STA.ACK n) Code.OK (by simp [Reg.GLB_POST_STA.ACK])

theorem State.cell_accepted (s : State) {n k : Nat} (_hn : n < 4) (hk : 0x1000 ≤ k) (v : DWord) :
    ((s.wr (Reg.GLB_POST_STA.ACK n) Code.OK).setCell (Reg.GLB_POST_CTL.MASK n).key v).cell k = s.cell k := by
  rw [State.cell_setCell_ne _ _ (by simp only [Reg.GLB_POST_CTL.MASK]; omega), State.cell_wr_ne _ _ _ (by simp only [Reg.GLB_POST_STA.ACK]; omega)]

/-- What a cancelled action shows, whatever the slot's command register took. -/
theorem State.postEnd_accepted {s : State} {n : Nat} (hn : n < 4) (hwait : (tblGet default s.postWait n).active = false) (v : DWord) {t : State}
    (ht : t = ((s.wr (Reg.GLB_POST_STA.ACK n) Code.OK).setCell (Reg.GLB_POST_CTL.MASK n).key v).postEnd n PostSt.REJECTED Code.ABORTED Reason.CANCELLED 0) :
    t.rd (Reg.GLB_POST_STA.ACK n) = Code.OK ∧ t.postSt n = PostSt.REJECTED ∧ t.rd (Reg.GLB_POST_STA.REASON n) = Reason.CANCELLED ∧ t.staged = s.staged
      ∧ (∀ k, 0x1000 ≤ k → t.cell k = s.cell k) ∧ OnlyRegisters s t := by
  have hst : PostSt.REJECTED < 8 := by decide
  have hcode : Code.ABORTED < 256 := by decide
  have hcause : Reason.CANCELLED < 256 := by decide
  obtain ⟨hstate, -, hreason, hack, hstaged, hcells, honly⟩ := State.postEnd_shows hn (State.unawaited_accepted hwait v) hst hcode hcause 0
  subst ht
  exact ⟨hack.trans (s.rd_ack_accepted n v), hstate, hreason, hstaged, fun k hk => (hcells k hk).trans (s.cell_accepted hn hk v), honly⟩

/-- R93: a cancel that comes before the strobe. -/
theorem State.cancel_before {s : State} {n token : Nat} (mask : Nat) (hack : s.cancelAck n token = Code.OK) :
    s.cancel n mask token = ((s.wr (Reg.GLB_POST_STA.ACK n) Code.OK).setCell (Reg.GLB_POST_CTL.MASK n).key
      (BitVec.ofNat 64 (cfOf (mask + token * 65536)))).postEnd n PostSt.REJECTED Code.ABORTED Reason.CANCELLED 0 := by
  simp only [State.cancel, hack, if_true]

/-- Settles O7: a cancel before the strobe is the end of the action with its reason; one after it leaves the slot as it is, but for the ACK. -/
theorem cancelAndStrobe : Obligations.CancelAndStrobe := by
  unfold Obligations.CancelAndStrobe
  intro s q n mask token hn htoken h0 howns hact htok hbusy hdiscard hwait
  have hexec := exec_cancel hn howns htoken (mask := mask) hact
  have hack := State.cancelAck_busy h0 htok hbusy
  refine ⟨fun hstrobed => ⟨_, hexec, ?_⟩, fun hstrobed => ⟨_, hexec, ?_⟩⟩
  · rw [if_neg (by simp [hdiscard, hstrobed])] at hack
    exact State.postEnd_accepted hn hwait _ (State.cancel_before _ hack)
  · rw [if_pos (.inr hstrobed)] at hack
    have hst : (s.wr (Reg.GLB_POST_STA.ACK n) Code.TOO_LATE).postSt n = s.postSt n := State.rd_ack _ rfl (by simp [Reg.GLB_POST_STA.STATE])
    have hbusy' : (s.wr (Reg.GLB_POST_STA.ACK n) Code.TOO_LATE).slotBusy n := by rwa [State.slotBusy, hst]
    rw [State.cancel_refused hack (by decide)]
    exact ⟨rfl, hst, fun hdue bad => exec_postApply hn hbusy' hstrobed hdue bad⟩

/-! The apply edge (R77, R88, R91). -/

/-- Registers that take their staged values, and no other. -/
theorem State.foldl_takeStaged (keys : List Nat) (s : State) :
    (keys.foldl (fun (t : State) key => t.setCell key (t.stagedCell key)) s).staged = s.staged ∧
      ∀ k, (keys.foldl (fun (t : State) key => t.setCell key (t.stagedCell key)) s).cell k = if k ∈ keys then s.stagedCell k else s.cell k := by
  induction keys generalizing s with
  | nil => simp
  | cons key keys ih =>
    obtain ⟨hstaged, hcell⟩ := ih (s.setCell key (s.stagedCell key))
    refine ⟨hstaged, fun k => ?_⟩
    rw [List.foldl_cons, hcell k, State.stagedCell_setCell]
    by_cases hk : k = key
    · subst hk
      simp
    · rw [State.cell_setCell_ne _ _ hk]
      simp [hk]

/-- STAGE_DIRTY is on no page a postable register. -/
theorem dirty_not_posted (pg : Nat) : 0x1000 * pg + 0x24 ∉ postedKeys pg := by
  have hrows : ∀ k, ∀ r ∈ pageRows k, r.posted = true → ∀ i ∈ List.range r.count, r.off + i * r.stride ≠ 0x24 := by intro k; cases k <;> decide
  unfold postedKeys
  split
  · simp only [List.mem_flatMap, List.mem_filter, List.mem_map, not_exists, not_and, and_imp]
    intro r hr hposted i hi heq
    exact hrows _ r hr hposted i hi (by omega)
  · exact List.not_mem_nil

theorem State.copyPage_shows (s : State) (pg : Nat) :
    (∀ key ∈ postedKeys pg, (s.copyPage pg).cell key = s.stagedCell key) ∧ (s.copyPage pg).staged = s.staged
      ∧ (s.copyPage pg).rd (Reg.STAGE_DIRTY.CLUSTER pg) = 0
      ∧ ∀ k, k ∉ postedKeys pg → k ≠ 0x1000 * pg + 0x24 → (s.copyPage pg).cell k = s.cell k := by
  obtain ⟨hstaged, hcell⟩ := State.foldl_takeStaged (postedKeys pg) s
  refine ⟨fun key hkey => ?_, hstaged, ?_, fun k hk hdirty => ?_⟩
  · have hne : key ≠ 0x1000 * pg + 0x24 := fun h => dirty_not_posted pg (h ▸ hkey)
    rw [State.copyPage, State.cell_wr_ne _ _ _ hne, hcell, if_pos hkey]
  · rw [State.copyPage, State.rd_wr _ _ _ (by simp [Reg.STAGE_DIRTY.CLUSTER]), Nat.zero_mod]
  · rw [State.copyPage, State.cell_wr_ne _ _ _ hdirty, hcell, if_neg hk]

/-- R91: at its edge, a post that holds a compute page while the compute dies are off is rejected. -/
theorem State.applyEdge_computeOff {s : State} {n : Nat} (hcompute : (s.pagesIn (s.slot n).mask).any computePage) (hcut : s.on Reg.VLT_STA.COMPUTE_CUT)
    (bad : Nat) : s.applyEdge n bad = s.postEnd n PostSt.REJECTED Code.POWER Reason.COMPUTE_OFF 0 := by
  simp only [State.applyEdge, hcompute, hcut, Bool.or_true, and_self, if_true]

/-- Settles O8: `copyPage` sets each postable register once to its staged value, and a rejection at the edge ends the action alone. -/
theorem applyEdge : Obligations.ApplyEdge := by
  unfold Obligations.ApplyEdge
  refine ⟨fun s pg _ => s.copyPage_shows pg, fun s n bad hn hbusy hstrobed htimed hwait hcompute hcut => ?_⟩
  have hst : PostSt.REJECTED < 8 := by decide
  have hcode : Code.POWER < 256 := by decide
  have hcause : Reason.COMPUTE_OFF < 256 := by decide
  obtain ⟨hstate, hcodes, hreason, -, hstaged, hcells, -⟩ := State.postEnd_shows hn hwait hst hcode hcause 0
  have hexec := exec_postApply hn hbusy hstrobed (.inl htimed) bad
  rw [State.applyEdge_computeOff hcompute hcut] at hexec
  exact ⟨_, hexec, hstate, hcodes, hreason, hstaged, hcells⟩

/-! The course of a post (R82, R84, R87, R90). -/

section Course

variable {s : State} {n : Nat} (hn : n < 4)
include hn

theorem exec_postCheckDone (hst : s.postSt n = PostSt.CHECKING) (hpost : (s.slot n).action ≠ 2) (hstrobed : (s.slot n).strobed = false) :
    exec (.postCheckDone n) s = .next (s.checked n) := by
  show execPostCheckDone n s = _
  rw [execPostCheckDone, if_pos ⟨hn, hst, hpost, by rw [hstrobed]; rfl⟩]

/-- R87: the strobe goes out when the edge is 48 SCLK cycles away. -/
theorem exec_postStrobe (hst : s.postSt n = PostSt.ARMED) (hstrobed : (s.slot n).strobed = false) (hrecheck : (s.slot n).recheck = false)
    (hdue : (s.slot n).time ≤ s.now + 80) : exec (.postStrobe n) s = .next (s.setSlot n { s.slot n with strobed := true }) := by
  show execPostStrobe n s = _
  simp only [execPostStrobe, hn, hst, hstrobed, hrecheck, hdue, Bool.not_false, and_self, if_true]

theorem exec_postRecheckDone (hst : s.postSt n = PostSt.ARMED) (hrecheck : (s.slot n).recheck) (ok : Bool) :
    exec (.postRecheckDone n ok) s = .next (s.rechecked n ok) := by
  show execPostRecheckDone n ok s = _
  rw [execPostRecheckDone, if_pos ⟨hn, hst, hrecheck⟩]

theorem exec_discardDone (hst : s.postSt n = PostSt.CHECKING) (hdiscard : (s.slot n).action = 2) :
    exec (.discardDone n) s = .next (((s.pagesIn (s.slot n).mask).foldl State.discardPage s).postEnd n PostSt.IDLE Code.OK 0 0) := by
  show execDiscardDone n s = _
  rw [execDiscardDone, if_pos ⟨hn, hst, hdiscard⟩]

end Course

/-- Settles O25: a start and a cancel of the slot's owner reach their operations, and each event of a post's course its own. -/
theorem posts : Obligations.Posts := by
  unfold Obligations.Posts
  refine ⟨fun s q n mask token hn hmask htoken howns => ?_, fun s n hn => ⟨exec_postCheckDone hn, exec_postStrobe hn, ?_, fun ok => ?_, exec_discardDone hn⟩⟩
  · have hmod : mask % 65536 = mask := Nat.mod_eq_of_lt hmask
    refine ⟨fun hact hack => ?_, fun hact hack => ?_, fun hact hack => ?_, fun hact => ?_, fun hact hack => ?_⟩
    · rw [exec_start hn howns htoken hact.symm (.inl ⟨rfl, rfl⟩), if_pos hack, hmod]
    · rw [exec_start hn howns htoken hact.symm (.inr (.inl ⟨rfl, rfl⟩)), if_pos hack, hmod]
    · rw [exec_start hn howns htoken hact.symm (.inr (.inr ⟨rfl, rfl⟩)), if_pos hack, hmod]
    · rw [exec_cancel hn howns htoken hact, hmod]
    · rw [exec_start hn howns htoken hact.symm (.inl ⟨rfl, rfl⟩), if_neg hack]
  · exact fun bad hbusy hstrobed htimed => exec_postApply hn hbusy hstrobed (.inl htimed) bad
  · exact fun hst hrecheck => exec_postRecheckDone hn hst hrecheck ok

end Sys2Proof.Machine
end

section
/-!
SUPPORT. The boot stages, the event registers and soft resets, and the reads and requests of the fuse array (R61-R64, R161-R176, R185-R190).
-/
namespace Sys2Proof.Machine

/-! The boot stages (R185-R190). -/

/-- A hook that follows a stage other than BOARD leaves the registers as they are. -/
theorem State.rd_callHook (s : State) {h : Nat} (hpost : h ≠ 0) (f : Fld) : (s.callHook h).rd f = s.rd f := by
  unfold State.callHook
  split
  · rfl
  · rw [State.afterHook, if_neg hpost]

theorem State.stage_callHook (s : State) {h : Nat} (hpost : h ≠ 0) : (s.callHook h).stage = s.stage := s.rd_callHook hpost _

theorem State.stage_railsOn (s : State) : s.railsOn.stage = Stage.MARCH := by
  rw [State.railsOn, State.stage_callHook _ (by decide), State.stage_setStage _ (by decide)]

theorem State.stage_marchDone (s : State) (tiles a b engines : Nat) (log : List Nat) : (s.marchDone tiles a b engines log).stage = Stage.HBM_TRAIN := by
  rw [State.marchDone, State.stage_callHook _ (by decide), State.stage_setStage _ (by decide)]

theorem State.stage_hbmTrained (s : State) (failed : Nat) : (s.hbmTrained failed).stage = Stage.PCIE := by
  rw [State.hbmTrained, State.stage_callHook _ (by decide), State.stage_setStage _ (by decide)]

/-- A flag of BOOT_STA stays when the stage changes. -/
theorem State.on_setStage_apart (s : State) (g : Nat) {f : Fld} (hkey : f.key ≠ 0x4010) (hapart : Reg.BOOT_STA.STAGE.apart f = true)
    (hwide : f.lo + f.width ≤ 64) : (s.setStage g).on f = s.on f := by
  unfold State.setStage
  split
  · rfl
  · rw [State.on, State.rd_raise _ _ _ _ hkey, State.rd_wr_apart _ _ _ _ (.inr hapart) hwide, State.on]

/-- R188: the boot goes on to PCIe without compute. -/
theorem State.railsFault_shows (s : State) : s.railsFault.stage = Stage.PCIE ∧ s.railsFault.on Reg.BOOT_STA.RAILS_FAULT = true := by
  refine ⟨State.stage_setStage _ (by decide), ?_⟩
  rw [State.railsFault, State.on_setStage_apart _ _ (by decide) (by decide) (by decide), State.on, State.rd, State.logSec,
    State.cell_logClerk _ _ _ _ _ _ _ (by decide)]
  exact State.on_wrb s Reg.BOOT_STA.RAILS_FAULT true (by decide) (by decide)

section Stages

variable {s : State} (hhook : s.boot.hook = none)
include hhook

theorem exec_bootRailsOn (hstage : s.stage = Stage.RAILS) (hseq : s.rd Reg.SUP_STA.SEQ = Seq.ON) (hgoes : s.bootGoes) :
    exec .bootRailsOn s = .next s.railsOn := by
  show execBootRailsOn s = _
  rw [execBootRailsOn, if_pos ⟨hstage, by rw [hhook]; rfl, hgoes, .inl hseq⟩]

theorem exec_bootRailsTimeout (hstage : s.stage = Stage.RAILS) (hseq : s.rd Reg.SUP_STA.SEQ ≠ Seq.ON) : exec .bootRailsTimeout s = .next s.railsFault := by
  show execBootRailsTimeout s = _
  rw [execBootRailsTimeout, if_pos ⟨hstage, by rw [hhook]; rfl, hseq⟩]

theorem exec_marchDone (hstage : s.stage = Stage.MARCH) (hgoes : s.bootGoes) (tiles a b engines : Nat) (log : List Nat) :
    exec (.marchDone tiles a b engines log) s = .next (s.marchDone tiles a b engines log) := by
  show execMarchDone tiles a b engines log s = _
  rw [execMarchDone, if_pos ⟨hstage, by rw [hhook]; rfl, hgoes⟩]

theorem exec_hbmTrainDone (hstage : s.stage = Stage.HBM_TRAIN) (hgoes : s.bootGoes) (failed : Nat) :
    exec (.hbmTrainDone failed) s = .next (s.hbmTrained failed) := by
  show execHbmTrainDone failed s = _
  rw [execHbmTrainDone, if_pos ⟨hstage, by rw [hhook]; rfl, hgoes⟩]

/-- Step 12 of R185 ends in AWAIT_FIRMWARE, whatever of compute it resumes. -/
theorem ends_pcieReady (hstage : s.stage = Stage.PCIE) : Ends .pcieReady s fun t => t.stage = Stage.AWAIT_FIRMWARE := by
  refine ⟨_, rfl, ?_⟩
  rw [if_pos ⟨hstage, by rw [hhook]; rfl⟩]
  exact State.stage_setStage _ (by decide)

end Stages

/-- R174: the frame shows the reason's bits from the highest down. -/
theorem haltFrame_eq (reason : Nat) :
    haltFrame reason = [(false, 400), (true, 100)] ++ (List.range 8).map (fun i => (!reason.testBit (7 - i), 100)) ++ [(true, 700)] := by
  simp only [haltFrame, bit_eq_testBit]

theorem exec_haltFaultFrame {s : State} (hstage : s.stage = Stage.HALTED) :
    exec .haltFaultFrame s = .next (s.emit (.faultFrame (haltFrame (s.rd Reg.OTP_STA.HALT_REASON)))) := by
  show execHaltFaultFrame s = _
  rw [execHaltFaultFrame, if_pos hstage]

theorem exec_perstNDeassert {s : State} (hstage : s.stage = Stage.RESET) (hwait : s.boot.waitOff = false) (env : BootEnv) :
    exec (.perstNDeassert env) s = .next (({ s with timeFine := 0 } : State).bootStart { env with strap := env.strap % 4 } true) := by
  show execPerstNDeassert env s = _
  rw [execPerstNDeassert, if_pos ⟨hstage, by rw [hwait]; rfl⟩]

/-- Settles O20: PERST_N enters reset and starts the boot; each stage ends by setting the next one, and a halt sends its frame. -/
theorem resetAndBootStages : Obligations.ResetAndBootStages := by
  unfold Obligations.ResetAndBootStages
  refine ⟨⟨fun s => rfl, fun s env hstage hwait => exec_perstNDeassert hstage hwait env⟩, fun s hhook => ⟨fun hstage hseq hgoes => ?_,
    fun hstage hseq => ?_, fun tiles a b engines log hstage hgoes => ?_, fun failed hstage hgoes => ?_, ends_pcieReady hhook⟩, fun s hstage => ?_⟩
  · exact ⟨_, exec_bootRailsOn hhook hstage hseq hgoes, rfl, s.stage_railsOn⟩
  · exact ⟨_, exec_bootRailsTimeout hhook hstage hseq, s.railsFault_shows⟩
  · exact ⟨_, exec_marchDone hhook hstage hgoes tiles a b engines log, rfl, s.stage_marchDone tiles a b engines log⟩
  · exact ⟨_, exec_hbmTrainDone hhook hstage hgoes failed, rfl, s.stage_hbmTrained failed⟩
  · rw [exec_haltFaultFrame hstage, haltFrame_eq]

/-! Event registers (R61-R63, R378). -/

section Events

variable {s : State} {q : Req} {pg i : Nat} {k : PageKind} (hacts : s.Acts q (pg * 0x1000)) (hpresent : s.pageAbsent pg = false)
  (htakes : takesWrites q pg) (hk : pageKind pg = some (k, i)) (hr : k ≠ .ring) (hown : ∀ a, q = .fn a → a = 0 ∨ pg = 0x20 + a)
include hacts hpresent htakes hk hr hown

/-- A requester that reaches a present page's event registers writes them. -/
theorem State.evtWrite_of_reach (run : State → State) : s.evtWrite q pg run = run s := by
  simp only [State.evtWrite, hk, State.arrives_of_acts hacts, hpresent, hr, if_false]
  cases q with
  | fn a =>
    have hforeign : (decide (a ≠ 0) && decide (pg = 0x40 + a)) = false := by
      have hreach := hown a rfl
      simp only [Bool.and_eq_false_iff, decide_eq_false_iff_not]
      omega
    have hreach : (decide (a = 0) || decide (pg = 0x20 + a)) = true := by simpa using hown a rfl
    simp only [hforeign, hreach, htakes, Bool.not_true, Bool.false_eq_true, if_false, if_true]
  | _ => simp only [htakes, Bool.not_true, Bool.false_eq_true, if_false, if_true]

end Events

@[simp] theorem State.cell_reRaise (s : State) (pg k : Nat) : (s.reRaise pg).cell k = s.cell k := by
  unfold State.reRaise
  split <;> simp

/-- An event register that takes a value shows it, raised again or not, and no other register changes. -/
theorem State.reRaise_wr_shows (s : State) (pg : Nat) {f : Fld} {v : Nat} (hwide : f.lo + f.width ≤ 64) (hv : v < 2 ^ f.width) :
    ((s.wr f v).reRaise pg).rd f = v ∧ ∀ c, c ≠ f.key → ((s.wr f v).reRaise pg).cell c = s.cell c := by
  refine ⟨?_, fun c hc => ?_⟩
  · rw [State.rd, State.cell_reRaise, ← State.rd, State.rd_wr _ _ _ hwide, Nat.mod_eq_of_lt hv]
  · rw [State.cell_reRaise, State.cell_wr_ne _ _ _ hc]

theorem State.lastingEvents_of_not_spx (s : State) {pg i : Nat} {k : PageKind} (hk : pageKind pg = some (k, i)) (hport : k ≠ .spx) :
    s.lastingEvents pg = s := by
  rw [State.lastingEvents, hk]
  split
  next heq => exact absurd (Prod.mk.inj (Option.some.inj heq)).1 hport
  next => rfl

/-- Settles O23: an event register that its requester reaches takes what is written; a soft reset sets its bit, and one that is over resets the
page's registers. -/
theorem pageRegisters : Obligations.PageRegisters := by
  unfold Obligations.PageRegisters
  refine ⟨fun s q pg i k hacts hpresent htakes hk hr hown => ?_, fun s q pg i k hk hr => ⟨fun hsoft htaker hown hacts htakes hpresent hidle => ?_,
    fun hresetting hidle => ?_⟩⟩
  · have hwrite := State.evtWrite_of_reach hacts hpresent htakes hk hr hown
    have hraw := s.rd_lt (Reg.EVT_RAW.RAW pg)
    refine ⟨fun v hv hport => ⟨_, rfl, ?_⟩, fun v hv hport => ?_, fun v hv => ⟨_, rfl, ?_⟩, fun v hv hdirect => ⟨_, rfl, ?_⟩⟩
    · rw [hwrite, State.lastingEvents_of_not_spx _ hk hport, Nat.mod_eq_of_lt hv]
      exact s.reRaise_wr_shows pg (by simp [Reg.EVT_RAW.RAW]) (Nat.lt_of_le_of_lt Nat.and_le_left hraw)
    · show execEvtRawClear q pg v s = _
      rw [execEvtRawClear, hwrite, Nat.mod_eq_of_lt hv, State.lastingEvents, hk, hport]
    · rw [hwrite]
      exact s.reRaise_wr_shows pg (by simp [Reg.EVT_EN.EN]) hv
    · rw [hwrite, if_pos hdirect, Nat.mod_eq_of_lt hv]
      exact s.reRaise_wr_shows pg (by simp [Reg.EVT_RAW.RAW]) (Nat.or_lt_two_pow hraw hv)
  · show execSoftReset q pg s = _
    simp only [execSoftReset, hk, State.evtWrite_of_reach hacts hpresent htakes hk hr hown, hsoft, htaker, hidle, Bool.not_true, Bool.false_eq_true, or_self,
      if_false]
  · show execSoftResetDone pg s = _
    simp only [execSoftResetDone, hk, if_pos (show k ≠ .ring ∧ s.resetting pg ∧ s.unitIdle pg from ⟨hr, hresetting, hidle⟩)]

end Sys2Proof.Machine
end

section
/-!
SUPPORT. The fuse array's commands: the row that the read registers show, and the requests that burn (R161-R167, R176, R320).
-/
namespace Sys2Proof.Machine

/-! OTP_READ_ROW (R176). -/

/-- The read registers as they take a row, before an error is counted. -/
def State.rowShown (s : State) (row : Nat) : State :=
  let x := s.readRow row
  let t := (s.wr Reg.OTP_READ_ROW.ROW row).wr Reg.OTP_READ_DATA.DATA x.data
  let t := ((t.wr Reg.OTP_READ_STA.ECC x.ecc).wrb Reg.OTP_READ_STA.CORR x.corr).wrb Reg.OTP_READ_STA.UNCORR x.uncorr
  ((t.wrb Reg.OTP_READ_STA.REMAPPED (s.spareOf row).isSome).wr Reg.OTP_READ_STA.SPARE ((s.spareOf row).getD 0)).wrb Reg.OTP_READ_STA.VALID true

theorem State.on_wr_apart (s : State) (f g : Fld) (v : Nat) (h : g.key ≠ f.key ∨ f.apart g = true) (hg : g.lo + g.width ≤ 64) :
    (s.wr f v).on g = s.on g := by
  rw [State.on, State.rd_wr_apart s f g v h hg, State.on]

theorem State.rowShown_shows (s : State) {row : Nat} (h : row < 2048) :
    (s.rowShown row).rd Reg.OTP_READ_ROW.ROW = row ∧ (s.rowShown row).rd Reg.OTP_READ_DATA.DATA = (s.readRow row).data % 2 ^ 64
      ∧ (s.rowShown row).on Reg.OTP_READ_STA.VALID ∧ (s.rowShown row).on Reg.OTP_READ_STA.CORR = (s.readRow row).corr
      ∧ (s.rowShown row).on Reg.OTP_READ_STA.UNCORR = (s.readRow row).uncorr
      ∧ (s.rowShown row).on Reg.OTP_READ_STA.REMAPPED = (s.spareOf row).isSome := by
  refine ⟨?_, ?_, ?_, ?_, ?_, ?_⟩
  · simp (disch := decide) only [State.rowShown, State.wrb, State.rd_wr_key]
    rw [State.rd_wr _ _ _ (by decide)]
    exact Nat.mod_eq_of_lt h
  · simp (disch := decide) only [State.rowShown, State.wrb, State.rd_wr_key]
    exact State.rd_wr _ _ _ (by decide)
  · exact State.on_wrb _ _ _ (by decide) (by decide)
  · simp (disch := decide) only [State.rowShown, State.on_wrb_apart, State.on_wr_apart, State.on_wrb]
  · simp (disch := decide) only [State.rowShown, State.on_wrb_apart, State.on_wr_apart, State.on_wrb]
  · simp (disch := decide) only [State.rowShown, State.on_wrb_apart, State.on_wr_apart, State.on_wrb]

/-- R172: a correction and an uncorrectable row are counted, raised and logged beside the read registers. -/
theorem State.otpRead_eq (s : State) (row : Nat) : s.otpRead row = if (s.readRow row).corr
    then (((s.rowShown row).count Reg.OTP_ECC_CNT.CORRECTED 1).raise 3 0).logSec Level.INFO SecLog.ROW_CORRECTED row 0 0
    else if (s.readRow row).uncorr then ((s.rowShown row).count Reg.OTP_ECC_CNT.UNCORR 1).logSec Level.ERROR SecLog.ROW_UNCORRECTABLE row 0 0
    else s.rowShown row := rfl

theorem onlyRegisters_otpRead (s : State) (row : Nat) : OnlyRegisters s (s.otpRead row) := by
  have hshown : OnlyRegisters s (s.rowShown row) := onlyRegisters_refl s
  rw [State.otpRead_eq]
  split
  · rwa [onlyRegisters_logSec, onlyRegisters_raise, onlyRegisters_count]
  · split
    · rwa [onlyRegisters_logSec, onlyRegisters_count]
    · exact hshown

theorem State.cell_otpRead (s : State) (row : Nat) {k : Nat} (hcnt : k ≠ 0x3058) (hevt : k ≠ 0x3010) (hpage : k < 0x10000) :
    (s.otpRead row).cell k = (s.rowShown row).cell k := by
  have hcount : ∀ (t : State) (f : Fld), f.key = 0x3058 → (t.count f 1).cell k = t.cell k := fun t f hf => State.cell_count_ne t f 1 (hf ▸ hcnt)
  rw [State.otpRead_eq]
  split
  · rw [State.logSec, State.cell_logClerk _ _ _ _ _ _ _ hpage, State.cell_raise _ _ _ hevt, hcount _ _ rfl]
  · split
    · rw [State.logSec, State.cell_logClerk _ _ _ _ _ _ _ hpage, hcount _ _ rfl]
    · rfl

theorem exec_otpReadRow {s : State} {q : Req} {row : Nat} (hpf : s.pf q) (hrow : row < 2048) : exec (.otpReadRow q row) s = .next (s.otpRead row) := by
  show execOtpReadRow q row s = _
  rw [execOtpReadRow, if_pos hpf, Nat.mod_eq_of_lt hrow]

/-- Settles O24: the read registers take what `readRow` gives, and what follows a row in error leaves them. -/
theorem otpReadRow : Obligations.OtpReadRow := by
  unfold Obligations.OtpReadRow
  intro s q row hpf hrow
  obtain ⟨hfuses, -⟩ := onlyRegisters_otpRead s row
  obtain ⟨hshown, hdata, hvalid, hcorr, huncorr, hremapped⟩ := s.rowShown_shows hrow
  have hrd : ∀ f : Fld, f.key ≠ 0x3058 → f.key ≠ 0x3010 → f.key < 0x10000 → (s.otpRead row).rd f = (s.rowShown row).rd f := fun f hcnt hevt hpage => by
    rw [State.rd, s.cell_otpRead row hcnt hevt hpage, State.rd]
  refine ⟨_, exec_otpReadRow hpf hrow, ?_⟩
  simp (disch := decide) only [State.on, hrd]
  exact ⟨hshown, hdata, hvalid, hcorr, huncorr, hremapped, hfuses⟩

/-! Requests that burn, as SEC serves them (R161-R167). -/

section Requests

variable {s : State} {p : List Byte} (burns : List Burn)

theorem State.otpProgramReq_ok (hlen : p.length = 16) (hrow : fieldAt p 0 4 < 2048) (hreserved : fieldAt p 4 4 = 0) (hpermit : s.rowPermitted (fieldAt p 0 4))
    (hkey : appendContent (fieldAt p 0 4) = some (fieldAt p 8 8) → s.lastKey (fieldAt p 0 4 - 88) = false) :
    s.otpProgramReq p burns = (s.programRow (fieldAt p 0 4) (fieldAt p 8 8) burns).served (fieldAt p 0 4) := by
  have hformat : ¬(p.length ≠ 16 ∨ 2048 ≤ fieldAt p 0 4 ∨ fieldAt p 4 4 ≠ 0) := by omega
  have hlast : ¬(appendContent (fieldAt p 0 4) = some (fieldAt p 8 8) ∧ s.lastKey (fieldAt p 0 4 - 88) = true) := fun ⟨hcontent, hlast⟩ => by
    rw [hkey hcontent] at hlast
    cases hlast
  simp only [State.otpProgramReq, if_neg hformat, hpermit, if_neg hlast, Bool.not_true, Bool.false_eq_true, if_false]

theorem State.otpProgramReq_refused (hlen : p.length = 16) (hrow : fieldAt p 0 4 < 2048) (hreserved : fieldAt p 4 4 = 0)
    (hpermit : s.rowPermitted (fieldAt p 0 4) = false) : s.otpProgramReq p burns = s.refuseRow (fieldAt p 0 4) Code.LIFECYCLE := by
  have hformat : ¬(p.length ≠ 16 ∨ 2048 ≤ fieldAt p 0 4 ∨ fieldAt p 4 4 ≠ 0) := by omega
  simp only [State.otpProgramReq, if_neg hformat, hpermit, Bool.not_false, if_true]

theorem State.otpSealReq_ok (hlen : p.length = 4) (hregion : fieldAt p 0 4 < 9) (hsealed : s.sealed (fieldAt p 0 4) = false)
    (hpermit : s.sealPermitted (fieldAt p 0 4)) (hretired : s.regionUnretired (fieldAt p 0 4) = false) :
    s.otpSealReq p burns = { (s.programRow (regionRows (fieldAt p 0 4)).2.2 (cfOf (s.regionCrc (fieldAt p 0 4))) burns).served
      (regionRows (fieldAt p 0 4)).2.2 with payload := leBytes 4 (s.regionCrc (fieldAt p 0 4)) } := by
  simp only [State.otpSealReq, hlen, ne_eq, not_true_eq_false, if_neg (Nat.not_le.mpr hregion), hsealed, hpermit, hretired, Bool.not_true, Bool.false_eq_true,
    if_false]

theorem State.otpRevokeReq_ok (hlen : p.length = 4) (hslot : fieldAt p 0 4 < 3) (hpermit : s.rowPermitted (88 + fieldAt p 0 4))
    (hkey : s.lastKey (fieldAt p 0 4) = false) :
    s.otpRevokeReq p burns
      = { (s.programRow (88 + fieldAt p 0 4) (cfOf (0x5A00 + fieldAt p 0 4)) burns).served (88 + fieldAt p 0 4) with payload := [] } := by
  simp only [State.otpRevokeReq, hlen, ne_eq, not_true_eq_false, if_neg (Nat.not_le.mpr hslot), hpermit, hkey, Bool.not_true, Bool.false_eq_true, if_false]

end Requests

/-! The two ways to SEC: a Jezama message of the admin pair, and a board management frame. -/

section Jezama

variable {s : State} {a p : Nat} {f : Fetch} {m : Jz} (wr : DmaEnd) (burns : List Burn) (hsec : s.secUp) (hidle : s.lcRun.phase = .none)
include hsec hidle

theorem exec_otpProgram_asked (hasked : s.Asked a p 0x0030 f m) :
    exec (.otpProgram a p f wr burns) s = .next (((s.speak a p f).otpProgramReq m.payload burns).respond a p m wr) := by
  show execOtpProgram a p f wr burns s = _
  rw [execOtpProgram, State.fuseRequest_of_asked hasked hsec hidle]

theorem exec_otpSeal_asked (hasked : s.Asked a p 0x0031 f m) :
    exec (.otpSeal a p f wr burns) s = .next (((s.speak a p f).otpSealReq m.payload burns).respond a p m wr) := by
  show execOtpSeal a p f wr burns s = _
  rw [execOtpSeal, State.fuseRequest_of_asked hasked hsec hidle]

theorem exec_otpRevoke_asked (hasked : s.Asked a p 0x0032 f m) :
    exec (.otpRevoke a p f wr burns) s = .next (((s.speak a p f).otpRevokeReq m.payload burns).respond a p m wr) := by
  show execOtpRevoke a p f wr burns s = _
  rw [execOtpRevoke, State.fuseRequest_of_asked hasked hsec hidle]

theorem exec_lcTransition_asked (hasked : s.Asked a p 0x0033 f m) {target : Nat} (hrefusal : (s.speak a p f).lcRefusal m.payload = Code.OK)
    (htarget : cfVal (fieldAt m.payload 0 8) = some target) :
    exec (.lcTransition a p f wr burns) s = .next (((s.speak a p f).busy a p 0x0033 wr).lcStart target false burns) := by
  obtain ⟨-, -, -, -, htyp⟩ := id hasked
  show execLcTransition a p f wr burns s = _
  rw [execLcTransition, State.fuseRequest_of_asked hasked hsec hidle]
  simp only [hrefusal, ne_eq, not_true_eq_false, if_false, htyp, htarget, Option.getD_some]

end Jezama

section Frames

variable {s : State} {f : Frame} (burns : List Burn) (hsec : s.secUp) (hidle : s.lcRun.phase = .none)
include hsec hidle

/-- A fuse frame is answered with what SEC made of its request. -/
theorem State.bmcFuse_of_framed {op : Nat} (hframed : s.Framed op f) {run : State → List Byte → Served} {r : Served}
    (hrun : run s.bmcRead (ofWords f.payload) = r) :
    s.bmcFuse op run = r.st.bmcReply f r.code (toWords (wordsFor r.payload.length) r.payload) := by
  subst hrun
  simp only [State.bmcFuse, hsec, hidle, Bool.not_true, Bool.false_eq_true, ne_eq, not_true_eq_false, or_self, if_false,
    State.bmcServe_of_framed hframed]

theorem exec_bmcLcTransition_framed (hframed : s.Framed 0x0A f) {target : Nat} (hrefusal : s.bmcRead.lcRefusal (ofWords f.payload) = Code.OK)
    (htarget : cfVal (fieldAt (ofWords f.payload) 0 8) = some target) :
    exec (.bmcLcTransition burns) s =
      .next ((({ s.bmcRead with bmc := { s.bmcRead.bmc with busy := some (f.op, f.tag), frame := [] } } : State).bmcIdle).lcStart target true burns) := by
  show execBmcLcTransition burns s = _
  simp only [execBmcLcTransition, hsec, hidle, Bool.not_true, Bool.false_eq_true, ne_eq, not_true_eq_false, or_self, if_false,
    State.bmcServe_of_framed hframed, hrefusal, htarget, Option.getD_some]

end Frames

theorem length_leBytes (n v : Nat) : (leBytes n v).length = n := by
  induction n generalizing v with
  | zero => rfl
  | succ n ih => rw [leBytes, List.length_cons, ih]

theorem exec_bmcOtpProgram (s : State) (burns : List Burn) : exec (.bmcOtpProgram burns) s = .next (s.bmcFuse 0x07 fun t p => t.otpProgramReq p burns) := rfl

theorem exec_bmcOtpSeal (s : State) (burns : List Burn) : exec (.bmcOtpSeal burns) s = .next (s.bmcFuse 0x08 fun t p => t.otpSealReq p burns) := rfl

theorem exec_bmcOtpRevoke (s : State) (burns : List Burn) : exec (.bmcOtpRevoke burns) s = .next (s.bmcFuse 0x09 fun t p => t.otpRevokeReq p burns) := rfl

/-- Settles O34: a request that passes its server's checks and its own is served by `programRow`, and answered by the way it came. -/
theorem fuseProgramming : Obligations.FuseProgramming := by
  unfold Obligations.FuseProgramming
  refine ⟨fun s a p f m wr burns hsec hidle => ⟨fun hasked hlen hrow hreserved hpermit hkey => ?_, fun hasked hlen hrow hreserved hpermit => ?_,
    fun hasked hlen hregion hsealed hpermit hretired => ?_, fun hasked hlen hslot hpermit hkey => ?_, fun target hasked hrefusal htarget => ?_⟩,
    fun s f burns hsec hidle => ⟨fun hframed hlen hrow hreserved hpermit hkey r hr => ?_, fun g hframed hlen hg hregion hsealed hpermit hretired r hr => ?_,
      fun k hframed hlen hk hslot hpermit hkey r hr => ?_, fun target hframed hrefusal htarget => ?_⟩⟩
  · rw [exec_otpProgram_asked wr burns hsec hidle hasked, State.otpProgramReq_ok burns hlen hrow hreserved hpermit hkey]
  · rw [exec_otpProgram_asked wr burns hsec hidle hasked, State.otpProgramReq_refused burns hlen hrow hreserved hpermit]
  · rw [exec_otpSeal_asked wr burns hsec hidle hasked, State.otpSealReq_ok burns hlen hregion hsealed hpermit hretired]
  · rw [exec_otpRevoke_asked wr burns hsec hidle hasked, State.otpRevokeReq_ok burns hlen hslot hpermit hkey]
  · exact exec_lcTransition_asked wr burns hsec hidle hasked hrefusal htarget
  · have hreq := (State.otpProgramReq_ok burns hlen hrow hreserved hpermit hkey).trans hr
    rw [exec_bmcOtpProgram, State.bmcFuse_of_framed hsec hidle hframed hreq]
  · subst hg
    have hreq := State.otpSealReq_ok burns hlen hregion hsealed hpermit hretired
    rw [hr] at hreq
    have hwords : wordsFor 4 = 1 := rfl
    rw [exec_bmcOtpSeal, State.bmcFuse_of_framed hsec hidle hframed hreq]
    simp only [length_leBytes, hwords]
  · subst hk
    have hreq := State.otpRevokeReq_ok burns hlen hslot hpermit hkey
    rw [hr] at hreq
    have hwords : wordsFor 0 = 0 := rfl
    rw [exec_bmcOtpRevoke, State.bmcFuse_of_framed hsec hidle hframed hreq]
    simp only [List.length_nil, hwords, toWords]
  · exact exec_bmcLcTransition_framed burns hsec hidle hframed hrefusal htarget

end Sys2Proof.Machine
end

section
/-!
SUPPORT. The ECC of a fuse row (R150): the syndrome and the parity of a row are linear over exclusive or, a coded row has neither, and the 72 single
errors have syndromes of their own.
-/
namespace Sys2Proof.Machine

/-! Bits, masks and counts under exclusive or. -/

theorem bit_xor (a b i : Nat) : bit (a ^^^ b) i = (bit a i ^^ bit b i) := by simp only [bit_eq_testBit, Nat.testBit_xor]

theorem maskOf_lt (f : Nat → Bool) (w : Nat) : maskOf f w < 2 ^ w := by
  induction w with
  | zero => exact Nat.two_pow_pos 0
  | succ w ih =>
    rw [maskOf, Nat.pow_succ]
    split <;> omega

theorem testBit_maskOf (f : Nat → Bool) (w i : Nat) : (maskOf f w).testBit i = (decide (i < w) && f i) := by
  induction w with
  | zero => simp [maskOf]
  | succ w ih =>
    have htop : maskOf f (w + 1) = 2 ^ w * b2n (f w) + maskOf f w := by
      rw [maskOf, b2n]
      split <;> omega
    rw [htop, Nat.testBit_two_pow_mul_add _ (maskOf_lt f w), ih]
    by_cases hi : i < w
    · simp [hi, Nat.lt_succ_of_lt hi]
    · by_cases heq : i = w
      · subst heq
        cases f i <;> simp [b2n]
      · have hone : Nat.testBit 1 (i - w) = false := Nat.testBit_lt_two_pow (Nat.one_lt_two_pow (by omega))
        have hgt : ¬i < w + 1 := by omega
        cases f w <;> simp [b2n, hi, hgt, hone]

theorem maskOf_xor (f g : Nat → Bool) (w : Nat) : maskOf (fun j => f j ^^ g j) w = maskOf f w ^^^ maskOf g w := by
  apply Nat.eq_of_testBit_eq
  intro i
  rw [Nat.testBit_xor]
  simp only [testBit_maskOf]
  cases decide (i < w) <;> simp

/-- Whether the number of set bits below `w` is odd. -/
def oddBits (v w : Nat) : Bool := bit (popCount v w) 0

theorem bit_add_zero (a b : Nat) : bit (a + b) 0 = (bit a 0 ^^ bit b 0) := by
  have ha := Nat.mod_two_eq_zero_or_one a
  have hb := Nat.mod_two_eq_zero_or_one b
  simp only [bit, Nat.pow_zero, Nat.div_one, Nat.add_mod a b 2]
  obtain ha | ha := ha <;> obtain hb | hb := hb <;> rw [ha, hb] <;> rfl

theorem bit_b2n_zero (b : Bool) : bit (b2n b) 0 = b := by cases b <;> rfl

theorem oddBits_succ (v w : Nat) : oddBits v (w + 1) = (oddBits v w ^^ bit v w) := by rw [oddBits, popCount, bit_add_zero, bit_b2n_zero, oddBits]

theorem oddBits_xor (a b w : Nat) : oddBits (a ^^^ b) w = (oddBits a w ^^ oddBits b w) := by
  induction w with
  | zero => simp [oddBits, popCount, bit]
  | succ w ih =>
    rw [oddBits_succ, oddBits_succ, oddBits_succ, ih, bit_xor]
    simp only [Bool.xor_assoc, Bool.xor_left_comm]

/-- The set bits of a number are those of its low part and of the rest. -/
theorem popCount_append {low a : Nat} (h : low < 2 ^ a) (high b : Nat) : popCount (low + high * 2 ^ a) (a + b) = popCount low a + popCount high b := by
  have hlow : ∀ w, w ≤ a → popCount (low + high * 2 ^ a) w = popCount low w := by
    intro w
    induction w with
    | zero => exact fun _ => rfl
    | succ w ih =>
      intro hw
      have hbit : bit (low + high * 2 ^ a) w = bit low w := by
        rw [bit_eq_testBit, bit_eq_testBit, Nat.add_comm, Nat.mul_comm, Nat.testBit_two_pow_mul_add _ h, if_pos (by omega)]
      rw [popCount, popCount, ih (by omega), hbit]
  induction b with
  | zero => exact hlow a (Nat.le_refl a)
  | succ b ih =>
    have hbit : bit (low + high * 2 ^ a) (a + b) = bit high b := by
      rw [bit_eq_testBit, bit_eq_testBit, Nat.add_comm, Nat.mul_comm, Nat.testBit_two_pow_mul_add _ h, if_neg (by omega), Nat.add_sub_cancel_left]
    rw [← Nat.add_assoc, popCount, ih, hbit, popCount, Nat.add_assoc]

/-! The syndrome. -/

theorem eccParity_xor (j : Nat) (ps : List Nat) (a b : Nat) : eccParity j ps (a ^^^ b) = (eccParity j ps a ^^ eccParity j ps b) := by
  induction ps generalizing a b with
  | nil => rfl
  | cons p ps ih =>
    have hhalf : (a ^^^ b) / 2 = a / 2 ^^^ b / 2 := Nat.xor_div_two_pow (n := 1)
    simp only [eccParity, hhalf, ih, bit_xor]
    cases bit a 0 <;> cases bit b 0 <;> cases bit p j <;> cases eccParity j ps (a / 2) <;> cases eccParity j ps (b / 2) <;> rfl

theorem eccLow_xor (a b : Nat) : eccLow (a ^^^ b) = eccLow a ^^^ eccLow b := by simp only [eccLow, eccParity_xor, maskOf_xor]

theorem eccLow_lt (d : Nat) : eccLow d < 128 := maskOf_lt _ 7

/-- The syndrome of a row: the ECC that its data bits give against the ECC that it holds. -/
def syndrome (w : Nat) : Nat := eccLow (w % 2 ^ 64) ^^^ (w / 2 ^ 64 % 128)

theorem syndrome_xor (a b : Nat) : syndrome (a ^^^ b) = syndrome a ^^^ syndrome b := by
  have hdata : (a ^^^ b) % 2 ^ 64 = a % 2 ^ 64 ^^^ b % 2 ^ 64 := Nat.xor_mod_two_pow
  have hecc : (a ^^^ b) / 2 ^ 64 % 2 ^ 7 = (a / 2 ^ 64 % 2 ^ 7) ^^^ (b / 2 ^ 64 % 2 ^ 7) := by rw [Nat.xor_div_two_pow, Nat.xor_mod_two_pow]
  show eccLow ((a ^^^ b) % 2 ^ 64) ^^^ ((a ^^^ b) / 2 ^ 64 % 2 ^ 7) = (eccLow (a % 2 ^ 64) ^^^ (a / 2 ^ 64 % 2 ^ 7)) ^^^ (eccLow (b % 2 ^ 64) ^^^ (b / 2 ^ 64 % 2 ^ 7))
  rw [hdata, hecc, eccLow_xor]
  ac_rfl

/-- What decoding makes of a row, by its syndrome and the parity of its 72 bits. -/
theorem decodeRow_ofNat {w : Nat} (h : w < 2 ^ 72) : decodeRow (BitVec.ofNat 72 w) =
    if !oddBits w 72 then (if syndrome w = 0 then ⟨w % 2 ^ 64, w / 2 ^ 64, false, false⟩ else ⟨0, w / 2 ^ 64, false, true⟩)
    else if syndrome w = 0 ∨ syndrome w = 1 ∨ syndrome w = 2 ∨ syndrome w = 4 ∨ syndrome w = 8 ∨ syndrome w = 16 ∨ syndrome w = 32 ∨ syndrome w = 64
      then ⟨w % 2 ^ 64, w / 2 ^ 64, true, false⟩
    else match eccPositions.findIdx? (· == syndrome w) with
      | some i => ⟨w % 2 ^ 64 ^^^ 2 ^ i, w / 2 ^ 64, true, false⟩
      | none => ⟨0, w / 2 ^ 64, false, true⟩ := by
  have hnat : (BitVec.ofNat 72 w).toNat = w := by rw [BitVec.toNat_ofNat, Nat.mod_eq_of_lt h]
  rw [decodeRow, hnat]
  rfl

/-! Coded rows. -/

theorem eccOf_parts (d : Nat) : eccOf d % 128 = eccLow d ∧ eccOf d < 256 := by
  have hlow := eccLow_lt d
  have htop := b2n_le (bit (popCount d 64 + popCount (eccLow d) 7) 0)
  simp only [eccOf]
  omega

section Coded

variable {d : Nat} (hd : d < 2 ^ 64)
include hd

theorem rowWord_parts : rowWord d % 2 ^ 64 = d ∧ rowWord d / 2 ^ 64 = eccOf d ∧ rowWord d < 2 ^ 72 := by
  obtain ⟨-, hecc⟩ := eccOf_parts d
  rw [rowWord, Nat.mod_eq_of_lt hd]
  omega

theorem syndrome_rowWord : syndrome (rowWord d) = 0 := by
  obtain ⟨hdata, hecc, -⟩ := rowWord_parts hd
  rw [syndrome, hdata, hecc, (eccOf_parts d).1, Nat.xor_self]

/-- The top ECC bit makes the number of set bits even. -/
theorem oddBits_rowWord : oddBits (rowWord d) 72 = false := by
  have hlow : eccLow d < 2 ^ 7 := eccLow_lt d
  have hecc : popCount (eccOf d) 8 = popCount (eccLow d) 7 + popCount (b2n (bit (popCount d 64 + popCount (eccLow d) 7) 0)) 1 := by
    rw [eccOf, Nat.mul_comm 128]
    exact popCount_append hlow _ 1
  have hone : ∀ b, popCount (b2n b) 1 = b2n b := by decide
  have hrow : popCount (rowWord d) 72 = popCount d 64 + popCount (eccOf d) 8 := by
    rw [rowWord, Nat.mod_eq_of_lt hd]
    exact popCount_append hd _ 8
  rw [oddBits, hrow, hecc, hone, ← Nat.add_assoc, bit_add_zero, bit_b2n_zero, Bool.xor_self]

end Coded

/-! Errors. -/

/-- The syndrome of an error in one bit: the position of a data bit, a bit of the ECC, or nothing of the parity bit. -/
theorem syndromes_of_errors : (List.range 72).map (fun p => syndrome (2 ^ p)) = eccPositions ++ [1, 2, 4, 8, 16, 32, 64, 0] := by decide +kernel

theorem syndrome_error_inj {p r : Nat} (hp : p < 72) (hr : r < 72) (h : syndrome (2 ^ p) = syndrome (2 ^ r)) : p = r := by
  have hnodup : (eccPositions ++ [1, 2, 4, 8, 16, 32, 64, 0]).Nodup := by decide +kernel
  rw [← syndromes_of_errors] at hnodup
  exact List.inj_on_of_nodup_map hnodup (List.mem_range.mpr hp) (List.mem_range.mpr hr) h

theorem oddBits_error {p : Nat} (hp : p < 72) : oddBits (2 ^ p) 72 = true := by
  have hall : ∀ r ∈ List.range 72, oddBits (2 ^ r) 72 = true := by decide +kernel
  exact hall p (List.mem_range.mpr hp)

/-- A data bit in error is found by its position. -/
theorem findIdx_error {p : Nat} (hp : p < 64) : eccPositions.findIdx? (· == syndrome (2 ^ p)) = some p
    ∧ ¬(syndrome (2 ^ p) = 0 ∨ syndrome (2 ^ p) = 1 ∨ syndrome (2 ^ p) = 2 ∨ syndrome (2 ^ p) = 4 ∨ syndrome (2 ^ p) = 8 ∨ syndrome (2 ^ p) = 16
      ∨ syndrome (2 ^ p) = 32 ∨ syndrome (2 ^ p) = 64) := by
  have hall : ∀ r ∈ List.range 64, eccPositions.findIdx? (· == syndrome (2 ^ r)) = some r
      ∧ ¬(syndrome (2 ^ r) = 0 ∨ syndrome (2 ^ r) = 1 ∨ syndrome (2 ^ r) = 2 ∨ syndrome (2 ^ r) = 4 ∨ syndrome (2 ^ r) = 8 ∨ syndrome (2 ^ r) = 16
        ∨ syndrome (2 ^ r) = 32 ∨ syndrome (2 ^ r) = 64) := by decide +kernel
  exact hall p (List.mem_range.mpr hp)

/-- A bit of the ECC in error is told from a data bit. -/
theorem syndrome_eccError {p : Nat} (hlow : 64 ≤ p) (hp : p < 72) : syndrome (2 ^ p) = 0 ∨ syndrome (2 ^ p) = 1 ∨ syndrome (2 ^ p) = 2 ∨ syndrome (2 ^ p) = 4
    ∨ syndrome (2 ^ p) = 8 ∨ syndrome (2 ^ p) = 16 ∨ syndrome (2 ^ p) = 32 ∨ syndrome (2 ^ p) = 64 := by
  interval_cases p <;> decide +kernel

section Decoded

variable {d : Nat} (hd : d < 2 ^ 64)
include hd

theorem decodeRow_intact : decodeRow (BitVec.ofNat 72 (rowWord d)) = ⟨d, eccOf d, false, false⟩ := by
  obtain ⟨hdata, hecc, hlt⟩ := rowWord_parts hd
  rw [decodeRow_ofNat hlt, oddBits_rowWord hd, syndrome_rowWord hd, hdata, hecc]
  rfl

theorem decodeRow_oneError {p : Nat} (hp : p < 72) :
    (decodeRow (BitVec.ofNat 72 (rowWord d ^^^ 2 ^ p))).data = d ∧ (decodeRow (BitVec.ofNat 72 (rowWord d ^^^ 2 ^ p))).corr = true
      ∧ (decodeRow (BitVec.ofNat 72 (rowWord d ^^^ 2 ^ p))).uncorr = false := by
  obtain ⟨hdata, -, hlt⟩ := rowWord_parts hd
  have hxor : rowWord d ^^^ 2 ^ p < 2 ^ 72 := Nat.xor_lt_two_pow hlt (Nat.pow_lt_pow_right (by decide) hp)
  have hodd : oddBits (rowWord d ^^^ 2 ^ p) 72 = true := by rw [oddBits_xor, oddBits_rowWord hd, oddBits_error hp, Bool.false_xor]
  have hsyn : syndrome (rowWord d ^^^ 2 ^ p) = syndrome (2 ^ p) := by rw [syndrome_xor, syndrome_rowWord hd, Nat.zero_xor]
  have hmod : (rowWord d ^^^ 2 ^ p) % 2 ^ 64 = d ^^^ 2 ^ p % 2 ^ 64 := by rw [Nat.xor_mod_two_pow, hdata]
  rw [decodeRow_ofNat hxor, hodd, hsyn, hmod]
  by_cases hlow : p < 64
  · obtain ⟨hfind, hposition⟩ := findIdx_error hlow
    have hbit : 2 ^ p % 2 ^ 64 = 2 ^ p := Nat.mod_eq_of_lt (Nat.pow_lt_pow_right (by decide) hlow)
    simp only [Bool.not_true, Bool.false_eq_true, if_false, if_neg hposition, hfind, hbit, Nat.xor_assoc, Nat.xor_self, Nat.xor_zero, and_self]
  · have hbit : 2 ^ p % 2 ^ 64 = 0 := Nat.mod_eq_zero_of_dvd (Nat.pow_dvd_pow 2 (Nat.not_lt.mp hlow))
    simp only [Bool.not_true, Bool.false_eq_true, if_false, if_pos (syndrome_eccError (Nat.not_lt.mp hlow) hp), hbit, Nat.xor_zero, and_self]

theorem decodeRow_twoErrors {p r : Nat} (hpr : p < r) (hr : r < 72) :
    (decodeRow (BitVec.ofNat 72 (rowWord d ^^^ 2 ^ p ^^^ 2 ^ r))).uncorr = true := by
  have hp : p < 72 := Nat.lt_trans hpr hr
  obtain ⟨-, -, hlt⟩ := rowWord_parts hd
  have hxor : rowWord d ^^^ 2 ^ p ^^^ 2 ^ r < 2 ^ 72 :=
    Nat.xor_lt_two_pow (Nat.xor_lt_two_pow hlt (Nat.pow_lt_pow_right (by decide) hp)) (Nat.pow_lt_pow_right (by decide) hr)
  have heven : oddBits (rowWord d ^^^ 2 ^ p ^^^ 2 ^ r) 72 = false := by
    rw [oddBits_xor, oddBits_xor, oddBits_rowWord hd, oddBits_error hp, oddBits_error hr]
    rfl
  have hsyn : syndrome (rowWord d ^^^ 2 ^ p ^^^ 2 ^ r) ≠ 0 := by
    rw [syndrome_xor, syndrome_xor, syndrome_rowWord hd, Nat.zero_xor]
    exact fun h => Nat.ne_of_lt hpr (syndrome_error_inj hp hr (Nat.xor_eq_zero_iff.mp h))
  rw [decodeRow_ofNat hxor, heven]
  simp only [Bool.not_false, if_true, if_neg hsyn]

end Decoded

/-- Settles O11: an error moves the syndrome of a coded row from 0 to its own and flips the parity; two errors leave the parity and a syndrome that is
not 0. -/
theorem fuseEcc : Obligations.FuseEcc := by
  unfold Obligations.FuseEcc
  exact ⟨by decide +kernel, fun d hd => ⟨decodeRow_intact hd, fun p hp => decodeRow_oneError hd hp, fun p r hpr hr => decodeRow_twoErrors hd hpr hr⟩⟩

end Sys2Proof.Machine
end

section
/-!
SUPPORT. What no register shows and only some commands change (`Kept`), and what every command keeps of it (`Keeps`): the relation by which the
functions of the model are followed, one lemma for each.
-/
namespace Sys2Proof.Machine

/-- What no register shows and only some commands change: the fuse array, global time, the SESSIONs, the queue, the local clock and the four
memories of `State.memoryWf`. -/
structure Kept where
  fuses : Tbl (BitVec 72)
  weak : Tbl (BitVec 72)
  timeFine : Nat
  sessions : Tbl Nat
  pending : List Instr
  uptime : Nat
  mem : Tbl Byte
  sram : Tbl Byte
  shadow : Tbl Byte
  snapshot : Option (Tbl Byte)

/-- These parts of a state. -/
def State.kept (s : State) : Kept :=
  ⟨s.fuses, s.weak, s.timeFine, s.sessions, s.pending, s.uptime, s.mem, s.vault.sram, s.vault.shadow, s.vault.run.map (·.snapshot)⟩

/-- The four memories are in canonical form. -/
def Kept.wf (k : Kept) : Prop :=
  Memory.wf k.mem = true ∧ Memory.wf k.sram = true ∧ Memory.wf k.shadow = true ∧ ∀ m ∈ k.snapshot, Memory.wf m = true

theorem State.memoryWf_iff (s : State) : s.memoryWf = true ↔ s.kept.wf := by
  cases hrun : s.vault.run <;> simp [State.memoryWf, Kept.wf, State.kept, hrun, and_assoc]

/-- The parts that a command may set anew; the memories may change with any. -/
inductive Change where
  | none | fuses | time | sessions | reset

/-- What every command keeps of `k`, and what it keeps unless it is one of those that change it. -/
structure Keeps (c : Change) (k m : Kept) : Prop where
  set : ∀ p, tblGet 0 k.fuses p &&& tblGet 0 m.fuses p = tblGet 0 k.fuses p
  fuses : c ≠ .fuses → m.fuses = k.fuses ∧ m.weak = k.weak
  time : c ≠ .time → c ≠ .reset → m.timeFine = k.timeFine
  sessions : c ≠ .sessions → c ≠ .reset → m.sessions = k.sessions
  pending : m.pending = k.pending
  uptime : m.uptime = k.uptime
  wf : k.wf → m.wf

@[simp, refl] theorem Keeps.refl {c : Change} {k : Kept} : Keeps c k k :=
  ⟨fun _ => BitVec.and_self, fun _ => ⟨rfl, rfl⟩, fun _ _ => rfl, fun _ _ => rfl, rfl, rfl, id⟩

theorem Keeps.trans {c : Change} {k m n : Kept} (h : Keeps c k m) (h' : Keeps c m n) : Keeps c k n where
  set p := by rw [← h.set p, BitVec.and_assoc, h'.set p]
  fuses hc := ⟨(h'.fuses hc).1.trans (h.fuses hc).1, (h'.fuses hc).2.trans (h.fuses hc).2⟩
  time ht hr := (h'.time ht hr).trans (h.time ht hr)
  sessions hs hr := (h'.sessions hs hr).trans (h.sessions hs hr)
  pending := h'.pending.trans h.pending
  uptime := h'.uptime.trans h.uptime
  wf hk := h'.wf (h.wf hk)

/-- A change of the memories alone that keeps their form. -/
theorem Keeps.of_memories {c : Change} {k m : Kept} (hm : m = { k with mem := m.mem, sram := m.sram, shadow := m.shadow, snapshot := m.snapshot })
    (hwf : k.wf → m.wf) : Keeps c k m := by
  rw [hm] at hwf ⊢
  exact ⟨fun _ => BitVec.and_self, fun _ => ⟨rfl, rfl⟩, fun _ _ => rfl, fun _ _ => rfl, rfl, rfl, hwf⟩

/-- An update of the other fields of a state leaves its kept parts. -/
@[simp] theorem State.kept_update (s : State)
    (regs staged split slots clkChange clkStopped dlkAttempts msixOn msixMask msixPend unretired computeRan lcRun boot rails groupsOff tripDriven
    clerks dumps ports logQueue logLost pairs bmc trace spx sensors throttleLogged coolSince iccHigh alertLow currentSince hbmFails gated loop
    poisonLine poisonWord errFifo scrubPos wipeVerify wipeFill woken wakeOff bankWait hbmWait ops rings turns contexts tallies mteRun mteLog
    softRepairs hardRepairs scrub txStreams rxStreams requests inbox groups folios pools attends steps early rosters granules mirrors mirrored commits
    postWait zeroRun flrFill epochAt fports goodOffsets everSynced lastCommit out free) :
    State.kept { s with
      regs, staged, split, slots, clkChange, clkStopped, dlkAttempts, msixOn, msixMask, msixPend, unretired, computeRan, lcRun, boot, rails,
      groupsOff, tripDriven, clerks, dumps, ports, logQueue, logLost, pairs, bmc, trace, spx, sensors, throttleLogged, coolSince, iccHigh,
      alertLow, currentSince, hbmFails, gated, loop, poisonLine, poisonWord, errFifo, scrubPos, wipeVerify, wipeFill, woken, wakeOff, bankWait,
      hbmWait, ops, rings, turns, contexts, tallies, mteRun, mteLog, softRepairs, hardRepairs, scrub, txStreams, rxStreams, requests, inbox,
      groups, folios, pools, attends, steps, early, rosters, granules, mirrors, mirrored, commits, postWait, zeroRun, flrFill, epochAt, fports,
      goodOffsets, everSynced, lastCommit, out, free } = s.kept := by
  cases s; rfl

/-- So does one of the other fields of its Vault. -/
@[simp] theorem State.kept_update_vault (s : State)
    (regs staged split slots clkChange clkStopped dlkAttempts msixOn msixMask msixPend unretired computeRan lcRun boot rails groupsOff tripDriven
    clerks dumps ports logQueue logLost pairs bmc trace spx sensors throttleLogged coolSince iccHigh alertLow currentSince hbmFails gated loop
    poisonLine poisonWord errFifo scrubPos wipeVerify wipeFill woken wakeOff bankWait hbmWait ops rings turns contexts tallies mteRun mteLog
    softRepairs hardRepairs scrub txStreams rxStreams requests inbox groups folios pools attends steps early rosters granules mirrors mirrored commits
    postWait zeroRun flrFill epochAt fports goodOffsets everSynced lastCommit out free)
    (sealOpen clean nextSources nextWaiters tested reached testDue testRunning testRetry autoStore warnLogged onHold storeRise resetRise resumeDue
    resuming) :
    State.kept { s with
      regs, staged, split, slots, clkChange, clkStopped, dlkAttempts, msixOn, msixMask, msixPend, unretired, computeRan, lcRun, boot, rails,
      groupsOff, tripDriven, clerks, dumps, ports, logQueue, logLost, pairs, bmc, trace, spx, sensors, throttleLogged, coolSince, iccHigh,
      alertLow, currentSince, hbmFails, gated, loop, poisonLine, poisonWord, errFifo, scrubPos, wipeVerify, wipeFill, woken, wakeOff, bankWait,
      hbmWait, ops, rings, turns, contexts, tallies, mteRun, mteLog, softRepairs, hardRepairs, scrub, txStreams, rxStreams, requests, inbox,
      groups, folios, pools, attends, steps, early, rosters, granules, mirrors, mirrored, commits, postWait, zeroRun, flrFill, epochAt, fports,
      goodOffsets, everSynced, lastCommit, out, free,
      vault := { s.vault with
        sealOpen, clean, nextSources, nextWaiters, tested, reached, testDue, testRunning, testRetry, autoStore, warnLogged, onHold, storeRise,
        resetRise, resumeDue, resuming } } = s.kept := by
  cases s; rfl

/-- An update of device memory, and of what stands beside it. -/
theorem State.kept_update_mem (s : State) (mem poisonLine poisonWord free) :
    State.kept { s with mem, poisonLine, poisonWord, free } = { s.kept with mem := mem } := by cases s; rfl

/-- An update of the Vault's SRAM. -/
theorem State.kept_update_sram (s : State) (sram clean) :
    State.kept { s with vault := { s.vault with sram, clean } } = { s.kept with sram := sram } := by cases s; rfl

@[simp] theorem State.kept_ite (c : Prop) [Decidable c] (a b : State) : (if c then a else b).kept = if c then a.kept else b.kept := apply_ite _ _ _ _

@[simp] theorem State.kept_foldl {β : Type} {f : State → β → State} (h : ∀ t x, (f t x).kept = t.kept) (l : List β) (s : State) :
    (l.foldl f s).kept = s.kept := by
  induction l generalizing s with
  | nil => rfl
  | cons x l ih => rw [List.foldl_cons, ih, h]

@[simp] theorem Keeps.foldl {β : Type} {c : Change} {k : Kept} {f : State → β → State} (hf : ∀ t x, Keeps c t.kept (f t x).kept)
    {s : State} (h : Keeps c k s.kept) (l : List β) : Keeps c k (l.foldl f s).kept := by
  induction l generalizing s with
  | nil => exact h
  | cons x l ih => exact ih (h.trans (hf s x))

/-- The kept parts with another device memory in canonical form. -/
theorem Keeps.with_mem {c : Change} {k m : Kept} {x : Tbl Byte} (h : Keeps c k m) (hx : Memory.wf m.mem = true → Memory.wf x = true) :
    Keeps c k { m with mem := x } :=
  h.trans (.of_memories rfl fun ⟨hmem, hrest⟩ => ⟨hx hmem, hrest⟩)

/-- With another content of the Vault's SRAM. -/
theorem Keeps.with_sram {c : Change} {k m : Kept} {x : Tbl Byte} (h : Keeps c k m) (hx : Memory.wf m.sram = true → Memory.wf x = true) :
    Keeps c k { m with sram := x } :=
  h.trans (.of_memories rfl fun ⟨hmem, hsram, hrest⟩ => ⟨hmem, hx hsram, hrest⟩)

@[simp] theorem keeps_ite {c : Change} {k : Kept} {p : Prop} [Decidable p] {a b : Kept} :
    Keeps c k (if p then a else b) ↔ if p then Keeps c k a else Keeps c k b := by split <;> exact Iff.rfl

theorem State.keeps_ite {c : Change} {k : Kept} {p : Prop} [Decidable p] {a b : State} (ha : Keeps c k a.kept) (hb : Keeps c k b.kept) :
    Keeps c k (if p then a else b).kept := by
  split
  · exact ha
  · exact hb

/-- A fold that carries something beside the state. -/
theorem Keeps.foldl_fst {α β : Type} {c : Change} {k : Kept} {f : State × α → β → State × α} (hf : ∀ a x, Keeps c a.1.kept (f a x).1.kept)
    {a : State × α} (h : Keeps c k a.1.kept) (l : List β) : Keeps c k (l.foldl f a).1.kept := by
  induction l generalizing a with
  | nil => exact h
  | cons x l ih => exact ih (h.trans (hf a x))

/-- The memories of the Vault as another state with the property has them. -/
theorem Keeps.with_vault {c : Change} {k m n : Kept} (h : Keeps c k m) (h' : Keeps c k n) :
    Keeps c k { m with sram := n.sram, shadow := n.shadow, snapshot := n.snapshot } :=
  { h with wf := fun hk => ⟨(h.wf hk).1, (h'.wf hk).2⟩ }

/-- Every state a command ends in keeps what `Keeps` says of `k`. -/
def Result.Keeps (c : Change) (k : Kept) (r : Result) : Prop := ∀ t, r = .next t → Machine.Keeps c k t.kept

@[simp] theorem Result.keeps_next {c : Change} {k : Kept} {t : State} : Result.Keeps c k (.next t) ↔ Machine.Keeps c k t.kept :=
  ⟨fun h => h t (rfl), fun h _ ht => by cases ht; exact h⟩

@[simp] theorem Result.keeps_refused {c : Change} {k : Kept} {r : Refusal} : Result.Keeps c k (.refused r) := fun _ h => nomatch h

@[simp] theorem Result.keeps_fault {c : Change} {k : Kept} {r : Fault} : Result.Keeps c k (.fault r) := fun _ h => nomatch h

@[simp] theorem Result.keeps_ite {c : Change} {k : Kept} (p : Prop) [Decidable p] (a b : Result) :
    Result.Keeps c k (if p then a else b) ↔ if p then Result.Keeps c k a else Result.Keeps c k b := by split <;> exact Iff.rfl

end Sys2Proof.Machine
end

section
/-!
SUPPORT. The functions that leave every kept part as it is, in the order of the model's files. Each lemma rewrites its function away, so the proof of
the next one only has to follow its branches.
-/
namespace Sys2Proof.Machine

/-! Functions of Machine/Ops.lean. -/

@[simp] theorem State.kept_setCell (s : State) (key : Nat) (v : DWord) : (s.setCell key v).kept = s.kept := by simp [State.setCell]

@[simp] theorem State.kept_setStaged (s : State) (key : Nat) (v : DWord) : (s.setStaged key v).kept = s.kept := by simp [State.setStaged]

@[simp] theorem State.kept_wr (s : State) (f : Fld) (v : Nat) : (s.wr f v).kept = s.kept := by simp [State.wr]

@[simp] theorem State.kept_wrb (s : State) (f : Fld) (b : Bool) : (s.wrb f b).kept = s.kept := by simp [State.wrb]

@[simp] theorem State.kept_wrBoth (s : State) (f : Fld) (v : Nat) : (s.wrBoth f v).kept = s.kept := by simp [State.wrBoth]

@[simp] theorem State.kept_count (s : State) (f : Fld) (n : Nat) : (s.count f n).kept = s.kept := by simp [State.count]

@[simp] theorem State.kept_countWrap (s : State) (f : Fld) (n : Nat) : (s.countWrap f n).kept = s.kept := by simp [State.countWrap]

@[simp] theorem State.kept_latch (s : State) (fn off : Nat) (high : Word) : (s.latch fn off high).kept = s.kept := by simp [State.latch]

@[simp] theorem State.kept_skipFree (s : State) (n : Nat) : (s.skipFree n).kept = s.kept := by simp [State.skipFree]

@[simp] theorem State.kept_emit (s : State) (o : Out) : (s.emit o).kept = s.kept := by simp [State.emit]

@[simp] theorem State.kept_raiseVec (s : State) (fn vector : Nat) : (s.raiseVec fn vector).kept = s.kept := by simp [State.raiseVec]

@[simp] theorem State.kept_raisePage (s : State) (pg : Nat) : (s.raisePage pg).kept = s.kept := by simp [State.raisePage]

@[simp] theorem State.kept_raiseMask (s : State) (pg m : Nat) : (s.raiseMask pg m).kept = s.kept := by simp [State.raiseMask]

@[simp] theorem State.kept_raise (s : State) (pg i : Nat) : (s.raise pg i).kept = s.kept := by simp [State.raise]

@[simp] theorem State.kept_reRaise (s : State) (pg : Nat) : (s.reRaise pg).kept = s.kept := by simp [State.reRaise]

@[simp] theorem State.kept_faultIs (s : State) (pg : Nat) (b : Bool) : (s.faultIs pg b).kept = s.kept := by
  unfold State.faultIs
  split <;> simp

@[simp] theorem State.kept_setFault (s : State) (pg : Nat) : (s.setFault pg).kept = s.kept := by simp [State.setFault]

@[simp] theorem State.kept_cfCorrupt (s : State) (pg : Nat) : (s.cfCorrupt pg).kept = s.kept := by simp [State.cfCorrupt]

@[simp] theorem State.kept_lastStatus (s : State) (pg code : Nat) : (s.lastStatus pg code).kept = s.kept := by simp [State.lastStatus]

/-! Functions of Machine/ClockOps.lean. -/

@[simp] theorem State.kept_retarget (s : State) : (s.retarget).kept = s.kept := by simp [State.retarget]

@[simp] theorem State.kept_setClamp (s : State) (f : Fld) (b : Bool) : (s.setClamp f b).kept = s.kept := by simp [State.setClamp]

@[simp] theorem State.kept_holdSafeClock (s : State) : (s.holdSafeClock).kept = s.kept := by simp [State.holdSafeClock]

@[simp] theorem State.kept_countBusy (s : State) : (s.countBusy).kept = s.kept := by simp [State.countBusy]

/-! Functions of Machine/Otp.lean. -/

@[simp] theorem State.kept_refreshOtp (s : State) : (s.refreshOtp).kept = s.kept := by simp [State.refreshOtp]

@[simp] theorem State.kept_lastProg (s : State) (row code : Nat) : (s.lastProg row code).kept = s.kept := by simp [State.lastProg]

/-! Functions of Machine/VaultOps.lean. -/

@[simp] theorem State.kept_offerLog (s : State) (n : Option Nat) (e : LogEntry) : (s.offerLog n e).kept = s.kept := by
  simp only [State.offerLog]
  (repeat' split) <;> simp

@[simp] theorem State.kept_logHw (s : State) (level code a0 a1 a2 : Nat) : (s.logHw level code a0 a1 a2).kept = s.kept := by simp [State.logHw]

@[simp] theorem State.kept_logClerk (s : State) (n level code a0 a1 a2 : Nat) : (s.logClerk n level code a0 a1 a2).kept = s.kept := by
  simp [State.logClerk]

@[simp] theorem State.kept_logSec (s : State) (level code a0 a1 a2 : Nat) : (s.logSec level code a0 a1 a2).kept = s.kept := by simp [State.logSec]

@[simp] theorem State.kept_setVhold (s : State) (v : Int) : (s.setVhold v).kept = s.kept := by simp [State.setVhold]

@[simp] theorem State.kept_recharge (s : State) : (s.recharge).kept = s.kept := by simp [State.recharge]

@[simp] theorem State.kept_refreshArmed (s : State) : (s.refreshArmed).kept = s.kept := by simp [State.refreshArmed]

/-! Functions of Machine/ClerkOps.lean. -/

@[simp] theorem State.kept_setStage (s : State) (g : Nat) : (s.setStage g).kept = s.kept := by simp [State.setStage]

@[simp] theorem State.kept_setClerk (s : State) (n : Nat) (c : Clerk) : (s.setClerk n c).kept = s.kept := by simp [State.setClerk]

@[simp] theorem State.kept_retryConfig (s : State) (fn : Nat) : (s.retryConfig fn).kept = s.kept := by simp [State.retryConfig]

@[simp] theorem State.kept_unsupported (s : State) (fn off : Nat) : (s.unsupported fn off).kept = s.kept := by simp [State.unsupported]

@[simp] theorem State.kept_unsupportedRead (s : State) (fn off : Nat) : (s.unsupportedRead fn off).kept = s.kept := by simp [State.unsupportedRead]

@[simp] theorem State.kept_bmcIdle (s : State) : (s.bmcIdle).kept = s.kept := by simp [State.bmcIdle]

@[simp] theorem State.kept_startClerk (s : State) (n st comp : Nat) : (s.startClerk n st comp).kept = s.kept := by simp [State.startClerk]

@[simp] theorem State.kept_pwrDiv (s : State) (div : Nat) : (s.pwrDiv div).kept = s.kept := by simp [State.pwrDiv]

@[simp] theorem State.kept_setPair (s : State) (a p : Nat) (x : Pair) : (s.setPair a p x).kept = s.kept := by simp [State.setPair]

@[simp] theorem State.kept_deliver (s : State) (a p code : Nat) (bs : List Byte) (wr : DmaEnd) : (s.deliver a p code bs wr).kept = s.kept := by
  simp [State.deliver]

@[simp] theorem State.kept_replyFlags (s : State) (a p typ flags code : Nat) (payload : List Byte) (wr : DmaEnd) :
    (s.replyFlags a p typ flags code payload wr).kept = s.kept := by simp [State.replyFlags]

@[simp] theorem State.kept_reply (s : State) (a p typ code : Nat) (payload : List Byte) (wr : DmaEnd) :
    (s.reply a p typ code payload wr).kept = s.kept := by simp [State.reply]

@[simp] theorem State.kept_replyEarly (s : State) (a p typ code : Nat) (wr : DmaEnd) : (s.replyEarly a p typ code wr).kept = s.kept := by
  simp [State.replyEarly]

@[simp] theorem State.kept_busy (s : State) (a p typ : Nat) (wr : DmaEnd) : (s.busy a p typ wr).kept = s.kept := by simp [State.busy]

@[simp] theorem State.kept_answer (s : State) (a p code : Nat) (payload : List Byte) : (s.answer a p code payload).kept = s.kept := by
  simp [State.answer]

@[simp] theorem State.kept_notice (s : State) (a typ : Nat) (payload : List Byte) : (s.notice a typ payload).kept = s.kept := by simp [State.notice]

@[simp] theorem State.kept_fatal (s : State) (cause clerk : Nat) : (s.fatal cause clerk).kept = s.kept := by simp [State.fatal]

@[simp] theorem State.kept_haltClerk (s : State) (n cause addr : Nat) : (s.haltClerk n cause addr).kept = s.kept := by simp [State.haltClerk]

/-! Functions of Machine/RailOps.lean. -/

@[simp] theorem State.kept_setRail (s : State) (n : Nat) (r : Rail) : (s.setRail n r).kept = s.kept := by simp [State.setRail]

@[simp] theorem State.kept_setRailSt (s : State) (n st : Nat) : (s.setRailSt n st).kept = s.kept := by simp [State.setRailSt]

@[simp] theorem State.kept_kickOne (s : State) (n : Nat) : (s.kickOne n).kept = s.kept := by simp [State.kickOne]

@[simp] theorem State.kept_kick (s : State) : (s.kick).kept = s.kept := by simp [State.kick]

@[simp] theorem State.kept_refreshSup (s : State) : (s.refreshSup).kept = s.kept := by simp [State.refreshSup]

@[simp] theorem State.kept_followPower (s : State) : (s.followPower).kept = s.kept := by simp [State.followPower]

@[simp] theorem State.kept_settleRails (s : State) : (s.settleRails).kept = s.kept := by simp [State.settleRails]

@[simp] theorem State.kept_refuseSup (s : State) : (s.refuseSup).kept = s.kept := by simp [State.refuseSup]

@[simp] theorem State.kept_wantOn (s : State) (n : Nat) : (s.wantOn n).kept = s.kept := by simp [State.wantOn]

@[simp] theorem State.kept_powerUp (s : State) (mask : Nat) : (s.powerUp mask).kept = s.kept := by simp [State.powerUp]

@[simp] theorem State.kept_powerBack (s : State) (mask : Nat) : (s.powerBack mask).kept = s.kept := by simp [State.powerBack]

@[simp] theorem State.kept_supPowerUp (s : State) : (s.supPowerUp).kept = s.kept := by simp [State.supPowerUp]

@[simp] theorem State.kept_supGroupOn (s : State) (groups : Nat) : (s.supGroupOn groups).kept = s.kept := by simp [State.supGroupOn]

@[simp] theorem State.kept_stopRail (s : State) (live n : Nat) : (s.stopRail live n).kept = s.kept := by simp [State.stopRail]

@[simp] theorem State.kept_dropRail (s : State) (n after : Nat) (wanted : Bool) : (s.dropRail n after wanted).kept = s.kept := by
  simp [State.dropRail]

@[simp] theorem State.kept_cutDependent (s : State) (n : Nat) (wanted : Bool) : (s.cutDependent n wanted).kept = s.kept := by
  simp [State.cutDependent]

@[simp] theorem State.kept_recordFault (s : State) (n cause reaction : Nat) : (s.recordFault n cause reaction).kept = s.kept := by
  simp [State.recordFault]

@[simp] theorem State.kept_holdDependent (s : State) (groups n : Nat) : (s.holdDependent groups n).kept = s.kept := by simp [State.holdDependent]

@[simp] theorem State.kept_confirmOff (s : State) (n : Nat) : (s.confirmOff n).kept = s.kept := by simp [State.confirmOff]

/-! Functions of Machine/MemOps.lean. -/

@[simp] theorem State.kept_absentWrite (s : State) (pg : Nat) : (s.absentWrite pg).kept = s.kept := by simp [State.absentWrite]

@[simp] theorem State.kept_setBankSta (s : State) (half b v : Nat) : (s.setBankSta half b v).kept = s.kept := by simp [State.setBankSta]

@[simp] theorem State.kept_setBankFault (s : State) (half mask : Nat) : (s.setBankFault half mask).kept = s.kept := by simp [State.setBankFault]

@[simp] theorem State.kept_setTargetFault (s : State) (half kind index : Nat) (b : Bool) : (s.setTargetFault half kind index b).kept = s.kept := by
  simp [State.setTargetFault]

@[simp] theorem State.kept_setPoison (s : State) (a : Nat) (b : Bool) : (s.setPoison a b).kept = s.kept := by
  unfold State.setPoison
  split <;> simp

@[simp] theorem State.kept_clearCovered (s : State) (a n : Nat) : (s.clearCovered a n).kept = s.kept := by simp [State.clearCovered]

@[simp] theorem State.kept_logErr (s : State) (pg a kind source acct : Nat) : (s.logErr pg a kind source acct).kept = s.kept := by
  simp [State.logErr]

@[simp] theorem State.kept_notePoison (s : State) (a : Nat) (rmw : Bool) (source acct : Nat) : (s.notePoison a rmw source acct).kept = s.kept := by
  simp only [State.notePoison]
  (repeat' split) <;> simp

@[simp] theorem State.kept_noteFault (s : State) (f : Nat × Nat) (rmw : Bool) (source acct : Nat) :
    (s.noteFault f rmw source acct).kept = s.kept := by simp [State.noteFault]

@[simp] theorem State.kept_markWiped (s : State) (half mask : Nat) : (s.markWiped half mask).kept = s.kept := by simp [State.markWiped]

/-! Functions of Machine/Memory.lean. -/

@[simp] theorem State.kept_pciePoison (s : State) (source acct : Nat) : (s.pciePoison source acct).kept = s.kept := by simp [State.pciePoison]

@[simp] theorem State.kept_holdHbm (s : State) (c : Instr) : (s.holdHbm c).kept = s.kept := by simp [State.holdHbm]

@[simp] theorem State.kept_lostRead (s : State) (a n : Nat) : (s.lostRead a n).kept = s.kept := by simp [State.lostRead]

@[simp] theorem State.kept_faultStack (s : State) (stack cause : Nat) : (s.faultStack stack cause).kept = s.kept := by simp [State.faultStack]

@[simp] theorem State.kept_bankPwrReq (s : State) (half i value : Nat) : (s.bankPwrReq half i value).kept = s.kept := by simp [State.bankPwrReq]

@[simp] theorem State.kept_mteFields (s : State) (half value : Nat) : (s.mteFields half value).kept = s.kept := by simp [State.mteFields]

@[simp] theorem State.kept_mteStart (s : State) (half value : Nat) : (s.mteStart half value).kept = s.kept := by
  simp only [State.mteStart, State.kept_ite, State.kept_update, State.kept_raise, State.kept_lastStatus, State.kept_wr, State.kept_mteFields,
    ite_self]

/-! Functions of Machine/PostOps.lean. -/

@[simp] theorem State.kept_setPort (s : State) (u : Nat) (x : Spx) : (s.setPort u x).kept = s.kept := by simp [State.setPort]

@[simp] theorem State.kept_dropLines (s : State) (u sel : Nat) : (s.dropLines u sel).kept = s.kept := by simp [State.dropLines]

@[simp] theorem State.kept_exitWith (s : State) (u sel : Nat) (op : SpiOp) : (s.exitWith u sel op).kept = s.kept := by simp [State.exitWith]

@[simp] theorem State.kept_exitOmit (s : State) (u sel : Nat) : (s.exitOmit u sel).kept = s.kept := by simp [State.exitOmit]

@[simp] theorem State.kept_exitSoon (old s : State) (u sel : Nat) : (old.exitSoon s u sel).kept = s.kept := by simp [State.exitSoon]

@[simp] theorem State.kept_exitHeld (s : State) (u : Nat) : (s.exitHeld u).kept = s.kept := by simp [State.exitHeld]

@[simp] theorem State.kept_fifoEvents (s : State) (u : Nat) : (s.fifoEvents u).kept = s.kept := by simp [State.fifoEvents]

@[simp] theorem State.kept_setFifo (s : State) (u : Nat) (x : Spx) : (s.setFifo u x).kept = s.kept := by simp [State.setFifo]

@[simp] theorem State.kept_startWord (s : State) (u : Nat) : (s.startWord u).kept = s.kept := by simp [State.startWord]

@[simp] theorem State.kept_underrun (s : State) (u : Nat) : (s.underrun u).kept = s.kept := by simp [State.underrun]

@[simp] theorem State.kept_endWord (s : State) (u k : Nat) : (s.endWord u k).kept = s.kept := by simp [State.endWord]

@[simp] theorem State.kept_copyPage (s : State) (pg : Nat) : (s.copyPage pg).kept = s.kept := by simp [State.copyPage]

@[simp] theorem State.kept_discardPage (s : State) (pg : Nat) : (s.discardPage pg).kept = s.kept := by simp [State.discardPage]

@[simp] theorem State.kept_supApplied (old s : State) (badFormat : Nat) : (old.supApplied s badFormat).kept = s.kept := by simp [State.supApplied]

@[simp] theorem State.kept_spxApplied (old s : State) (u : Nat) : (old.spxApplied s u).kept = s.kept := by
  unfold State.spxApplied
  split <;> simp

@[simp] theorem State.kept_checkEpoch (s : State) (a : Nat) : (s.checkEpoch a).kept = s.kept := by simp [State.checkEpoch]

@[simp] theorem State.kept_refreshOld (s : State) : (s.refreshOld).kept = s.kept := by simp [State.refreshOld]

@[simp] theorem State.kept_actApplied (old s : State) (a : Nat) : (old.actApplied s a).kept = s.kept := by simp [State.actApplied]

@[simp] theorem State.kept_folApplied (old s : State) (half : Nat) : (old.folApplied s half).kept = s.kept := by simp [State.folApplied]

@[simp] theorem State.kept_refreshGroups (s : State) : (s.refreshGroups).kept = s.kept := by simp [State.refreshGroups]

@[simp] theorem State.kept_promoteGroup (s : State) (g : Nat) : (s.promoteGroup g).kept = s.kept := by
  simp only [State.promoteGroup]
  (repeat' split) <;> simp

@[simp] theorem State.kept_colApplied (s : State) : (s.colApplied).kept = s.kept := by simp [State.colApplied]

@[simp] theorem State.kept_lscApplied (s : State) : (s.lscApplied).kept = s.kept := by simp [State.lscApplied]

@[simp] theorem State.kept_dspApplied (s : State) (half : Nat) : (s.dspApplied half).kept = s.kept := by simp [State.dspApplied]

@[simp] theorem State.kept_setSlot (s : State) (n : Nat) (x : PostSlot) : (s.setSlot n x).kept = s.kept := by simp [State.setSlot]

@[simp] theorem State.kept_refreshBusy (s : State) : (s.refreshBusy).kept = s.kept := by simp [State.refreshBusy]

@[simp] theorem State.kept_endSlot (s : State) (n st code reason page : Nat) : (s.endSlot n st code reason page).kept = s.kept := by
  simp [State.endSlot]

@[simp] theorem State.kept_stageFld (s : State) (f : Fld) (v : Nat) : (s.stageFld f v).kept = s.kept := by simp [State.stageFld]

@[simp] theorem State.kept_stageRaw (s : State) (key v : Nat) : (s.stageRaw key v).kept = s.kept := by
  unfold State.stageRaw
  split <;> simp

@[simp] theorem State.kept_stageCf (s : State) (f : Fld) (v : Nat) : (s.stageCf f v).kept = s.kept := by simp [State.stageCf]

/-! Functions of Machine/RingOps.lean. -/

@[simp] theorem State.kept_setRingX (s : State) (u : Nat) (x : Ring) : (s.setRingX u x).kept = s.kept := by simp [State.setRingX]

@[simp] theorem State.kept_lastCode (s : State) (u code : Nat) : (s.lastCode u code).kept = s.kept := by simp [State.lastCode]

@[simp] theorem State.kept_setOp (s : State) (o : Op) : (s.setOp o).kept = s.kept := by simp [State.setOp]

@[simp] theorem State.kept_dropOp (s : State) (o : Op) : (s.dropOp o).kept = s.kept := by simp [State.dropOp]

@[simp] theorem State.kept_linkBytes (s : State) (half n : Nat) : (s.linkBytes half n).kept = s.kept := by simp [State.linkBytes]

@[simp] theorem State.kept_linkMessage (s : State) (half : Nat) : (s.linkMessage half).kept = s.kept := by simp [State.linkMessage]

@[simp] theorem State.kept_linkAccess (s : State) (half addr n : Nat) (rd wr : Bool) : (s.linkAccess half addr n rd wr).kept = s.kept := by
  simp [State.linkAccess]

@[simp] theorem State.kept_fireWatch (s : State) (u : Nat) : (s.fireWatch u).kept = s.kept := by simp [State.fireWatch]

@[simp] theorem State.kept_setTally (s : State) (t v : Nat) : (s.setTally t v).kept = s.kept := by simp [State.setTally]

@[simp] theorem State.kept_addTally (s : State) (t v : Nat) : (s.addTally t v).kept = s.kept := by simp [State.addTally]

@[simp] theorem State.kept_refreshDsp (s : State) : (s.refreshDsp).kept = s.kept := by simp [State.refreshDsp]

@[simp] theorem State.kept_refreshRing (s : State) (u : Nat) : (s.refreshRing u).kept = s.kept := by simp [State.refreshRing]

@[simp] theorem State.kept_faultRing (s : State) (u cause code : Nat) : (s.faultRing u cause code).kept = s.kept := by simp [State.faultRing]

@[simp] theorem State.kept_recordWritten (s : State) (u : Nat) (x : Rec) : (s.recordWritten u x).kept = s.kept := by simp [State.recordWritten]

@[simp] theorem State.kept_holdRec (s : State) (u : Nat) (x : Rec) : (s.holdRec u x).kept = s.kept := by simp [State.holdRec]

@[simp] theorem State.kept_freeRetained (s : State) (o : Op) : (s.freeRetained o).kept = s.kept := by
  simp only [State.freeRetained]
  (repeat' split) <;> simp

@[simp] theorem State.kept_signalTally (s : State) (half t v : Nat) : (s.signalTally half t v).kept = s.kept := by simp [State.signalTally]

@[simp] theorem State.kept_countDone (s : State) (o : Op) : (s.countDone o).kept = s.kept := by simp [State.countDone]

@[simp] theorem State.kept_tookTurn (s : State) (k : Nat) (l : List Op) (o : Op) : (s.tookTurn k l o).kept = s.kept := by simp [State.tookTurn]

@[simp] theorem State.kept_endOp (s : State) (o : Op) (f : Fail) (detail : Nat) : (s.endOp o f detail).kept = s.kept := by
  unfold State.endOp
  split <;> simp

@[simp] theorem State.kept_endOk (s : State) (o : Op) (detail : Nat) : (s.endOk o detail).kept = s.kept := by simp [State.endOk]

@[simp] theorem State.kept_endCode (s : State) (o : Op) (code : Nat) : (s.endCode o code).kept = s.kept := by simp [State.endCode]

@[simp] theorem State.kept_noteOp (s : State) (o : Op) (f : Fail) (rmw : Bool) : (s.noteOp o f rmw).kept = s.kept := by simp [State.noteOp]

@[simp] theorem State.kept_noteUse (s : State) (o : Op) (uses : List Use) (f : Fail) : (s.noteUse o uses f).kept = s.kept := by simp [State.noteUse]

/-! Functions of Machine/Tiles.lean. -/

@[simp] theorem State.kept_tallyCas (s : State) (o : Op) : (s.tallyCas o).kept = s.kept := by simp [State.tallyCas]

@[simp] theorem State.kept_decideOp (s : State) (o : Op) (f : Fail) (detail : Nat) : (s.decideOp o f detail).kept = s.kept := by
  simp [State.decideOp]

@[simp] theorem State.kept_tileIdleNow (s : State) (i : Nat) : (s.tileIdleNow i).kept = s.kept := by simp [State.tileIdleNow]

@[simp] theorem State.kept_tileTakes (s : State) (i : Nat) (o : Op) : (s.tileTakes i o).kept = s.kept := by simp [State.tileTakes]

@[simp] theorem State.kept_dropContext (s : State) (i : Nat) : (s.dropContext i).kept = s.kept := by simp [State.dropContext]

@[simp] theorem State.kept_releaseTiles (s : State) (o : Op) : (s.releaseTiles o).kept = s.kept := by simp [State.releaseTiles]

@[simp] theorem State.kept_tileSettle (s : State) (i : Nat) : (s.tileSettle i).kept = s.kept := by simp [State.tileSettle]

@[simp] theorem State.kept_takeTurn (s : State) (i : Nat) (o : Op) : (s.takeTurn i o).kept = s.kept := by simp [State.takeTurn]

@[simp] theorem State.kept_tileNext (s : State) (i : Nat) : (s.tileNext i).kept = s.kept := by
  simp only [State.tileNext]
  (repeat' split) <;> simp

/-! Functions of Machine/FabOps.lean. -/

@[simp] theorem State.kept_setFport (s : State) (p : Nat) (x : FabPort) : (s.setFport p x).kept = s.kept := by simp [State.setFport]

@[simp] theorem State.kept_fabLink (s : State) (half : Option Nat) (p dest n : Nat) : (s.fabLink half p dest n).kept = s.kept := by
  simp [State.fabLink]

@[simp] theorem State.kept_setTx (s : State) (node chan : Nat) (x : TxStream) : (s.setTx node chan x).kept = s.kept := by simp [State.setTx]

@[simp] theorem State.kept_refreshHeld (s : State) : (s.refreshHeld).kept = s.kept := by simp [State.refreshHeld]

@[simp] theorem State.kept_emitFrames (s : State) (outs : List Out) : (s.emitFrames outs).kept = s.kept := by
  unfold State.emitFrames
  exact State.kept_foldl (fun t o => by split <;> simp) _ _

@[simp] theorem State.kept_pumpStream (s : State) (node chan : Nat) : (s.pumpStream node chan).kept = s.kept := by simp [State.pumpStream]

@[simp] theorem State.kept_advanceTx (s : State) (node chan seq : Nat) : (s.advanceTx node chan seq).kept = s.kept := by simp [State.advanceTx]

@[simp] theorem State.kept_resend (s : State) (node chan : Nat) : (s.resend node chan).kept = s.kept := by simp [State.resend]

@[simp] theorem State.kept_grant (s : State) (m : FabMsg) : (s.grant m).kept = s.kept := by simp [State.grant]

@[simp] theorem State.kept_cancelQueued (s : State) (owner : Nat × Nat × Nat) : (s.cancelQueued owner).kept = s.kept := by simp [State.cancelQueued]

@[simp] theorem State.kept_forgetRequests (s : State) (owner : Nat × Nat × Nat) : (s.forgetRequests owner).kept = s.kept := by
  simp [State.forgetRequests]

/-! Functions of Machine/Folios.lean. -/

@[simp] theorem State.kept_showQuery (s : State) (half : Nat) : (s.showQuery half).kept = s.kept := by simp [State.showQuery]

@[simp] theorem State.kept_setFolio (s : State) (f : Nat) (x : Folio) : (s.setFolio f x).kept = s.kept := by simp [State.setFolio]

@[simp] theorem State.kept_refreshFol (s : State) (half : Nat) : (s.refreshFol half).kept = s.kept := by simp [State.refreshFol]

@[simp] theorem State.kept_pushSlot (s : State) (p k : Nat) : (s.pushSlot p k).kept = s.kept := by simp [State.pushSlot]

@[simp] theorem State.kept_freeEntry (s : State) (e : Nat) : (s.freeEntry e).kept = s.kept := by simp [State.freeEntry]

@[simp] theorem State.kept_closeFolio (s : State) (f : Nat) : (s.closeFolio f).kept = s.kept := by simp [State.closeFolio]

@[simp] theorem State.kept_holdOp (s : State) (o : Op) : (s.holdOp o).kept = s.kept := by simp [State.holdOp]

@[simp] theorem State.kept_folioOpen (s : State) (o : Op) : (s.folioOpen o).kept = s.kept := by simp [State.folioOpen]

@[simp] theorem State.kept_folioClose (s : State) (o : Op) : (s.folioClose o).kept = s.kept := by simp [State.folioClose]

@[simp] theorem State.kept_folioLink (s : State) (o : Op) : (s.folioLink o).kept = s.kept := by simp [State.folioLink]

@[simp] theorem State.kept_folQuery (s : State) (half value : Nat) : (s.folQuery half value).kept = s.kept := by simp [State.folQuery]

/-! Functions of Machine/Collectives.lean. -/

@[simp] theorem State.kept_setStep (s : State) (st : CollStep) : (s.setStep st).kept = s.kept := by simp [State.setStep]

@[simp] theorem State.kept_refreshEarly (s : State) : (s.refreshEarly).kept = s.kept := by simp [State.refreshEarly]

@[simp] theorem State.kept_dropStep (s : State) (st : CollStep) : (s.dropStep st).kept = s.kept := by simp [State.dropStep]

@[simp] theorem State.kept_countOutcome (s : State) (st : CollStep) (j : CollJob) (code : Nat) (overflow excluded : Bool) :
    (s.countOutcome st j code overflow excluded).kept = s.kept := by simp [State.countOutcome]

@[simp] theorem State.kept_endStep (s : State) (st : CollStep) (f : Fail) (detail : Nat) : (s.endStep st f detail).kept = s.kept := by
  unfold State.endStep
  split <;> simp

@[simp] theorem State.kept_collHold (s : State) (m : CollMsg) (rf at_ : Nat) : (s.collHold m rf at_).kept = s.kept := by simp [State.collHold]

@[simp] theorem State.kept_collConflict (s : State) (half : Nat) : (s.collConflict half).kept = s.kept := by simp [State.collConflict]

@[simp] theorem State.kept_collRepeat (s : State) (st : CollStep) (mint : Bool) : (s.collRepeat st mint).kept = s.kept := by simp [State.collRepeat]

/-! Functions of Machine/StepOps.lean. -/

@[simp] theorem State.kept_setK (s : State) (k : Int) : (s.setK k).kept = s.kept := by simp [State.setK]

@[simp] theorem State.kept_refreshDirty (s : State) : (s.refreshDirty).kept = s.kept := by simp [State.refreshDirty]

@[simp] theorem State.kept_setGrans (s : State) (l : List (Nat × Granule)) : (s.setGrans l).kept = s.kept := by simp [State.setGrans]

@[simp] theorem State.kept_markDirty (s : State) (xs : List Operand) : (s.markDirty xs).kept = s.kept := by simp [State.markDirty]

@[simp] theorem State.kept_setMirror (s : State) (m : MirrorRun) : (s.setMirror m).kept = s.kept := by simp [State.setMirror]

@[simp] theorem State.kept_dropMirror (s : State) (owner : Nat × Nat × Nat) : (s.dropMirror owner).kept = s.kept := by simp [State.dropMirror]

@[simp] theorem State.kept_mirrorEnd (s : State) (o : Op) (m : MirrorRun) : (s.mirrorEnd o m).kept = s.kept := by
  unfold State.mirrorEnd
  split <;> simp

@[simp] theorem State.kept_refreshLedger (s : State) : (s.refreshLedger).kept = s.kept := by simp [State.refreshLedger]

@[simp] theorem State.kept_commitOp (s : State) (o : Op) : (s.commitOp o).kept = s.kept := by
  simp only [State.commitOp]
  (repeat' split) <;> simp

/-! Functions of Machine/Fabric.lean. -/

@[simp] theorem State.kept_sendFrame (s : State) (p kind a b : Nat) : (s.sendFrame p kind a b).kept = s.kept := by simp [State.sendFrame]

@[simp] theorem State.kept_pumpPort (s : State) (p : Nat) : (s.pumpPort p).kept = s.kept := by simp [State.pumpPort]

@[simp] theorem State.kept_setRx (s : State) (node chan : Nat) (x : RxStream) : (s.setRx node chan x).kept = s.kept := by simp [State.setRx]

@[simp] theorem State.kept_sendAck (s : State) (p node chan : Nat) : (s.sendAck p node chan).kept = s.kept := by simp [State.sendAck]

@[simp] theorem State.kept_sendNack (s : State) (p node chan seq : Nat) : (s.sendNack p node chan seq).kept = s.kept := by simp [State.sendNack]

@[simp] theorem State.kept_dropSession (s : State) (node : Nat) : (s.dropSession node).kept = s.kept := by simp [State.dropSession]

@[simp] theorem State.kept_setPaused (s : State) (p prio : Nat) (b : Bool) : (s.setPaused p prio b).kept = s.kept := by simp [State.setPaused]

@[simp] theorem State.kept_lateResponse (s : State) : (s.lateResponse).kept = s.kept := by simp [State.lateResponse]

@[simp] theorem State.kept_setSynced (s : State) (b : Bool) : (s.setSynced b).kept = s.kept := by simp [State.setSynced]

@[simp] theorem State.kept_syncOffset (s : State) (offset : Int) : (s.syncOffset offset).kept = s.kept := by simp [State.syncOffset]

/-! Functions of Machine/Boot.lean. -/

@[simp] theorem State.kept_supplyReset (s : State) : (s.supplyReset).kept = s.kept := by simp [State.supplyReset]

@[simp] theorem State.kept_clearRails (s : State) : (s.clearRails).kept = s.kept := by simp [State.clearRails]

@[simp] theorem State.kept_readOtp (s : State) : (s.readOtp).kept = s.kept := by simp [State.readOtp]

@[simp] theorem State.kept_loadPart (s : State) : (s.loadPart).kept = s.kept := by simp [State.loadPart]

@[simp] theorem State.kept_loadDefaults (s : State) : (s.loadDefaults).kept = s.kept := by simp [State.loadDefaults]

@[simp] theorem State.kept_applyRepairs (s : State) : (s.applyRepairs).kept = s.kept := by simp [State.applyRepairs]

@[simp] theorem State.kept_stageRail (s : State) (n : Nat) (r : RailRecord) : (s.stageRail n r).kept = s.kept := by simp [State.stageRail]

@[simp] theorem State.kept_stageThermal (s : State) (l : Option (List Byte)) : (s.stageThermal l).kept = s.kept := by simp [State.stageThermal]

@[simp] theorem State.kept_stageTable (s : State) (b : Option (List Byte)) : (s.stageTable b).kept = s.kept := by
  simp only [State.stageTable, State.kept_stageThermal]
  exact State.kept_foldl (fun t n => by split <;> simp) _ _

@[simp] theorem State.kept_railsFault (s : State) : (s.railsFault).kept = s.kept := by simp [State.railsFault]

@[simp] theorem State.kept_bootPower (s : State) : (s.bootPower).kept = s.kept := by simp [State.bootPower]

@[simp] theorem State.kept_hookFailed (s : State) (h : Nat) (cause : HookCause) : (s.hookFailed h cause).kept = s.kept := by simp [State.hookFailed]

@[simp] theorem State.kept_readSfdp (s : State) (sel : Nat) (f : FlashCheck) : (s.readSfdp sel f).kept = s.kept := by
  simp only [State.readSfdp]
  split
  · simp
  · rw [State.kept_foldl (fun t o => by simp), State.kept_emit]

@[simp] theorem State.kept_probeFlash (s : State) (f : FlashCheck) (dly div : Nat) : (s.probeFlash f dly div).kept = s.kept := by
  simp [State.probeFlash]

@[simp] theorem State.kept_linkDown (s : State) : (s.linkDown).kept = s.kept := by simp [State.linkDown]

@[simp] theorem State.kept_newSession (s : State) : (s.newSession).kept = s.kept := by simp [State.newSession]

@[simp] theorem State.kept_enableTiles (s : State) : (s.enableTiles).kept = s.kept := by simp [State.enableTiles]

/-! Functions of Machine/Rings.lean. -/

@[simp] theorem State.kept_doorbell (s : State) (u t : Nat) : (s.doorbell u t).kept = s.kept := by simp [State.doorbell]

@[simp] theorem State.kept_stopRing (s : State) (u : Nat) : (s.stopRing u).kept = s.kept := by simp [State.stopRing]

@[simp] theorem State.kept_resetRing (s : State) (u : Nat) : (s.resetRing u).kept = s.kept := by simp [State.resetRing]

@[simp] theorem State.kept_forgetWork (s : State) (o : Op) : (s.forgetWork o).kept = s.kept := by simp [State.forgetWork]

@[simp] theorem State.kept_tallyWrite (s : State) (fn idx size value : Nat) : (s.tallyWrite fn idx size value).kept = s.kept := by
  simp [State.tallyWrite]

/-! Functions of Machine/Firmware.lean. -/

@[simp] theorem State.kept_endSession (s : State) (next : Nat) : (s.endSession next).kept = s.kept := by simp [State.endSession]

@[simp] theorem State.kept_bootCmdEnd (s : State) (code check : Nat) : (s.bootCmdEnd code check).kept = s.kept := by simp [State.bootCmdEnd]

@[simp] theorem State.kept_loadFailed (s : State) (code check : Nat) : (s.loadFailed code check).kept = s.kept := by simp [State.loadFailed]

@[simp] theorem State.kept_bootLoad (s : State) : (s.bootLoad).kept = s.kept := by simp [State.bootLoad]

@[simp] theorem State.kept_answerHalted (s : State) : (s.answerHalted).kept = s.kept := by
  unfold State.answerHalted
  dsimp only
  generalize ht : List.foldl _ _ _ = t
  have h : t.kept = s.kept := by
    rw [← ht]
    exact State.kept_foldl (fun t q => by split <;> simp) _ _
  rw [← h]
  simp only [State.kept, Option.map_map]
  rfl

@[simp] theorem State.kept_placeSection (s : State) (n : Nat) (body : List Byte) : (s.placeSection n body).kept = s.kept := by
  simp [State.placeSection]

@[simp] theorem State.kept_romLoop (s : State) : (s.romLoop).kept = s.kept := by simp [State.romLoop]

@[simp] theorem State.kept_unloadClerks (s : State) : (s.unloadClerks).kept = s.kept := by
  simp only [State.unloadClerks]
  (repeat' split) <;> simp

/-! Functions of Machine/Accounts.lean. -/

@[simp] theorem State.kept_bar2Refused (s : State) (a off code : Nat) : (s.bar2Refused a off code).kept = s.kept := by simp [State.bar2Refused]

@[simp] theorem State.kept_acctRulesReply (s : State) (w : PostWait) : (s.acctRulesReply w).kept = s.kept := by simp [State.acctRulesReply]

@[simp] theorem State.kept_drainReply (s : State) (a : Nat) : (s.drainReply a).kept = s.kept := by simp [State.drainReply]

@[simp] theorem State.kept_resetMbx (s : State) (a : Nat) : (s.resetMbx a).kept = s.kept := by simp [State.resetMbx]

@[simp] theorem State.kept_resetRings (s : State) (a : Nat) : (s.resetRings a).kept = s.kept := by simp [State.resetRings]

@[simp] theorem State.kept_resetMsix (s : State) (a : Nat) : (s.resetMsix a).kept = s.kept := by simp [State.resetMsix]

@[simp] theorem State.kept_finishFlr (s : State) (a : Nat) : (s.finishFlr a).kept = s.kept := by simp [State.finishFlr]

@[simp] theorem State.kept_disturb (s : State) : (s.disturb).kept = s.kept := by simp [State.disturb]

@[simp] theorem State.kept_stageFlr (s : State) : (s.stageFlr).kept = s.kept := by simp [State.stageFlr]

@[simp] theorem State.kept_resetConfig (s : State) : (s.resetConfig).kept = s.kept := by simp [State.resetConfig]

@[simp] theorem State.kept_msixUnmask (s : State) (fn v : Nat) (masked enable : Bool) : (s.msixUnmask fn v masked enable).kept = s.kept := by
  simp [State.msixUnmask]

/-! Functions of Machine/OtpReq.lean. -/

@[simp] theorem State.kept_lcRefused (s : State) (p : List Byte) : (s.lcRefused p).kept = s.kept := by
  unfold State.lcRefused
  split <;> simp

/-! Functions of Machine/Posting.lean. -/

@[simp] theorem State.kept_promoteReply (s : State) (w : PostWait) : (s.promoteReply w).kept = s.kept := by simp [State.promoteReply]

@[simp] theorem State.kept_discardFree (s : State) (pg : Nat) : (s.discardFree pg).kept = s.kept := by simp [State.discardFree]

@[simp] theorem State.kept_postReply (s : State) (n : Nat) : (s.postReply n).kept = s.kept := by simp [State.postReply]

@[simp] theorem State.kept_postEnd (s : State) (n st code reason page : Nat) : (s.postEnd n st code reason page).kept = s.kept := by
  simp [State.postEnd]

@[simp] theorem State.kept_startAction (s : State) (n action mask token : Nat) : (s.startAction n action mask token).kept = s.kept := by
  simp [State.startAction]

@[simp] theorem State.kept_post (s : State) (q : Req) (n action mask token : Nat) : (s.post q n action mask token).kept = s.kept := by
  simp [State.post]

@[simp] theorem State.kept_cancel (s : State) (n mask token : Nat) : (s.cancel n mask token).kept = s.kept := by simp [State.cancel]

@[simp] theorem State.kept_checked (s : State) (n : Nat) : (s.checked n).kept = s.kept := by
  simp only [State.checked]
  (repeat' split) <;> simp

@[simp] theorem State.kept_startRechecks (s : State) (n : Nat) : (s.startRechecks n).kept = s.kept := by simp [State.startRechecks]

@[simp] theorem State.kept_rechecked (s : State) (n : Nat) (inTime : Bool) : (s.rechecked n inTime).kept = s.kept := by
  simp only [State.rechecked]
  (repeat' split) <;> simp

/-! Functions of Machine/Mailbox.lean. -/

@[simp] theorem State.kept_speak (s : State) (a p : Nat) (f : Fetch) : (s.speak a p f).kept = s.kept := by
  unfold State.speak
  split <;> simp

@[simp] theorem State.kept_refuseRequest (s : State) (a p typ code : Nat) (wr : DmaEnd) : (s.refuseRequest a p typ code wr).kept = s.kept := by
  simp [State.refuseRequest]

@[simp] theorem State.kept_mbxFailed (s : State) (a p : Nat) (f : Fetch) (wr : DmaEnd) : (s.mbxFailed a p f wr).kept = s.kept := by
  unfold State.mbxFailed
  split <;> simp

@[simp] theorem State.kept_respond (s : State) (a p : Nat) (m : Jz) (code : Nat) (payload : List Byte) (wr : DmaEnd) :
    (s.respond a p m code payload wr).kept = s.kept := by simp [State.respond]

@[simp] theorem State.kept_welcome (s : State) (m : Jz) (wr : DmaEnd) : (s.welcome m wr).kept = s.kept := by simp [State.welcome]

@[simp] theorem State.kept_refuseHello (s : State) (wr : DmaEnd) : (s.refuseHello wr).kept = s.kept := by simp [State.refuseHello]

@[simp] theorem State.kept_readRequest (s : State) (a p : Nat) (m : Jz) (data : List Byte) (wr : DmaEnd) :
    (s.readRequest a p m data wr).kept = s.kept := by simp [State.readRequest]

@[simp] theorem State.kept_vaultReadReq (s : State) (a p : Nat) (m : Jz) (wr : DmaEnd) : (s.vaultReadReq a p m wr).kept = s.kept := by
  simp [State.vaultReadReq]

/-! Functions of Machine/Admin.lean. -/

@[simp] theorem State.kept_clerkPost (s : State) (q : Req) (n mask : Nat) (timed : Bool) (time : Nat) (w : PostWait) :
    (s.clerkPost q n mask timed time w).kept = s.kept := by simp [State.clerkPost]

@[simp] theorem State.kept_stageRules (s : State) (a : Nat) (rules : List Byte) : (s.stageRules a rules).kept = s.kept := by
  unfold State.stageRules
  exact State.kept_foldl (fun t o => by split <;> simp) _ _

@[simp] theorem State.kept_acctRules (s : State) (a p : Nat) (m : Jz) (wr : DmaEnd) : (s.acctRules a p m wr).kept = s.kept := by
  simp [State.acctRules]

@[simp] theorem State.kept_fabricStatus (s : State) (a p : Nat) (m : Jz) (wr : DmaEnd) : (s.fabricStatus a p m wr).kept = s.kept := by
  simp [State.fabricStatus]

@[simp] theorem State.kept_groupDefine (s : State) (a p : Nat) (m : Jz) (wr : DmaEnd) : (s.groupDefine a p m wr).kept = s.kept := by
  simp [State.groupDefine]

@[simp] theorem State.kept_stagePromotes (s : State) (gs : List Nat) : (s.stagePromotes gs).kept = s.kept := by simp [State.stagePromotes]

@[simp] theorem State.kept_groupPromote (s : State) (a p : Nat) (m : Jz) (wr : DmaEnd) : (s.groupPromote a p m wr).kept = s.kept := by
  simp [State.groupPromote]

@[simp] theorem State.kept_groupRelease (s : State) (a p : Nat) (m : Jz) (wr : DmaEnd) : (s.groupRelease a p m wr).kept = s.kept := by
  simp [State.groupRelease]

@[simp] theorem State.kept_groupQuery (s : State) (a p : Nat) (m : Jz) (wr : DmaEnd) : (s.groupQuery a p m wr).kept = s.kept := by
  simp [State.groupQuery]

/-! Functions of Machine/Serial.lean. -/

@[simp] theorem State.kept_xferStart (s : State) (u : Nat) : (s.xferStart u).kept = s.kept := by simp [State.xferStart]

@[simp] theorem State.kept_beginFetch (s : State) (sel addr : Nat) (demand : Bool) : (s.beginFetch sel addr demand).kept = s.kept := by
  simp [State.beginFetch]

@[simp] theorem State.kept_beginXfer (s : State) (u : Nat) : (s.beginXfer u).kept = s.kept := by simp [State.beginXfer]

@[simp] theorem State.kept_portGrant (s : State) (u : Nat) : (s.portGrant u).kept = s.kept := by
  simp only [State.portGrant]
  (repeat' split) <;> simp

@[simp] theorem State.kept_portFree (s : State) (u : Nat) : (s.portFree u).kept = s.kept := by simp [State.portFree]

@[simp] theorem State.kept_xferDone (s : State) (u : Nat) (rx : List Byte) : (s.xferDone u rx).kept = s.kept := by
  unfold State.xferDone
  split <;> simp

@[simp] theorem State.kept_prefetchNext (s : State) (sel line : Nat) : (s.prefetchNext sel line).kept = s.kept := by simp [State.prefetchNext]

@[simp] theorem State.kept_xipLine (s : State) (sel line o n : Nat) : (s.xipLine sel line o n).kept = s.kept := by
  simp only [State.xipLine]
  (repeat' split) <;> simp

@[simp] theorem State.kept_xipRead (s : State) (sel off n : Nat) (write : Bool) : (s.xipRead sel off n write).kept = s.kept := by
  simp [State.xipRead]

@[simp] theorem State.kept_xipFetchDone (s : State) (bytes : List Byte) : (s.xipFetchDone bytes).kept = s.kept := by
  unfold State.xipFetchDone
  split <;> simp

@[simp] theorem State.kept_pushDue (s : State) : (s.pushDue).kept = s.kept := by simp [State.pushDue]

@[simp] theorem State.kept_slaveTakes (s : State) (w : Word) : (s.slaveTakes w).kept = s.kept := by simp [State.slaveTakes]

@[simp] theorem State.kept_slaveWord (s : State) (w : Word) : (s.slaveWord w).kept = s.kept := by
  unfold State.slaveWord
  split <;> simp

/-! Functions of Machine/Bmc.lean. -/

@[simp] theorem State.kept_bmcRead (s : State) : (s.bmcRead).kept = s.kept := by simp [State.bmcRead]

@[simp] theorem State.kept_bmcSend (s : State) (l : List Word) : (s.bmcSend l).kept = s.kept := by simp [State.bmcSend]

@[simp] theorem State.kept_bmcReply (s : State) (f : Frame) (code : Nat) (payload : List Word) : (s.bmcReply f code payload).kept = s.kept := by
  simp [State.bmcReply]

@[simp] theorem State.kept_flashXfer (s : State) (sel cmd addrLen addr : Nat) (read : Bool) (len : Nat) (sent : List Byte) :
    (s.flashXfer sel cmd addrLen addr read len sent).kept = s.kept := by simp [State.flashXfer]

@[simp] theorem State.kept_flashReadPart (s : State) (sel addr n : Nat) : (s.flashReadPart sel addr n).kept = s.kept := by simp [State.flashReadPart]

@[simp] theorem State.kept_flashChange (s : State) (f : Frame) (sel cmd addr : Nat) (data : List Byte) (polls : Nat) (last : Byte) :
    (s.flashChange f sel cmd addr data polls last).kept = s.kept := by simp [State.flashChange]

@[simp] theorem State.kept_bmcLcEnd (s : State) (code : Nat) : (s.bmcLcEnd code).kept = s.kept := by
  unfold State.bmcLcEnd
  split <;> simp

/-! Functions of Machine/Clerks.lean. -/

@[simp] theorem State.kept_decideRestart (s : State) (n : Nat) : (s.decideRestart n).kept = s.kept := by simp [State.decideRestart]

@[simp] theorem State.kept_reloadSection (s : State) (n : Nat) : (s.reloadSection n).kept = s.kept := by simp [State.reloadSection]

/-! Functions of Machine/Clock.lean. -/

@[simp] theorem State.kept_refMeasured (s : State) (khz : Nat) : (s.refMeasured khz).kept = s.kept := by simp [State.refMeasured]

@[simp] theorem State.kept_dlkBoth (s : State) (f : Nat → Fld) (b : Bool) : (s.dlkBoth f b).kept = s.kept := by simp [State.dlkBoth]

@[simp] theorem State.kept_dlkRetrain (s : State) : (s.dlkRetrain).kept = s.kept := by
  cases s; rfl

/-! Functions of Machine/Rails.lean. -/

@[simp] theorem State.kept_railSet (s : State) (n mv : Nat) : (s.railSet n mv).kept = s.kept := by simp [State.railSet]

@[simp] theorem State.kept_romSetPoints (old s : State) : (old.romSetPoints s).kept = s.kept := by
  unfold State.romSetPoints
  split
  · rfl
  · exact State.kept_foldl (fun t j => by (repeat' split) <;> simp) _ _

@[simp] theorem State.kept_pmbResult (s : State) (r : PmbResult) (full : Bool) : (s.pmbResult r full).kept = s.kept := by
  simp only [State.pmbResult]
  (repeat' split) <;> simp

/-! Functions of Machine/RegOps.lean. -/

@[simp] theorem State.kept_abortPending (s : State) (u : Nat) : (s.abortPending u).kept = s.kept := by simp [State.abortPending]

@[simp] theorem State.kept_ringRegWrite (s : State) (q : Req) (u key : Nat) (v : DWord) : (s.ringRegWrite q u key v).kept = s.kept := by
  unfold State.ringRegWrite
  split <;> simp

/-- A write by a port's owner leaves what the owner's part leaves. -/
@[simp] theorem State.kept_ownerWrite (s : State) (u : Nat) (q : Req) {run : State → State} (h : (run s).kept = s.kept) :
    (s.ownerWrite u q run).kept = s.kept := by
  unfold State.ownerWrite
  (repeat' split) <;> simp [h]

@[simp] theorem State.kept_liveWrite (s : State) (q : Req) (k : PageKind) (inst key : Nat) (v : DWord) :
    (s.liveWrite q k inst key v).kept = s.kept := by
  unfold State.liveWrite
  dsimp only
  split
  · simp
  split
  · (repeat' split) <;> simp
  · cases k <;> dsimp only <;> (repeat' split) <;> simp

@[simp] theorem State.kept_stagedOffset (s : State) (q : Req) (k : PageKind) (inst off n v : Nat) :
    (s.stagedOffset q k inst off n v).kept = s.kept := by
  unfold State.stagedOffset
  split <;> simp

@[simp] theorem State.kept_readHigh (s : State) (fn off : Nat) : (s.readHigh fn off).kept = s.kept := by
  simp only [State.readHigh]
  (repeat' split) <;> simp

@[simp] theorem State.kept_readBeyond (s : State) (fn off : Nat) : (s.readBeyond fn off).kept = s.kept := by simp [State.readBeyond]

@[simp] theorem State.kept_readVmain (s : State) (off : Nat) : (s.readVmain off).kept = s.kept := by simp [State.readVmain]

@[simp] theorem State.kept_lastingEvents (s : State) (pg : Nat) : (s.lastingEvents pg).kept = s.kept := by
  unfold State.lastingEvents
  split <;> simp

@[simp] theorem State.kept_resetRegs (s : State) (k : PageKind) (pg : Nat) : (s.resetRegs k pg).kept = s.kept := by simp [State.resetRegs]

@[simp] theorem State.kept_otpRead (s : State) (row : Nat) : (s.otpRead row).kept = s.kept := by simp [State.otpRead]

/-! Functions of Machine/Thermal.lean. -/

@[simp] theorem State.kept_setSensor (s : State) (i : Nat) (x : Sensor) : (s.setSensor i x).kept = s.kept := by simp [State.setSensor]

@[simp] theorem State.kept_showSensor (s : State) (i v : Nat) : (s.showSensor i v).kept = s.kept := by simp [State.showSensor]

@[simp] theorem State.kept_faultSensor (s : State) (i : Nat) : (s.faultSensor i).kept = s.kept := by simp [State.faultSensor]

@[simp] theorem State.kept_sampleSensor (s : State) (i : Nat) (x : Int) : (s.sampleSensor i x).kept = s.kept := by simp [State.sampleSensor]

@[simp] theorem State.kept_refreshCurrent (s : State) : (s.refreshCurrent).kept = s.kept := by simp [State.refreshCurrent]

@[simp] theorem State.kept_gate (s : State) (m : Nat) : (s.gate m).kept = s.kept := by simp [State.gate]

@[simp] theorem State.kept_setOpVolts (s : State) (k : Nat) : (s.setOpVolts k).kept = s.kept := by
  unfold State.setOpVolts
  exact State.kept_foldl (fun t o => by split <;> simp) _ _

@[simp] theorem State.kept_enterLevel (s : State) (l : Nat) : (s.enterLevel l).kept = s.kept := by simp [State.enterLevel]

@[simp] theorem State.kept_raiseStep (s : State) (l waited : Nat) : (s.raiseStep l waited).kept = s.kept := by simp [State.raiseStep]

@[simp] theorem State.kept_changeLevel (s : State) (l : Nat) : (s.changeLevel l).kept = s.kept := by simp [State.changeLevel]

@[simp] theorem State.kept_setCap (s : State) (k c : Nat) : (s.setCap k c).kept = s.kept := by simp [State.setCap]

@[simp] theorem State.kept_hbmLoop (s : State) (k : Nat) : (s.hbmLoop k).kept = s.kept := by
  unfold State.hbmLoop
  split <;> simp

@[simp] theorem State.kept_pwrCycle (s : State) (late stale : Bool) : (s.pwrCycle late stale).kept = s.kept := by
  unfold State.pwrCycle
  extract_lets _ woken taken _ _ sampled avg shown counted lated d l _ cool limited raised
  have htaken : taken.kept = s.kept := by
    simp only [taken, woken]
    split <;> simp
  have hlated : lated.kept = s.kept := by
    simp only [lated, counted, shown, sampled]
    split <;> simp [htaken]
  have hlimited : limited.kept = s.kept := by
    simp only [limited, cool]
    (repeat' split) <;> simp [hlated]
  have hraised : raised.kept = s.kept := by
    simp only [raised]
    (repeat' split) <;> simp [hlimited]
  simp [hraised]

@[simp] theorem State.kept_romCycle (s : State) : (s.romCycle).kept = s.kept := by simp [State.romCycle]

/-! Functions of Machine/Vault.lean. -/

@[simp] theorem State.kept_vmain (s : State) (v : Nat) : (s.vmain v).kept = s.kept := by simp [State.vmain]

@[simp] theorem State.kept_dropTest (s : State) : (s.dropTest).kept = s.kept := by simp [State.dropTest]

@[simp] theorem State.kept_startTest (s : State) : (s.startTest).kept = s.kept := by simp [State.startTest]

@[simp] theorem State.kept_retryTest (s : State) : (s.retryTest).kept = s.kept := by simp [State.retryTest]

@[simp] theorem State.kept_toHold (s : State) : (s.toHold).kept = s.kept := by simp [State.toHold]

@[simp] theorem State.kept_dueTest (s : State) : (s.dueTest).kept = s.kept := by simp [State.dueTest]

end Sys2Proof.Machine
end
section
/-!
SUPPORT. The functions that write a memory of the kept parts, program fuses, set global time or start a SESSION, and the meanings of the
commands, in the order of the model's files. `h` says what holds of the state before; each lemma carries it over its function.
-/
namespace Sys2Proof.Machine
variable {χ : Change} {κ : Kept} {s : State}

/-! Functions of Machine/Otp.lean. -/

@[simp] theorem State.keeps_burn (h : Keeps .fuses κ s.kept) (p w : Nat) (b : Burn) : Keeps .fuses κ (s.burn p w b).kept := by
  refine h.trans ?_
  simp only [State.burn, State.kept_countWrap]
  refine ⟨fun q => ?_, fun hc => absurd rfl hc, fun _ _ => rfl, fun _ _ => rfl, rfl, rfl, id⟩
  simp only [State.kept, tblGet_set, State.fuseRow]
  split
  · rename_i hq
    rw [hq]
    ext i
    simp
    tauto
  · exact BitVec.and_self

@[simp] theorem State.keeps_voidEntry (h : Keeps .fuses κ s.kept) (x : Option Nat) : Keeps .fuses κ (s.voidEntry x).kept := by
  unfold State.voidEntry
  split <;> simp [h]

@[simp] theorem State.keeps_retireRow (h : Keeps .fuses κ s.kept) (fuel lr w : Nat) (bs : List Burn) (extra : Nat) :
    Keeps .fuses κ (retireRow fuel s lr w bs extra).st.kept := by
  induction fuel generalizing s bs extra with
  | zero => simp [retireRow, h]
  | succ fuel ih =>
    unfold retireRow
    dsimp only
    split
    · simp [h]
    have hspare (p : Nat) (b : Burn) : Keeps .fuses κ (s.burn p w b).kept := by simp [h]
    split
    · simp [h]
    split
    · exact ih (hspare _ _) _ _
    split
    · simp [hspare]
    split
    · exact ih (by simp [hspare]) _ _
    · simp [hspare]

@[simp] theorem State.keeps_retire (h : Keeps .fuses κ s.kept) (lr w : Nat) (bs : List Burn) (extra : Nat) :
    Keeps .fuses κ (s.retire lr w bs extra).st.kept := by
  simp only [State.retire]
  split <;> simp [h]

@[simp] theorem State.keeps_programRow_go (h : Keeps .fuses κ s.kept) (lr : Nat) (bs : List Burn) (w p old : Nat) :
    Keeps .fuses κ (State.programRow.go s lr bs w p old).st.kept := by
  simp only [State.programRow.go]
  (repeat' split) <;> simp [h]

@[simp] theorem State.keeps_programRow (h : Keeps .fuses κ s.kept) (lr d : Nat) (bs : List Burn) :
    Keeps .fuses κ (s.programRow lr d bs).st.kept := by
  simp only [State.programRow]
  (repeat' split) <;> simp [h]

@[simp] theorem Programmed.keeps_done {r : Programmed} (h : Keeps χ κ r.st.kept) (row : Nat) : Keeps χ κ (r.done row).st.kept := by
  simp [Programmed.done, h]

/-! Functions of Machine/VaultOps.lean. -/

@[simp] theorem State.keeps_vaultWrite (h : Keeps χ κ s.kept) (off : Nat) (bs : List Byte) : Keeps χ κ (s.vaultWrite off bs).kept := by
  rw [State.vaultWrite, State.kept_update_sram]
  exact h.with_sram (Memory.wf_store bs s.vault.sram off)

@[simp] theorem State.keeps_emptyHeader (h : Keeps χ κ s.kept) (r : VaultRegion) : Keeps χ κ (s.emptyHeader r).kept := by simp [State.emptyHeader, h]

@[simp] theorem State.keeps_setPtr (h : Keeps χ κ s.kept) (r : VaultRegion) (o v : Nat) : Keeps χ κ (s.setPtr r o v).kept := by
  simp [State.setPtr, h]

@[simp] theorem State.keeps_zeroAreas (h : Keeps χ κ s.kept) : Keeps χ κ s.zeroAreas.kept := by
  refine Keeps.foldl (fun t a => State.keeps_emptyHeader ?_ _) h _
  rw [State.kept_update_sram]
  exact Keeps.refl.with_sram (Memory.wf_zero t.vault.sram _ _)

@[simp] theorem State.keeps_resetHeader (h : Keeps χ κ s.kept) (r : VaultRegion) : Keeps χ κ (s.resetHeader r).kept := by simp [State.resetHeader, h]

@[simp] theorem State.keeps_readyHeader (h : Keeps χ κ s.kept) (r : VaultRegion) : Keeps χ κ (s.readyHeader r).kept := by simp [State.readyHeader, h]

@[simp] theorem State.keeps_ringAppend (h : Keeps χ κ s.kept) (r : VaultRegion) (entry : Nat → List Byte) :
    Keeps χ κ (s.ringAppend r entry).kept := by
  unfold State.ringAppend
  extract_lets ready head full next moved written pointed
  have hmoved : Keeps χ κ moved.kept := by
    simp only [moved, ready]
    split <;> simp [h]
  have hpointed : Keeps χ κ pointed.kept := by
    simp only [pointed, written]
    simp [hmoved]
  split <;> simp [hpointed]

@[simp] theorem State.keeps_history (h : Keeps χ κ s.kept) (kind channel cause reaction cut retry arg0 arg1 : Nat) :
    Keeps χ κ (s.history kind channel cause reaction cut retry arg0 arg1).kept := by simp [State.history, h]

@[simp] theorem State.keeps_startStore (h : Keeps χ κ s.kept) (source : Nat) (waiters : List StoreWaiter) :
    Keeps χ κ (s.startStore source waiters).kept := by
  have hsnapshot : ∀ t : State, Keeps χ κ t.kept → Keeps χ κ { t.kept with snapshot := some t.vault.sram } := fun t ht =>
    ht.trans (.of_memories rfl fun ⟨hmem, hsram, hshadow, _⟩ => ⟨hmem, hsram, hshadow, fun m hm => by cases hm; exact hsram⟩)
  simp only [State.startStore, State.kept_refreshArmed, State.kept_raise, State.kept_wrb]
  exact hsnapshot _ (State.keeps_history h _ _ _ _ _ _ _ _)

@[simp] theorem State.keeps_requestStore (h : Keeps χ κ s.kept) (source : Nat) (w : List StoreWaiter) :
    Keeps χ κ (s.requestStore source w).1.kept := by
  simp only [State.requestStore]
  (repeat' split) <;> simp [h]

@[simp] theorem State.keeps_finishStore (h : Keeps χ κ s.kept) (durationUs : Nat) : Keeps χ κ (s.finishStore durationUs).kept := by
  unfold State.finishStore
  split
  · exact h
  rename_i r hr
  extract_lets auto source _ ended counted info raised n worn status vault resupplied
  have hended : Keeps χ κ ended.kept := by
    refine h.trans (.of_memories rfl fun ⟨hmem, hsram, _, hsnapshot⟩ => ⟨hmem, hsram, hsnapshot _ ?_, fun m hm => nomatch hm⟩)
    show r.snapshot ∈ s.vault.run.map (·.snapshot)
    rw [hr]
    rfl
  have hworn : Keeps χ κ worn.kept := by
    simp only [worn, raised, info, counted]
    (repeat' split) <;> simp [hended]
  have hstatus : Keeps χ κ status.kept := by simp [status, hworn]
  have hresupplied : Keeps χ κ resupplied.kept := by
    simp only [resupplied, vault]
    split <;> simp [hstatus]
  split
  · exact State.keeps_history (by simp only [State.kept_raise, State.kept_count, hresupplied]) _ _ _ _ _ _ _ _
  · exact hresupplied

/-! Functions of Machine/ClerkOps.lean. -/

@[simp] theorem State.keeps_writeDump (h : Keeps χ κ s.kept) (n : Nat) : Keeps χ κ (s.writeDump n).kept := by
  have hbody (r : VaultRegion) (o : Nat) (bs : List Byte) : Keeps χ κ ((s.readyHeader r).vaultWrite o bs).kept := by simp [h]
  simp [State.writeDump, hbody]

/-! Functions of Machine/RailOps.lean. -/

@[simp] theorem State.keeps_powerDown (h : Keeps χ κ s.kept) (mask : Nat) : Keeps χ κ (s.powerDown mask).kept := by simp [State.powerDown, h]

@[simp] theorem State.keeps_supPowerDown (h : Keeps χ κ s.kept) : Keeps χ κ (s.supPowerDown).kept := by simp [State.supPowerDown, h]

@[simp] theorem State.keeps_downFault (h : Keeps χ κ s.kept) (n cause : Nat) : Keeps χ κ (s.downFault n cause).kept := by simp [State.downFault, h]

@[simp] theorem State.keeps_recordCut (h : Keeps χ κ s.kept) (f : Nat × Nat) : Keeps χ κ (s.recordCut f).kept := by simp [State.recordCut, h]

@[simp] theorem State.keeps_react (h : Keeps χ κ s.kept) (faults : List (Nat × Nat)) : Keeps χ κ (s.react faults).kept := by
  unfold State.react
  extract_lets r
  split
  · exact Keeps.foldl (fun t f => by dsimp only; split <;> simp) h _
  rename_i prim primMask faultMask cut deps others recorded dropped cutAll logged groups rest off held _
  have hrecorded : Keeps χ κ recorded.kept := Keeps.foldl (fun t f => by simp) (Keeps.foldl (fun t f => by simp) h _) _
  have hdropped : Keeps χ κ dropped.kept := Keeps.foldl (fun t f => by simp) hrecorded _
  have hcut : Keeps χ κ cutAll.kept := Keeps.foldl (fun t m => by split <;> simp) hdropped _
  have hlogged : Keeps χ κ logged.kept := Keeps.foldl (fun t f => by simp) hcut _
  split
  · exact hlogged
  have hheld : Keeps χ κ held.kept := Keeps.foldl (fun t m => by simp) (by simp [off, hlogged]) _
  split <;> simp [hheld]

@[simp] theorem State.keeps_railFaults (h : Keeps χ κ s.kept) (faults : List (Nat × Nat)) : Keeps χ κ (s.railFaults faults).kept := by
  unfold State.railFaults
  extract_lets down up t gone u
  have ht : Keeps χ κ t.kept := Keeps.foldl (fun t f => by simp) h _
  have hu : Keeps χ κ u.kept := by
    simp only [u]
    split <;> simp [ht]
  exact Keeps.foldl (fun t f => by simp) hu _

@[simp] theorem State.keeps_sampleRail (h : Keeps χ κ s.kept) (n raw : Nat) (pg : Bool) : Keeps χ κ (s.sampleRail n raw pg).1.kept := by
  simp only [State.sampleRail]
  (repeat' split) <;> simp [h]

@[simp] theorem State.keeps_sampleRails (h : Keeps χ κ s.kept) (samples : List Nat) (pg : Nat) : Keeps χ κ (s.sampleRails samples pg).kept := by
  simp only [State.sampleRails, State.kept_settleRails]
  exact State.keeps_railFaults (Keeps.foldl_fst (fun a n => by simp) h _) _

@[simp] theorem State.keeps_thermTrip (h : Keeps χ κ s.kept) : Keeps χ κ (s.thermTrip).kept := by simp [State.thermTrip, h]

@[simp] theorem State.keeps_storeCut (h : Keeps χ κ s.kept) : Keeps χ κ (s.storeCut).kept := by simp [State.storeCut, h]

/-! Functions of Machine/MemOps.lean. -/

@[simp] theorem State.keeps_store (h : Keeps χ κ s.kept) (a : Nat) (bs : List Byte) : Keeps χ κ (s.store a bs).kept := by
  rw [State.store, State.kept_update_mem]
  exact h.with_mem (Memory.wf_store bs s.mem a)

@[simp] theorem State.keeps_zeroRange (h : Keeps χ κ s.kept) (a n : Nat) : Keeps χ κ (s.zeroRange a n).kept := by
  rw [State.zeroRange, State.kept_update_mem]
  exact h.with_mem (Memory.wf_zero s.mem a n)

@[simp] theorem State.keeps_writeExtent (h : Keeps χ κ s.kept) (a : Nat) (bs : List Byte) : Keeps χ κ (s.writeExtent a bs).kept := by
  simp [State.writeExtent, h]

/-- A store of some bytes of a line or word. -/
@[simp] theorem State.keeps_storeMasked (h : Keeps χ κ s.kept) (a : Nat) (bs : List Byte) (be : List Bool) :
    Keeps χ κ (State.kept { s with mem := storeMasked s.mem a bs be }) := by
  rw [State.kept_update_mem]
  exact h.with_mem (Memory.wf_storeMasked bs be s.mem a)

@[simp] theorem State.keeps_scribble (h : Keeps χ κ s.kept) (a n : Nat) : Keeps χ κ (s.scribble a n).kept := by
  rw [State.scribble, State.kept_update_mem]
  exact h.with_mem (Memory.wf_storeMasked _ _ s.mem a)

@[simp] theorem State.keeps_makePoison (h : Keeps χ κ s.kept) (a : Nat) : Keeps χ κ (s.makePoison a).kept := by simp [State.makePoison, h]

@[simp] theorem State.keeps_zeroBanks (h : Keeps χ κ s.kept) (half mask : Nat) : Keeps χ κ (s.zeroBanks half mask).kept := by
  simp [State.zeroBanks, h]

@[simp] theorem State.keeps_startWipe (h : Keeps χ κ s.kept) (half mask : Nat) : Keeps χ κ (s.startWipe half mask).kept := by
  simp [State.startWipe, h]

@[simp] theorem State.keeps_startFill (h : Keeps χ κ s.kept) (half mask : Nat) : Keeps χ κ (s.startFill half mask).kept := by
  simp [State.startFill, h]

@[simp] theorem State.keeps_wipeSecure (h : Keeps χ κ s.kept) : Keeps χ κ (s.wipeSecure).kept := by simp [State.wipeSecure, h]

@[simp] theorem State.keeps_bankOn (h : Keeps χ κ s.kept) (half b : Nat) : Keeps χ κ (s.bankOn half b).kept := by simp [State.bankOn, h]

/-! Functions of Machine/Memory.lean. -/

@[simp] theorem State.keeps_decodeLine (h : Keeps χ κ s.kept) (stack a source acct symErr kindBad kindPoison : Nat) :
    Keeps χ κ (s.decodeLine stack a source acct symErr kindBad kindPoison).1.kept := by
  simp only [State.decodeLine]
  (repeat' split) <;> simp [h]

@[simp] theorem State.keeps_hbmRead (h : Keeps χ κ s.kept) (a source acct symErr : Nat) : Keeps χ κ (s.hbmRead a source acct symErr).kept := by
  unfold State.hbmRead
  split <;> simp [h]

@[simp] theorem State.keeps_hbmFullWrite (h : Keeps χ κ s.kept) (a : Nat) (bs : List Byte) : Keeps χ κ (s.hbmFullWrite a bs).kept := by
  unfold State.hbmFullWrite
  split <;> simp [h]

@[simp] theorem State.keeps_hbmPartialWrite (h : Keeps χ κ s.kept) (a source acct symErr : Nat) (bs : List Byte) (be : List Bool) :
    Keeps χ κ (s.hbmPartialWrite a source acct symErr bs be).kept := by
  simp only [State.hbmPartialWrite]
  (repeat' split) <;> simp [h]

@[simp] theorem State.keeps_runHeld (h : Keeps χ κ s.kept) (x : Instr) : Keeps χ κ (s.runHeld x).kept := by
  unfold State.runHeld
  split <;> simp [h]

@[simp] theorem execHbmRead_keeps (addr source acct symErr : Nat) (s : State) : Result.Keeps χ s.kept (execHbmRead addr source acct symErr s) := by
  simp [execHbmRead]

@[simp] theorem execHbmFullWrite_keeps (addr : Nat) (bytes : List Byte) (s : State) : Result.Keeps χ s.kept (execHbmFullWrite addr bytes s) := by
  simp [execHbmFullWrite]

@[simp] theorem execHbmPartialWrite_keeps (addr source acct symErr : Nat) (bytes : List Byte) (be : List Bool) (s : State) :
    Result.Keeps χ s.kept (execHbmPartialWrite addr source acct symErr bytes be s) := by simp [execHbmPartialWrite]

@[simp] theorem execHbmXferRetry_keeps (stack tries : Nat) (s : State) : Result.Keeps χ s.kept (execHbmXferRetry stack tries s) := by
  simp [execHbmXferRetry]

@[simp] theorem State.keeps_releaseHbm (h : Keeps χ κ s.kept) (stack : Nat) : Keeps χ κ (s.releaseHbm stack).kept := by simp [State.releaseHbm, h]

@[simp] theorem execHbmRetrainDone_keeps (stack : Nat) (ok : Bool) (s : State) : Result.Keeps χ s.kept (execHbmRetrainDone stack ok s) := by
  simp [execHbmRetrainDone]

@[simp] theorem execStackFault_keeps (stack : Nat) (s : State) : Result.Keeps χ s.kept (execStackFault stack s) := by simp [execStackFault]

@[simp] theorem execHbmRefresh_keeps (_stack : Nat) (s : State) : Result.Keeps χ s.kept (execHbmRefresh _stack s) := by simp [execHbmRefresh]

@[simp] theorem execScrubLine_keeps (stack symErr : Nat) (s : State) : Result.Keeps χ s.kept (execScrubLine stack symErr s) := by
  simp [execScrubLine]

@[simp] theorem execOdeccPoll_keeps (stack count : Nat) (s : State) : Result.Keeps χ s.kept (execOdeccPoll stack count s) := by simp [execOdeccPoll]

@[simp] theorem execErrEntryRead_keeps (page size : Nat) (s : State) : Result.Keeps χ s.kept (execErrEntryRead page size s) := by
  simp only [execErrEntryRead]
  (repeat' split) <;> simp

@[simp] theorem State.keeps_bankWord (h : Keeps χ κ s.kept) (x : BankAccess) : Keeps χ κ (s.bankWord x).kept := by
  simp only [State.bankWord]
  split
  · simp [h]
  split
  · simp [h]
  split
  · simp [h]
  have hcounted : Keeps χ κ (State.kept (if x.bitErr = 1 then (s.count (Reg.BNK_ECC.CORR x.half) 1).raise (0x140 + x.half) 4 else s)) := by
    split <;> simp [h]
  split
  · exact State.keeps_storeMasked hcounted _ _ _
  · rw [State.kept_emit]
    exact hcounted

@[simp] theorem State.keeps_bankAccess (h : Keeps χ κ s.kept) (x : BankAccess) : Keeps χ κ (s.bankAccess x).kept := by
  unfold State.bankAccess
  split <;> simp [h]

@[simp] theorem State.keeps_releaseBank (h : Keeps χ κ s.kept) (half b : Nat) : Keeps χ κ (s.releaseBank half b).kept := by
  simp [State.releaseBank, h]

@[simp] theorem State.keeps_releaseBanks (h : Keeps χ κ s.kept) (half mask : Nat) : Keeps χ κ (s.releaseBanks half mask).kept := by
  simp [State.releaseBanks, h]

@[simp] theorem execBankAccess_keeps (half addr source acct bitErr : Nat) (wr : Option (List Byte × List Bool)) (s : State) :
    Result.Keeps χ s.kept (execBankAccess half addr source acct bitErr wr s) := by simp [execBankAccess]

@[simp] theorem execBankPwrReq_keeps (req : Req) (half i value : Nat) (s : State) : Result.Keeps χ s.kept (execBankPwrReq req half i value s) := by
  simp [execBankPwrReq]

@[simp] theorem execBankPwrReached_keeps (half bank : Nat) (s : State) : Result.Keeps χ s.kept (execBankPwrReached half bank s) := by
  simp [execBankPwrReached]

@[simp] theorem execBankWakeDone_keeps (half bank : Nat) (s : State) : Result.Keeps χ s.kept (execBankWakeDone half bank s) := by
  simp [execBankWakeDone]

@[simp] theorem execBankIdleReturn_keeps (half bank : Nat) (s : State) : Result.Keeps χ s.kept (execBankIdleReturn half bank s) := by
  simp [execBankIdleReturn]

@[simp] theorem execTamper_keeps (s : State) : Result.Keeps χ s.kept (execTamper s) := by simp [execTamper]

@[simp] theorem execSupplyGlitch_keeps (half : Nat) (s : State) : Result.Keeps χ s.kept (execSupplyGlitch half s) := by simp [execSupplyGlitch]

@[simp] theorem State.keeps_lcWiped (h : Keeps χ κ s.kept) : Keeps χ κ (s.lcWiped).kept := by simp [State.lcWiped, h]

@[simp] theorem State.keeps_wipeDone (h : Keeps χ κ s.kept) (half badMask : Nat) : Keeps χ κ (s.wipeDone half badMask).kept := by
  simp [State.wipeDone, h]

@[simp] theorem execWipeDone_keeps (half badMask : Nat) (s : State) : Result.Keeps χ s.kept (execWipeDone half badMask s) := by simp [execWipeDone]

@[simp] theorem State.keeps_returnBanks (h : Keeps χ κ s.kept) (half : Nat) : Keeps χ κ (s.returnBanks half).kept := by simp [State.returnBanks, h]

@[simp] theorem execBankOfflineReq_keeps (req : Req) (half mask : Nat) (s : State) :
    Result.Keeps χ s.kept (execBankOfflineReq req half mask s) := by simp [execBankOfflineReq]

@[simp] theorem execBankOffline_keeps (half bank : Nat) (s : State) : Result.Keeps χ s.kept (execBankOffline half bank s) := by
  simp [execBankOffline]

@[simp] theorem execMteStart_keeps (req : Req) (half value : Nat) (s : State) : Result.Keeps χ s.kept (execMteStart req half value s) := by
  simp [execMteStart]

@[simp] theorem State.keeps_mteDone (h : Keeps χ κ s.kept) (half failRows free : Nat) (poisonedWords log : List Nat) :
    Keeps χ κ (s.mteDone half failRows free poisonedWords log).kept := by
  unfold State.mteDone
  extract_lets r kind index preserving log' st bank zeroed bad poisoned shown counted logged raised
  have hzeroed : Keeps χ κ zeroed.kept := by
    simp only [zeroed]
    split <;> simp [h]
  have hpoisoned : Keeps χ κ poisoned.kept := Keeps.foldl (fun t a => by simp) hzeroed _
  have hraised : Keeps χ κ raised.kept := by simp [raised, logged, counted, shown, hpoisoned]
  exact State.keeps_returnBanks (State.keeps_ite (by simp [hraised]) hraised) _

@[simp] theorem execMteDone_keeps (half failRows free : Nat) (poisonedWords log : List Nat) (s : State) :
    Result.Keeps χ s.kept (execMteDone half failRows free poisonedWords log s) := by simp [execMteDone]

@[simp] theorem execRepairLogRead_keeps (half size : Nat) (s : State) : Result.Keeps χ s.kept (execRepairLogRead half size s) := by
  simp only [execRepairLogRead]
  (repeat' split) <;> simp

/-! Functions of Machine/PostOps.lean. -/

@[simp] theorem State.keeps_bnkApplied (h : Keeps χ κ s.kept) (old : State) (half : Nat) : Keeps χ κ (old.bnkApplied s half).kept := by
  simp [State.bnkApplied, h]

@[simp] theorem State.keeps_pageApplied (h : Keeps χ κ s.kept) (old : State) (badFormat pg : Nat) :
    Keeps χ κ (old.pageApplied s badFormat pg).kept := by
  unfold State.pageApplied
  split <;> simp [h]

@[simp] theorem State.keeps_applyMask (h : Keeps χ κ s.kept) (n mask badFormat : Nat) : Keeps χ κ (s.applyMask n mask badFormat).kept := by
  simp [State.applyMask, h]

/-- What SEC's own post leaves: rejected by the checker, or applied. -/
theorem State.secPost_cases {P : State × Option (Nat × Violation) → Prop} {mask badFormat : Nat}
    (hrejected : ∀ (t : State) (pg : Nat) (v : Violation), t.kept = s.kept → P (t.endSlot 2 PostSt.REJECTED v.code v.reason pg, some (pg, v)))
    (happlied : ∀ t : State, t.kept = s.kept →
      P (((t.applyMask 2 mask badFormat).wr (Reg.GLB_POST_AT.NS 2) t.now).endSlot 2 PostSt.APPLIED Code.OK 0 0, none)) :
    P (s.secPost mask badFormat) := by
  obtain ⟨post, hpost⟩ : ∃ f, f = @State.secPost := ⟨_, rfl⟩
  rw [← hpost]
  delta State.secPost at hpost
  subst hpost
  beta_reduce
  extract_lets token cell mode t
  have ht : t.kept = s.kept := by
    simp only [t, mode, cell, State.kept_wr, State.kept_setCell, State.kept_skipFree]
  split
  · exact hrejected t _ _ ht
  · exact happlied t ht

@[simp] theorem State.keeps_secPost (h : Keeps χ κ s.kept) (mask badFormat : Nat) : Keeps χ κ (s.secPost mask badFormat).1.kept :=
  State.secPost_cases (P := fun x => Keeps χ κ x.1.kept) (fun t pg v ht => by simp [ht, h]) (fun t ht => by simp [ht, h])

/-! Functions of Machine/RingOps.lean. -/

@[simp] theorem State.keeps_putRecord (h : Keeps χ κ s.kept) (u : Nat) (x : Rec) (wr : DmaEnd) : Keeps χ κ (s.putRecord u x wr).kept := by
  simp only [State.putRecord]
  (repeat' split) <;> simp [h]

@[simp] theorem State.keeps_flushRecords (h : Keeps χ κ s.kept) (u : Nat) : Keeps χ κ (s.flushRecords u).kept := by simp [State.flushRecords, h]

@[simp] theorem State.keeps_completeOp (h : Keeps χ κ s.kept) (o : Op) (wr : DmaEnd) : Keeps χ κ (s.completeOp o wr).kept := by
  simp [State.completeOp, h]

@[simp] theorem State.keeps_admitDescriptor (h : Keeps χ κ s.kept) (u : Nat) (bytes : List Byte) (wr : DmaEnd) :
    Keeps χ κ (s.admitDescriptor u bytes wr).kept := by
  unfold State.admitDescriptor
  extract_lets d half seq adm o t c
  have ht : Keeps χ κ t.kept := by simp [t, h]
  split <;> rename_i dup record fresh failed _
  · exact State.keeps_ite h (by simp [dup, ht])
  · refine State.keeps_ite ?_ (State.keeps_ite h (by simp [failed, ht]))
    rw [State.kept_refreshRing, State.kept_update]
    simp [fresh, ht]

@[simp] theorem State.keeps_issue (h : Keeps χ κ s.kept) (a r seq opcode : Nat) {run : State → Op → State}
    (hr : ∀ t x, Keeps χ t.kept (run t x).kept) : Keeps χ κ (s.issue a r seq opcode run).kept := by
  unfold State.issue
  split
  · exact h
  split
  · exact h
  extract_lets x half t code
  have ht : Keeps χ κ t.kept := by simp [t, h]
  split
  · rw [State.kept_refreshRing]
    exact ht.trans (hr t x)
  · simp [ht]

@[simp] theorem State.keeps_wakeExtent (h : Keeps χ κ s.kept) (x : Operand) : Keeps χ κ (s.wakeExtent x).kept := by
  simp only [State.wakeExtent]
  (repeat' split) <;> simp [h]

@[simp] theorem State.keeps_scribbleOutputs (h : Keeps χ κ s.kept) (o : Op) : Keeps χ κ (s.scribbleOutputs o).kept := by
  simp [State.scribbleOutputs, h]

@[simp] theorem State.keeps_reachOperands (h : Keeps χ κ s.kept) (o : Op) : Keeps χ κ (s.reachOperands o).kept := by simp [State.reachOperands, h]

@[simp] theorem State.keeps_issueMem (h : Keeps χ κ s.kept) (a r seq opcode : Nat) {run : State → Op → State}
    (hr : ∀ t x, Keeps χ t.kept (run t x).kept) : Keeps χ κ (s.issueMem a r seq opcode run).kept :=
  State.keeps_issue h _ _ _ _ fun t x => Keeps.trans (by simp) (hr (t.reachOperands x) x)

@[simp] theorem State.keeps_putOperand (h : Keeps χ κ s.kept) (x : Operand) (bs : List Byte) : Keeps χ κ (s.putOperand x bs).kept := by
  simp [State.putOperand, h]

/-! Functions of Machine/Tiles.lean. -/

@[simp] theorem execNop_keeps (a r seq : Nat) (s : State) : Result.Keeps χ s.kept (execNop a r seq s) := by simp [execNop]

@[simp] theorem execTallyCas_keeps (a r seq : Nat) (s : State) : Result.Keeps χ s.kept (execTallyCas a r seq s) := by simp [execTallyCas]

@[simp] theorem State.keeps_tileOut (h : Keeps χ κ s.kept) (y : Operand) (e : List Byte × Bool × Bool) : Keeps χ κ (s.tileOut y e).st.kept := by
  simp [State.tileOut, h]

@[simp] theorem State.keeps_tileIdle (h : Keeps χ κ s.kept) : Keeps χ κ (s.tileIdle).st.kept := by simp [State.tileIdle, h]

@[simp] theorem State.keeps_tileOp (h : Keeps χ κ s.kept) (a r seq opcode : Nat) {body : State → Op → TileEnd}
    (hr : ∀ t x, Keeps χ t.kept (body t x).st.kept) : Keeps χ κ (s.tileOp a r seq opcode body).kept :=
  State.keeps_issueMem h _ _ _ _ fun t o => by split <;> simp [hr]

@[simp] theorem State.keeps_tileCopy (h : Keeps χ κ s.kept) (o : Op) : Keeps χ κ (s.tileCopy o).st.kept := by
  simp only [State.tileCopy]
  (repeat' split) <;> simp [h]

@[simp] theorem State.keeps_tileFill (h : Keeps χ κ s.kept) (o : Op) : Keeps χ κ (s.tileFill o).st.kept := by simp [State.tileFill, h]

@[simp] theorem State.keeps_tileQuantise (h : Keeps χ κ s.kept) (o : Op) : Keeps χ κ (s.tileQuantise o).st.kept := by
  simp only [State.tileQuantise]
  (repeat' split) <;> simp [h]

@[simp] theorem State.keeps_tileGather (h : Keeps χ κ s.kept) (o : Op) : Keeps χ κ (s.tileGather o).st.kept := by
  simp only [State.tileGather]
  (repeat' split) <;> simp [h]

@[simp] theorem State.keeps_tileGemm (h : Keeps χ κ s.kept) (o : Op) : Keeps χ κ (s.tileGemm o).st.kept := by
  simp only [State.tileGemm]
  (repeat' split) <;> simp [h]

@[simp] theorem State.keeps_tileEltwise (h : Keeps χ κ s.kept) (o : Op) : Keeps χ κ (s.tileEltwise o).st.kept := by
  simp only [State.tileEltwise]
  (repeat' split) <;> simp [h]

@[simp] theorem State.keeps_tileNorm (h : Keeps χ κ s.kept) (o : Op) : Keeps χ κ (s.tileNorm o).st.kept := by
  simp only [State.tileNorm]
  (repeat' split) <;> simp [h]

@[simp] theorem State.keeps_tileSoftmax (h : Keeps χ κ s.kept) (o : Op) : Keeps χ κ (s.tileSoftmax o).st.kept := by
  simp only [State.tileSoftmax]
  (repeat' split) <;> simp [h]

@[simp] theorem execCopy_keeps (a r seq : Nat) (s : State) : Result.Keeps χ s.kept (execCopy a r seq s) := by simp [execCopy]

@[simp] theorem execFill_keeps (a r seq : Nat) (s : State) : Result.Keeps χ s.kept (execFill a r seq s) := by simp [execFill]

@[simp] theorem execQuantise_keeps (a r seq : Nat) (s : State) : Result.Keeps χ s.kept (execQuantise a r seq s) := by simp [execQuantise]

@[simp] theorem execGather_keeps (a r seq : Nat) (s : State) : Result.Keeps χ s.kept (execGather a r seq s) := by simp [execGather]

@[simp] theorem execGemm_keeps (a r seq : Nat) (s : State) : Result.Keeps χ s.kept (execGemm a r seq s) := by simp [execGemm]

@[simp] theorem execEltwise_keeps (a r seq : Nat) (s : State) : Result.Keeps χ s.kept (execEltwise a r seq s) := by simp [execEltwise]

@[simp] theorem execNorm_keeps (a r seq : Nat) (s : State) : Result.Keeps χ s.kept (execNorm a r seq s) := by simp [execNorm]

@[simp] theorem execSoftmax_keeps (a r seq : Nat) (s : State) : Result.Keeps χ s.kept (execSoftmax a r seq s) := by simp [execSoftmax]

@[simp] theorem State.keeps_cutOp (h : Keeps χ κ s.kept) (o : Op) (f : Fail) : Keeps χ κ (s.cutOp o f).kept := by simp [State.cutOp, h]

@[simp] theorem State.keeps_boundaryOp (h : Keeps χ κ s.kept) (o : Op) (exc : Bool) : Keeps χ κ (s.boundaryOp o exc).kept := by
  simp [State.boundaryOp, h]

@[simp] theorem State.keeps_sliceBoundary (h : Keeps χ κ s.kept) (i : Nat) (exc : Bool) : Keeps χ κ (s.sliceBoundary i exc).kept := by
  simp only [State.sliceBoundary]
  (repeat' split) <;> simp [h]

@[simp] theorem execSliceBoundary_keeps (tile : Nat) (exc : Bool) (s : State) : Result.Keeps χ s.kept (execSliceBoundary tile exc s) := by
  simp [execSliceBoundary]

@[simp] theorem State.keeps_scratchError (h : Keeps χ κ s.kept) (i : Nat) : Keeps χ κ (s.scratchError i).kept := by
  simp only [State.scratchError, State.kept_wrb, State.kept_setFault, State.kept_raise, State.kept_count, State.kept_dropContext,
    State.kept_tileIdleNow]
  exact Keeps.foldl (fun t o => by split <;> simp) h _

@[simp] theorem execTileScratchError_keeps (tile : Nat) (s : State) : Result.Keeps χ s.kept (execTileScratchError tile s) := by
  simp [execTileScratchError]

@[simp] theorem execTilePwrReq_keeps (req : Req) (tile value : Nat) (s : State) : Result.Keeps χ s.kept (execTilePwrReq req tile value s) := by
  simp [execTilePwrReq]

@[simp] theorem execTileWakeDone_keeps (tile : Nat) (s : State) : Result.Keeps χ s.kept (execTileWakeDone tile s) := by simp [execTileWakeDone]

@[simp] theorem execTileEnable_keeps (req : Req) (tile : Nat) (on : Bool) (s : State) : Result.Keeps χ s.kept (execTileEnable req tile on s) := by
  simp [execTileEnable]

/-! Functions of Machine/FabOps.lean. -/

@[simp] theorem State.keeps_takeBytes (h : Keeps χ κ s.kept) (p : Nat) (m : RxMsg) (off : Nat) (bs : List Byte) (poison : Bool) :
    Keeps χ κ (s.takeBytes p m off bs poison).1.kept := by
  simp only [State.takeBytes]
  (repeat' split) <;> simp [h]

@[simp] theorem State.keeps_loopBack (h : Keeps χ κ s.kept) (m : FabMsg) : Keeps χ κ (s.loopBack m).kept := by
  simp only [State.loopBack]
  (repeat' split) <;> simp [h]

@[simp] theorem State.keeps_sendMsg (h : Keeps χ κ s.kept) (m : FabMsg) : Keeps χ κ (s.sendMsg m).kept := by simp [State.sendMsg, h]

@[simp] theorem State.keeps_answerMsg (h : Keeps χ κ s.kept) (m : RxMsg) (kind status info : Nat) (body : List Byte) (poisonAt half : Option Nat) :
    Keeps χ κ (s.answerMsg m kind status info body poisonAt half).kept := by simp [State.answerMsg, h]

@[simp] theorem State.keeps_fabWrite (h : Keeps χ κ s.kept) (o : Op) : Keeps χ κ (s.fabWrite o).kept := by
  simp only [State.fabWrite]
  (repeat' split) <;> simp [h]

@[simp] theorem execFabWrite_keeps (a r seq : Nat) (s : State) : Result.Keeps χ s.kept (execFabWrite a r seq s) := by simp [execFabWrite]

@[simp] theorem State.keeps_fabRead (h : Keeps χ κ s.kept) (o : Op) : Keeps χ κ (s.fabRead o).kept := by simp [State.fabRead, h]

@[simp] theorem execFabRead_keeps (a r seq : Nat) (s : State) : Result.Keeps χ s.kept (execFabRead a r seq s) := by simp [execFabRead]

/-! Functions of Machine/Folios.lean. -/

theorem State.keeps_popSlot (h : Keeps χ κ s.kept) {p i : Nat} {t : State} (ht : s.popSlot p = some (i, t)) : Keeps χ κ t.kept := by
  simp only [State.popSlot] at ht
  split at ht
  · cases ht
    split <;> simp [h]
  · split at ht
    · cases ht
      split <;> simp [h]
    · cases ht

theorem State.keeps_allocPages (pool class_ l : Nat) : ∀ (is : List Nat) {s t : State} {x y : Folio} {m n : Nat}, Keeps χ κ s.kept →
    allocPages pool class_ l is (s, x, m) = some (t, y, n) → Keeps χ κ t.kept := by
  intro is
  induction is with
  | nil => intro s t x y m n h ht; cases ht; exact h
  | cons i is ih =>
    intro s t x y m n h ht
    unfold allocPages at ht
    split at ht
    · exact ih h ht
    · split at ht
      · rename_i hpop
        exact ih (State.keeps_popSlot h hpop) ht
      · cases ht

@[simp] theorem State.keeps_appendKv (h : Keeps χ κ s.kept) (o : Op) : Keeps χ κ (s.appendKv o).kept := by
  unfold State.appendKv
  extract_lets d k v f l count start x row pages empty half
  iterate 8 refine State.keeps_ite (by simp [h]) ?_
  split
  · simp [h]
  split
  · simp [h]
  · next halloc =>
    have ht := State.keeps_allocPages _ _ _ _ h halloc
    extract_lets writes bad bad' stored
    clear_value bad'
    split
    · simp [h]
    · rw [State.kept_endOk, State.kept_setFolio]
      exact Keeps.foldl (fun t w => by simp) ht _

@[simp] theorem State.keeps_attendEnd (h : Keeps χ κ s.kept) (a : Attend) : Keeps χ κ (s.attendEnd a).kept := by
  simp only [State.attendEnd]
  (repeat' split) <;> simp [h]

@[simp] theorem State.keeps_attend (h : Keeps χ κ s.kept) (o : Op) : Keeps χ κ (s.attend o).kept := by
  unfold State.attend
  extract_lets d q out f l rows heads x len n half
  iterate 6 refine State.keeps_ite (by simp [h]) ?_
  split
  · simp [h]
  rename_i counted runs mine query nodes far other appended sent _ _
  have hcounted : Keeps χ κ counted.kept := by simp [counted, h]
  split
  · simp [hcounted]
  · refine State.keeps_attendEnd (Keeps.foldl (fun t r => ?_) (by simp [appended, hcounted]) _) _
    split <;> simp

@[simp] theorem State.keeps_folioOp (h : Keeps χ κ s.kept) (a r seq opcode : Nat) {run : State → Op → State}
    (hr : ∀ t x, Keeps χ t.kept (run t x).kept) : Keeps χ κ (s.folioOp a r seq opcode run).kept :=
  State.keeps_issueMem h _ _ _ _ fun t o => by split <;> simp [hr]

@[simp] theorem execFolioOpen_keeps (a r seq : Nat) (s : State) : Result.Keeps χ s.kept (execFolioOpen a r seq s) := by simp [execFolioOpen]

@[simp] theorem execFolioClose_keeps (a r seq : Nat) (s : State) : Result.Keeps χ s.kept (execFolioClose a r seq s) := by simp [execFolioClose]

@[simp] theorem execFolioLink_keeps (a r seq : Nat) (s : State) : Result.Keeps χ s.kept (execFolioLink a r seq s) := by simp [execFolioLink]

@[simp] theorem execAppendKv_keeps (a r seq : Nat) (s : State) : Result.Keeps χ s.kept (execAppendKv a r seq s) := by simp [execAppendKv]

@[simp] theorem execAttend_keeps (a r seq : Nat) (s : State) : Result.Keeps χ s.kept (execAttend a r seq s) := by simp [execAttend]

@[simp] theorem State.keeps_folioUnblock (h : Keeps χ κ s.kept) (o : Op) : Keeps χ κ (s.folioUnblock o).kept := by simp [State.folioUnblock, h]

@[simp] theorem execFolioOpUnblock_keeps (a r seq : Nat) (s : State) : Result.Keeps χ s.kept (execFolioOpUnblock a r seq s) := by
  unfold execFolioOpUnblock
  split <;> simp

@[simp] theorem State.keeps_answerRun (h : Keeps χ κ s.kept) (owner : Nat × Nat × Nat) (first : Nat) (rsp : PartRsp) :
    Keeps χ κ (s.answerRun owner first rsp).kept := by
  unfold State.answerRun
  split <;> simp [h]

@[simp] theorem State.keeps_partReq (h : Keeps χ κ s.kept) (m : PartReq) : Keeps χ κ (s.partReq m).kept := by
  simp only [State.partReq]
  (repeat' split) <;> simp [h]

@[simp] theorem execPartReq_keeps (m : PartReq) (s : State) : Result.Keeps χ s.kept (execPartReq m s) := by simp [execPartReq]

@[simp] theorem State.keeps_failRuns (h : Keeps χ κ s.kept) : Keeps χ κ s.failRuns.kept :=
  Keeps.foldl (fun t a => Keeps.foldl (fun t r => by simp) .refl _) h _

@[simp] theorem State.keeps_partRsp (h : Keeps χ κ s.kept) (reqSeq : Nat) (rsp : PartRsp) : Keeps χ κ (s.partRsp reqSeq rsp).kept := by
  unfold State.partRsp
  split <;> simp [h]

@[simp] theorem execPartRsp_keeps (reqSeq : Nat) (m : PartRsp) (s : State) : Result.Keeps χ s.kept (execPartRsp reqSeq m s) := by simp [execPartRsp]

@[simp] theorem execFolQuery_keeps (req : Req) (half value : Nat) (s : State) : Result.Keeps χ s.kept (execFolQuery req half value s) := by
  simp [execFolQuery]

/-! Functions of Machine/CollOps.lean. -/

@[simp] theorem State.keeps_sendColl (h : Keeps χ κ s.kept) (st : CollStep) (rank stage enc u chunk code count : Nat) (vals : List Int) :
    Keeps χ κ (s.sendColl st rank stage enc u chunk code count vals).kept := by simp [State.sendColl, h]

/-! Functions of Machine/Collectives.lean. -/

@[simp] theorem State.keeps_collWrites (half acct : Nat) (l : List (Nat × Nat × List Byte)) (h : Keeps χ κ s.kept) :
    Keeps χ κ (collWrites half acct l s).1.kept := by
  induction l generalizing s with
  | nil => exact h
  | cons x l ih =>
    unfold collWrites
    (repeat' split) <;> simp [h, ih]

@[simp] theorem State.keeps_scribbleY (h : Keeps χ κ s.kept) (j : CollJob) : Keeps χ κ (s.scribbleY j).kept := by simp [State.scribbleY, h]

@[simp] theorem State.keeps_endWith (h : Keeps χ κ s.kept) (st : CollStep) (j : CollJob) (w : List (Nat × Nat × List Byte)) (code : Nat)
    (overflow excluded : Bool) : Keeps χ κ (s.endWith st j w code overflow excluded).kept := by
  have hw := State.keeps_collWrites st.half st.owner.1 w h
  unfold State.endWith
  dsimp only
  split <;> rename_i heq <;> rw [heq] at hw <;> simp [hw]

@[simp] theorem State.keeps_sendError (h : Keeps χ κ s.kept) (st : CollStep) (mask code chunk : Nat) :
    Keeps χ κ (s.sendError st mask code chunk).kept := by simp [State.sendError, h]

@[simp] theorem State.keeps_collStop (h : Keeps χ κ s.kept) (st : CollStep) (code origin chunk : Nat) :
    Keeps χ κ (s.collStop st code origin chunk).kept := by
  unfold State.collStop
  split <;> simp [h]

@[simp] theorem State.keeps_collFail (h : Keeps χ κ s.kept) (st : CollStep) (code chunk : Nat) : Keeps χ κ (s.collFail st code chunk).kept := by
  simp [State.collFail, h]

@[simp] theorem State.keeps_collAbort (h : Keeps χ κ s.kept) (o : Op) : Keeps χ κ (s.collAbort o).kept := by
  unfold State.collAbort
  split <;> simp [h]

@[simp] theorem State.keeps_peerRestarted (h : Keeps χ κ s.kept) (node : Nat) : Keeps χ κ (s.peerRestarted node).kept := by
  simp [State.peerRestarted, h]

@[simp] theorem State.keeps_collFinish (h : Keeps χ κ s.kept) (st : CollStep) (j : CollJob) (ranks : List Nat)
    (res : List (Nat × Bool)) (ov : Bool) (en nsq : Nat) :
    Keeps χ κ (s.collFinish st j ranks res ov en nsq).kept := by simp [State.collFinish, h]

@[simp] theorem State.keeps_collClosing (h : Keeps χ κ s.kept) (st : CollStep) (j : CollJob) (ranks : List Nat) :
    Keeps χ κ (s.collClosing st j ranks).kept := by
  unfold State.collClosing
  extract_lets me res ov sqs send a all ov' en b
  have hsend (t : State) (st : CollStep) (n : Nat) (vals : List Int) (ht : Keeps χ κ t.kept) : Keeps χ κ (send t st n vals).1.kept := by
    simp only [send]
    split <;> simp [ht]
  refine State.keeps_ite (by simp [h]) ?_
  have ha : Keeps χ κ a.1.kept := hsend _ _ _ _ h
  refine State.keeps_ite (by simp [ha]) ?_
  refine State.keeps_ite ?_ (by simp [ha])
  have hb : Keeps χ κ b.1.kept := hsend _ _ _ _ ha
  exact State.keeps_ite (by simp [hb]) (by simp [hb])

@[simp] theorem State.keeps_collSendData (h : Keeps χ κ s.kept) (st : CollStep) (j : CollJob) (ranks : List Nat) (c : Nat) :
    Keeps χ κ (s.collSendData st j ranks c).1.kept := by simp [State.collSendData, h]

@[simp] theorem State.keeps_collAdvance (h : Keeps χ κ s.kept) (st : CollStep) : Keeps χ κ (s.collAdvance st).kept := by
  unfold State.collAdvance
  split
  · extract_lets j r me ranks cs a own all
    have ha : Keeps χ κ a.1.kept := Keeps.foldl_fst (fun a c => by split <;> simp) h _
    split <;> simp [ha]
  · simp [h]

@[simp] theorem State.keeps_collExclude (h : Keeps χ κ s.kept) (st : CollStep) (j : CollJob) : Keeps χ κ (s.collExclude st j).kept := by
  simp only [State.collExclude]
  (repeat' split) <;> simp [h]

@[simp] theorem State.keeps_collBelow (h : Keeps χ κ s.kept) (st : CollStep) (j : CollJob) : Keeps χ κ (s.collBelow st j).kept := by
  simp [State.collBelow, h]

@[simp] theorem State.keeps_collBegin (h : Keeps χ κ s.kept) (st : CollStep) (j : CollJob) : Keeps χ κ (s.collBegin st j).kept := by
  unfold State.collBegin
  extract_lets me reads
  split
  · split <;> simp [h]
  rename_i x bl bad counted raised st a _ _
  split
  · have hraised : Keeps χ κ raised.kept := by
      simp only [raised, counted]
      split <;> simp [h]
    simp [hraised]
  · have ha : Keeps χ κ a.1.kept := by
      simp only [a]
      split
      · exact h
      · exact Keeps.foldl_fst (fun a c => Keeps.foldl (fun t r => by simp) .refl _) h _
    simp [ha]

@[simp] theorem State.keeps_collEnter (h : Keeps χ κ s.kept) (st : CollStep) : Keeps χ κ (s.collEnter st).kept := by
  unfold State.collEnter
  split <;> simp [h]

@[simp] theorem State.keeps_collAdopt (h : Keeps χ κ s.kept) (st : CollStep) (mask origin : Nat) :
    Keeps χ κ (s.collAdopt st mask origin).kept := by
  simp only [State.collAdopt]
  refine State.keeps_collEnter ?_ _
  split <;> simp [h]

@[simp] theorem State.keeps_collDecide (h : Keeps χ κ s.kept) (st : CollStep) : Keeps χ κ (s.collDecide st).kept := by simp [State.collDecide, h]

@[simp] theorem State.keeps_collAnswer (h : Keeps χ κ s.kept) (m : CollMsg) (code : Nat) : Keeps χ κ (s.collAnswer m code).kept := by
  simp [State.collAnswer, h]

@[simp] theorem State.keeps_collLateReady (h : Keeps χ κ s.kept) (m : CollMsg) (k : KeptRoster) : Keeps χ κ (s.collLateReady m k).kept := by
  unfold State.collLateReady
  split <;> simp [h]

@[simp] theorem State.keeps_collResidue (h : Keeps χ κ s.kept) (st : CollStep) (mint : Bool) (rf chunk : Nat) :
    Keeps χ κ (s.collResidue st mint rf chunk).kept := by simp [State.collResidue, h]

@[simp] theorem State.keeps_collPut (h : Keeps χ κ s.kept) (st : CollStep) (m : CollMsg) (rf : Nat) : Keeps χ κ (s.collPut st m rf).kept := by
  unfold State.collPut
  split <;> simp [h]

@[simp] theorem State.keeps_collTake (h : Keeps χ κ s.kept) (st : CollStep) (m : CollMsg) (rf at_ : Nat) :
    Keeps χ κ (s.collTake st m rf at_).kept := by
  simp only [State.collTake]
  (repeat' split) <;> simp [h]

@[simp] theorem State.keeps_collDrain (h : Keeps χ κ s.kept) : Keeps χ κ s.collDrain.kept :=
  Keeps.foldl (fun t e => by (repeat' split) <;> simp) h _

@[simp] theorem State.keeps_collSettle (h : Keeps χ κ s.kept) : Keeps χ κ (s.collSettle).kept := by simp [State.collSettle, h]

@[simp] theorem State.keeps_collArrive (h : Keeps χ κ s.kept) (m : CollMsg) (rf : Nat) : Keeps χ κ (s.collArrive m rf).kept := by
  simp only [State.collArrive]
  (repeat' split) <;> simp [h]

@[simp] theorem State.keeps_collStage (h : Keeps χ κ s.kept) (stage : Nat) (m : CollMsg) (rf : Nat) : Keeps χ κ (s.collStage stage m rf).kept := by
  simp [State.collStage, h]

@[simp] theorem State.keeps_collStart (h : Keeps χ κ s.kept) (o : Op) : Keeps χ κ (s.collStart o).kept := by
  unfold State.collStart
  extract_lets p j
  split
  · exact h
  extract_lets x
  split
  · simp [h]
  split
  · simp [h]
  iterate 3
    split
    · simp [h]
  extract_lets st t
  have ht : Keeps χ κ t.kept := by simp [t, h]
  split
  · simp [ht]
  · exact State.keeps_collSettle (Keeps.foldl (fun t k => by simp) ht _)

@[simp] theorem State.keeps_collIssue (h : Keeps χ κ s.kept) (a r seq opcode : Nat) : Keeps χ κ (s.collIssue a r seq opcode).kept := by
  simp [State.collIssue, h]

@[simp] theorem execAllReduce_keeps (a r seq : Nat) (s : State) : Result.Keeps χ s.kept (execAllReduce a r seq s) := by simp [execAllReduce]

@[simp] theorem execReduceScatter_keeps (a r seq : Nat) (s : State) : Result.Keeps χ s.kept (execReduceScatter a r seq s) := by
  simp [execReduceScatter]

@[simp] theorem execAllGather_keeps (a r seq : Nat) (s : State) : Result.Keeps χ s.kept (execAllGather a r seq s) := by simp [execAllGather]

@[simp] theorem execBroadcast_keeps (a r seq : Nat) (s : State) : Result.Keeps χ s.kept (execBroadcast a r seq s) := by simp [execBroadcast]

@[simp] theorem execAllToAll_keeps (a r seq : Nat) (s : State) : Result.Keeps χ s.kept (execAllToAll a r seq s) := by simp [execAllToAll]

@[simp] theorem execMint_keeps (a r seq : Nat) (s : State) : Result.Keeps χ s.kept (execMint a r seq s) := by simp [execMint]

@[simp] theorem State.keeps_collUnblock (h : Keeps χ κ s.kept) (o : Op) : Keeps χ κ (s.collUnblock o).kept := by simp [State.collUnblock, h]

@[simp] theorem execCollIssueUnblock_keeps (a r seq : Nat) (s : State) : Result.Keeps χ s.kept (execCollIssueUnblock a r seq s) := by
  unfold execCollIssueUnblock
  split <;> simp

@[simp] theorem execCollReady_keeps (m : CollMsg) (s : State) : Result.Keeps χ s.kept (execCollReady m s) := by simp [execCollReady]

@[simp] theorem execCollRoster_keeps (m : CollMsg) (s : State) : Result.Keeps χ s.kept (execCollRoster m s) := by simp [execCollRoster]

@[simp] theorem execCollExp_keeps (m : CollMsg) (s : State) : Result.Keeps χ s.kept (execCollExp m s) := by simp [execCollExp]

@[simp] theorem execCollData_keeps (m : CollMsg) (residueFails : Nat) (s : State) : Result.Keeps χ s.kept (execCollData m residueFails s) := by
  simp [execCollData]

@[simp] theorem execCollClose_keeps (m : CollMsg) (residueFails : Nat) (s : State) : Result.Keeps χ s.kept (execCollClose m residueFails s) := by
  simp [execCollClose]

@[simp] theorem execCollError_keeps (m : CollMsg) (s : State) : Result.Keeps χ s.kept (execCollError m s) := by simp [execCollError]

@[simp] theorem execRosterDecide_keeps (a r seq : Nat) (s : State) : Result.Keeps χ s.kept (execRosterDecide a r seq s) := by
  unfold execRosterDecide
  split <;> simp

@[simp] theorem execCollTimeout_keeps (a r seq : Nat) (s : State) : Result.Keeps χ s.kept (execCollTimeout a r seq s) := by
  unfold execCollTimeout
  split <;> simp

@[simp] theorem execEarlyArrivalExpiry_keeps (half : Nat) (s : State) : Result.Keeps χ s.kept (execEarlyArrivalExpiry half s) := by
  simp [execEarlyArrivalExpiry]

@[simp] theorem execRosterRetentionExpiry_keeps (group epoch step : Nat) (s : State) :
    Result.Keeps χ s.kept (execRosterRetentionExpiry group epoch step s) := by simp [execRosterRetentionExpiry]

/-! Functions of Machine/StepOps.lean. -/

@[simp] theorem State.keeps_stepClose (h : Keeps χ κ s.kept) (o : Op) : Keeps χ κ (s.stepClose o).kept := by
  unfold State.stepClose
  extract_lets d step flags clipC st sout
  iterate 3 refine State.keeps_ite (by simp [h]) ?_
  split
  · simp [h]
  rename_i addrs rc recs k v outs same count hash g skipped decided normed scaled counted limited grown _ _
  refine State.keeps_ite (by simp [h]) ?_
  split
  · simp [h]
  have hscaled : Keeps χ κ scaled.kept := by simp [scaled, normed, decided, skipped, h]
  have hcounted : Keeps χ κ counted.kept := by
    iterate 3 refine State.keeps_ite (by simp [hscaled]) ?_
    exact hscaled
  have hgrown : Keeps χ κ grown.kept :=
    have hlimited : Keeps χ κ limited.kept := State.keeps_ite (by simp [hcounted]) hcounted
    State.keeps_ite (by simp [hlimited]) hlimited
  exact State.keeps_ite (by simp [hgrown]) (by simp [hgrown])

@[simp] theorem execStepClose_keeps (a r seq : Nat) (s : State) : Result.Keeps χ s.kept (execStepClose a r seq s) := by simp [execStepClose]

@[simp] theorem State.keeps_update (h : Keeps χ κ s.kept) (o : Op) : Keeps χ κ (s.update o).kept := by
  unfold State.update
  extract_lets d w m r g n half pa pu dec pc
  iterate 3 refine State.keeps_ite (by simp [h]) ?_
  split
  · simp [h]
  rename_i record wb mb rb gb gmul p e sr u24 row ws bad weights moments counted raised _ _
  iterate 2 refine State.keeps_ite (by simp [h]) ?_
  split
  · simp [h]
  have hmoments : Keeps χ κ moments.kept := by
    have hweights : Keeps χ κ weights.kept := State.keeps_putOperand h _ _
    simp only [moments]
    exact State.keeps_putOperand (State.keeps_putOperand hweights _ _) _ _
  have hcounted : Keeps χ κ counted.kept := by simp [counted, hmoments]
  rw [State.kept_endOk]
  exact State.keeps_ite (by simp [hcounted]) hcounted

@[simp] theorem execUpdate_keeps (a r seq : Nat) (s : State) : Result.Keeps χ s.kept (execUpdate a r seq s) := by simp [execUpdate]

@[simp] theorem State.keeps_mirrorSend (h : Keeps χ κ s.kept) (o : Op) (m : MirrorRun) (g : Nat) : Keeps χ κ (s.mirrorSend o m g).1.kept := by
  simp only [State.mirrorSend]
  (repeat' split) <;> simp [h]

@[simp] theorem State.keeps_mirrorPump (h : Keeps χ κ s.kept) (o : Op) (fuel : Nat) (m : MirrorRun) :
    Keeps χ κ (s.mirrorPump o fuel m).kept := by
  induction fuel generalizing s m with
  | zero => simp [State.mirrorPump, h]
  | succ fuel ih =>
    simp only [State.mirrorPump]
    (repeat' split) <;> simp [h, ih]

@[simp] theorem State.keeps_mirrorAnswer (h : Keeps χ κ s.kept) (owner : Nat × Nat × Nat) (g code info : Nat) (bytes : List Byte) :
    Keeps χ κ (s.mirrorAnswer owner g code info bytes).kept := by
  simp only [State.mirrorAnswer]
  split
  · split
    · simp [h]
    split
    · simp [h]
    split
    · simp [h]
    split <;> simp [h]
  · exact h

@[simp] theorem State.keeps_mirror (h : Keeps χ κ s.kept) (o : Op) : Keeps χ κ (s.mirror o).kept := by
  simp only [State.mirror]
  (repeat' split) <;> simp [h]

@[simp] theorem State.keeps_mirrorRestore (h : Keeps χ κ s.kept) (o : Op) : Keeps χ κ (s.mirrorRestore o).kept := by
  simp only [State.mirrorRestore]
  (repeat' split) <;> simp [h]

@[simp] theorem State.keeps_mirrorOp (h : Keeps χ κ s.kept) (a r seq : Nat) (restore : Bool) {run : State → Op → State}
    (hr : ∀ t x, Keeps χ t.kept (run t x).kept) : Keeps χ κ (s.mirrorOp a r seq restore run).kept := by
  unfold State.mirrorOp
  (repeat' split) <;> simp [h, hr]

@[simp] theorem execMirror_keeps (a r seq : Nat) (s : State) : Result.Keeps χ s.kept (execMirror a r seq s) := by simp [execMirror]

@[simp] theorem execMirrorRestore_keeps (a r seq : Nat) (s : State) : Result.Keeps χ s.kept (execMirrorRestore a r seq s) := by
  simp [execMirrorRestore]

@[simp] theorem execCommit_keeps (a r seq : Nat) (s : State) : Result.Keeps χ s.kept (execCommit a r seq s) := by simp [execCommit]

@[simp] theorem State.keeps_writeCommit (h : Keeps χ κ s.kept) (x : Commit) : Keeps χ κ (s.writeCommit x).kept := by
  unfold State.writeCommit
  extract_lets r ready sel other copied marked mirrored sel' head tail wraps step seq mapped tailed safe written headed wrapped done
  have hready : Keeps χ κ ready.kept := by simp [ready, h]
  have hmirrored : Keeps χ κ mirrored.kept := by
    simp only [mirrored]
    split
    · exact hready
    · rw [State.kept_wr]
      exact Keeps.foldl (fun t e => by simp) (by simp [copied, hready]) _
  have htailed : Keeps χ κ tailed.kept := by
    have hmapped : Keeps χ κ mapped.kept := by
      simp only [mapped]
      split <;> simp [hmirrored]
    simp only [tailed]
    split <;> simp [hmapped]
  have hwrapped : Keeps χ κ wrapped.kept := by
    have hheaded : Keeps χ κ headed.kept := by simp [headed, written, htailed]
    simp only [wrapped]
    split <;> simp [hheaded]
  have hdone : Keeps χ κ done.kept := by simp [done, hwrapped]
  split <;> simp [hdone]

@[simp] theorem execCommitWrite_keeps (s : State) : Result.Keeps χ s.kept (execCommitWrite s) := by
  unfold execCommitWrite
  split <;> simp

/-! Functions of Machine/Fabric.lean. -/

@[simp] theorem State.keeps_failOwner (h : Keeps χ κ s.kept) (owner : Nat × Nat × Nat) (tag code info retx : Nat) :
    Keeps χ κ (s.failOwner owner tag code info retx).kept := by
  simp only [State.failOwner]
  (repeat' split) <;> simp [h]

@[simp] theorem State.keeps_failQueued (h : Keeps χ κ s.kept) (which : FabMsg → Bool) : Keeps χ κ (s.failQueued which).kept := by
  simp only [State.failQueued, State.kept_refreshHeld]
  refine Keeps.foldl (fun t m => ?_) (by simp [h]) _
  (repeat' split) <;> simp

@[simp] theorem State.keeps_portGo (h : Keeps χ κ s.kept) (p st cause : Nat) : Keeps χ κ (s.portGo p st cause).kept := by simp [State.portGo, h]

@[simp] theorem State.keeps_trainAt (h : Keeps χ κ s.kept) (p width : Nat) : Keeps χ κ (s.trainAt p width).kept := by simp [State.trainAt, h]

@[simp] theorem State.keeps_trainMax (h : Keeps χ κ s.kept) (p : Nat) : Keeps χ κ (s.trainMax p).kept := by simp [State.trainMax, h]

@[simp] theorem State.keeps_portWrite (h : Keeps χ κ s.kept) (req : Req) (p : Nat) {run : State → State}
    (hr : ∀ t, Keeps χ t.kept (run t).kept) : Keeps χ κ (s.portWrite req p run).kept := by
  unfold State.portWrite
  (repeat' split) <;> simp [h, h.trans (hr s)]

@[simp] theorem execPortEnable_keeps (req : Req) (p : Nat) (s : State) : Result.Keeps χ s.kept (execPortEnable req p s) := by simp [execPortEnable]

@[simp] theorem execPortDisable_keeps (req : Req) (p : Nat) (s : State) : Result.Keeps χ s.kept (execPortDisable req p s) := by
  simp [execPortDisable]

@[simp] theorem execPortRetrain_keeps (req : Req) (p : Nat) (s : State) : Result.Keeps χ s.kept (execPortRetrain req p s) := by
  simp [execPortRetrain]

@[simp] theorem State.keeps_trainingDone (h : Keeps χ κ s.kept) (p laneOk inverted : Nat) : Keeps χ κ (s.trainingDone p laneOk inverted).kept := by
  simp only [State.trainingDone]
  (repeat' split) <;> simp [h]

@[simp] theorem execTrainingDone_keeps (p laneOk inverted : Nat) (s : State) : Result.Keeps χ s.kept (execTrainingDone p laneOk inverted s) := by
  simp [execTrainingDone]

@[simp] theorem execTrainingTimeout_keeps (p : Nat) (noSignal : Bool) (s : State) : Result.Keeps χ s.kept (execTrainingTimeout p noSignal s) := by
  simp [execTrainingTimeout]

@[simp] theorem State.keeps_laneFail (h : Keeps χ κ s.kept) (p lanes : Nat) : Keeps χ κ (s.laneFail p lanes).kept := by
  simp only [State.laneFail]
  (repeat' split) <;> simp [h]

@[simp] theorem execLaneFail_keeps (p lanes : Nat) (s : State) : Result.Keeps χ s.kept (execLaneFail p lanes s) := by simp [execLaneFail]

@[simp] theorem State.keeps_hello (hs : Keeps χ κ s.kept) (p : Nat) (h : Hello) : Keeps χ κ (s.hello p h).kept := by simp [State.hello, hs]

@[simp] theorem execFabricHello_keeps (p : Nat) (h : Hello) (s : State) : Result.Keeps χ s.kept (execFabricHello p h s) := by simp [execFabricHello]

@[simp] theorem execHelloTimer_keeps (p : Nat) (s : State) : Result.Keeps χ s.kept (execHelloTimer p s) := by simp [execHelloTimer]

@[simp] theorem execHelloTimeout_keeps (p : Nat) (s : State) : Result.Keeps χ s.kept (execHelloTimeout p s) := by simp [execHelloTimeout]

@[simp] theorem execAdaptStart_keeps (p : Nat) (s : State) : Result.Keeps χ s.kept (execAdaptStart p s) := by simp [execAdaptStart]

@[simp] theorem execAdaptDone_keeps (p : Nat) (s : State) : Result.Keeps χ s.kept (execAdaptDone p s) := by simp [execAdaptDone]

@[simp] theorem execDownRetry_keeps (p : Nat) (s : State) : Result.Keeps χ s.kept (execDownRetry p s) := by simp [execDownRetry]

@[simp] theorem execSignalDetect_keeps (p : Nat) (s : State) : Result.Keeps χ s.kept (execSignalDetect p s) := by simp [execSignalDetect]

@[simp] theorem execPartnerRetrain_keeps (p : Nat) (s : State) : Result.Keeps χ s.kept (execPartnerRetrain p s) := by simp [execPartnerRetrain]

@[simp] theorem execLossOfSignal_keeps (p : Nat) (s : State) : Result.Keeps χ s.kept (execLossOfSignal p s) := by simp [execLossOfSignal]

@[simp] theorem execLinkWaitExpiry_keeps (p : Nat) (s : State) : Result.Keeps χ s.kept (execLinkWaitExpiry p s) := by simp [execLinkWaitExpiry]

@[simp] theorem execFabricGrant_keeps (p : Nat) (s : State) : Result.Keeps χ s.kept (execFabricGrant p s) := by
  simp only [execFabricGrant]
  (repeat' split) <;> simp

@[simp] theorem State.keeps_packetIn (h : Keeps χ κ s.kept) (p : Nat) (k : Packet) : Keeps χ κ (s.packetIn p k).kept := by
  unfold State.packetIn
  split <;> simp [h]

@[simp] theorem State.keeps_packetSeq (h : Keeps χ κ s.kept) (p : Nat) (k : Packet) : Keeps χ κ (s.packetSeq p k).kept := by
  simp [State.packetSeq, h]

@[simp] theorem State.keeps_startSession (h : Keeps .sessions κ s.kept) (node session : Nat) :
    Keeps .sessions κ (s.startSession node session).kept := by
  unfold State.startSession
  extract_lets old t
  have ht : Keeps .sessions κ t.kept := h.trans
    ⟨fun _ => BitVec.and_self, fun _ => ⟨rfl, rfl⟩, fun _ _ => rfl, fun hc => absurd rfl hc, rfl, rfl, id⟩
  split <;> simp [ht]

@[simp] theorem State.keeps_packet (h : Keeps .sessions κ s.kept) (p : Nat) (k : Packet) : Keeps .sessions κ (s.packet p k).kept := by
  simp [State.packet, h]

@[simp] theorem execFabricData_keeps (p : Nat) (pk : Packet) (s : State) : Result.Keeps .sessions s.kept (execFabricData p pk s) := by
  simp [execFabricData]

@[simp] theorem execFabricAck_keeps (srcNode chan seq : Nat) (s : State) : Result.Keeps χ s.kept (execFabricAck srcNode chan seq s) := by
  simp [execFabricAck]

@[simp] theorem execFabricNack_keeps (srcNode chan seq : Nat) (s : State) : Result.Keeps χ s.kept (execFabricNack srcNode chan seq s) := by
  simp [execFabricNack]

@[simp] theorem execAckTimer_keeps (srcNode chan : Nat) (s : State) : Result.Keeps χ s.kept (execAckTimer srcNode chan s) := by simp [execAckTimer]

@[simp] theorem execRtoExpiry_keeps (dstNode chan : Nat) (s : State) : Result.Keeps χ s.kept (execRtoExpiry dstNode chan s) := by
  simp [execRtoExpiry]

@[simp] theorem execPfcPause_keeps (p prio quanta : Nat) (s : State) : Result.Keeps χ s.kept (execPfcPause p prio quanta s) := by simp [execPfcPause]

@[simp] theorem execPfcPauseExpiry_keeps (p prio : Nat) (s : State) : Result.Keeps χ s.kept (execPfcPauseExpiry p prio s) := by
  simp [execPfcPauseExpiry]

theorem State.keeps_takeMsg (h : Keeps χ κ s.kept) {kind src first : Nat} {m : RxMsg} {t : State} (ht : s.takeMsg kind src first = some (m, t)) :
    Keeps χ κ t.kept := by
  simp only [State.takeMsg, Option.map_eq_some_iff] at ht
  obtain ⟨_, _, ht⟩ := ht
  cases ht
  simp [h]

@[simp] theorem State.keeps_writeWhole (h : Keeps χ κ s.kept) (m : RxMsg) : Keeps χ κ (s.writeWhole m).kept := by simp [State.writeWhole, h]

@[simp] theorem execWrite_keeps (srcNode msgSeq : Nat) (s : State) : Result.Keeps χ s.kept (execWrite srcNode msgSeq s) := by
  simp only [execWrite, Result.keeps_next]
  split
  · split
    · next htake => exact State.keeps_writeWhole (State.keeps_takeMsg .refl htake) _
    · exact .refl
  · exact .refl

@[simp] theorem State.keeps_readWhole (h : Keeps χ κ s.kept) (m : RxMsg) : Keeps χ κ (s.readWhole m).kept := by
  simp only [State.readWhole]
  (repeat' split) <;> simp [h]

@[simp] theorem execReadReq_keeps (srcNode msgSeq : Nat) (s : State) : Result.Keeps χ s.kept (execReadReq srcNode msgSeq s) := by
  simp only [execReadReq, Result.keeps_next]
  split
  · split
    · next htake => split <;> simp [State.keeps_takeMsg .refl htake]
    · exact .refl
  · exact .refl

theorem State.keeps_takeRequest (h : Keeps χ κ s.kept) {m : RxMsg} {r : FabReq} {t : State} (ht : s.takeRequest m = some (r, t)) :
    Keeps χ κ t.kept := by
  simp only [State.takeRequest, Option.map_eq_some_iff] at ht
  obtain ⟨_, _, ht⟩ := ht
  cases ht
  split <;> simp [h]

@[simp] theorem State.keeps_readDone (h : Keeps χ κ s.kept) (r : FabReq) (m : RxMsg) : Keeps χ κ (s.readDone r m).kept := by
  simp only [State.readDone]
  (repeat' split) <;> simp [h]

@[simp] theorem execReadRsp_keeps (srcNode msgSeq : Nat) (s : State) : Result.Keeps χ s.kept (execReadRsp srcNode msgSeq s) := by
  simp only [execReadRsp, Result.keeps_next]
  split
  · exact .refl
  split
  · exact .refl
  next htake =>
    have ht := State.keeps_takeMsg (χ := χ) .refl htake
    split
    · next hreq => split <;> simp [State.keeps_takeRequest ht hreq]
    · simp [ht]

@[simp] theorem State.keeps_writeEnded (h : Keeps χ κ s.kept) (r : FabReq) (m : RxMsg) : Keeps χ κ (s.writeEnded r m).kept := by
  unfold State.writeEnded
  split <;> simp [h]

@[simp] theorem execWriteDone_keeps (srcNode msgSeq : Nat) (s : State) : Result.Keeps χ s.kept (execWriteDone srcNode msgSeq s) := by
  simp only [execWriteDone, Result.keeps_next]
  split
  · exact .refl
  split
  · exact .refl
  next htake =>
    have ht := State.keeps_takeMsg (χ := χ) .refl htake
    split
    · next hreq => simp [State.keeps_takeRequest ht hreq]
    · simp [ht]

@[simp] theorem execControl_keeps (srcNode msgSeq : Nat) (s : State) : Result.Keeps χ s.kept (execControl srcNode msgSeq s) := by
  simp only [execControl, Result.keeps_next]
  split
  · split
    · next htake => exact State.keeps_takeMsg .refl htake
    · exact .refl
  · exact .refl

@[simp] theorem execFabricReqTimeout_keeps (a r seq : Nat) (s : State) : Result.Keeps χ s.kept (execFabricReqTimeout a r seq s) := by
  simp [execFabricReqTimeout]

@[simp] theorem execSyncTimer_keeps (p : Nat) (pdelay : Bool) (s : State) : Result.Keeps χ s.kept (execSyncTimer p pdelay s) := by
  simp [execSyncTimer]

@[simp] theorem execSync_keeps (offset : Int) (s : State) : Result.Keeps χ s.kept (execSync offset s) := by simp [execSync]

@[simp] theorem execPdelay_keeps (delay : Nat) (s : State) : Result.Keeps χ s.kept (execPdelay delay s) := by simp [execPdelay]

@[simp] theorem execAnnounce_keeps (synced : Bool) (s : State) : Result.Keeps χ s.kept (execAnnounce synced s) := by simp [execAnnounce]

@[simp] theorem execSyncMiss_keeps (s : State) : Result.Keeps χ s.kept (execSyncMiss s) := by simp [execSyncMiss]

@[simp] theorem State.keeps_stepTime (h : Keeps .time κ s.kept) (ns : Int) : Keeps .time κ (s.stepTime ns).kept :=
  h.trans ⟨fun _ => BitVec.and_self, fun _ => ⟨rfl, rfl⟩, fun hc => absurd rfl hc, fun _ _ => rfl, rfl, rfl, id⟩

@[simp] theorem execTsyStep_keeps (req : Req) (ns : Int) (s : State) : Result.Keeps .time s.kept (execTsyStep req ns s) := by simp [execTsyStep]

@[simp] theorem execTsyRate_keeps (req : Req) (rate : Int) (s : State) : Result.Keeps χ s.kept (execTsyRate req rate s) := by simp [execTsyRate]

/-! Functions of Machine/Boot.lean. -/

@[simp] theorem State.keeps_enterReset (h : Keeps .reset κ s.kept) (keepPcie : Bool) : Keeps .reset κ (s.enterReset keepPcie).kept := by
  unfold State.enterReset
  extract_lets r _ v w t stored strapped
  have ht : Keeps .reset κ t.kept := h.trans
    { set := fun _ => BitVec.and_self
      fuses := fun _ => ⟨rfl, rfl⟩
      time := fun _ hc => absurd rfl hc
      sessions := fun _ hc => absurd rfl hc
      pending := rfl
      uptime := rfl
      wf := fun ⟨_, hsram, hshadow, hsnapshot⟩ => ⟨rfl, hsram, hshadow, fun m hm => hsnapshot m (by
        have hm' : m ∈ (s.vault.run.map fun x => { x with waiters := [] }).map (·.snapshot) := hm
        rwa [Option.map_map] at hm')⟩ }
  have hstrapped : Keeps .reset κ strapped.kept := by simp [strapped, stored, ht]
  exact State.keeps_powerDown (by simp [hstrapped]) _

/-- The proof speaks of any post in the place of `secPost`: the kernel would evaluate that one on its literals. -/
@[simp] theorem State.keeps_railsStage (h : Keeps χ κ s.kept) : Keeps χ κ s.railsStage.kept := by
  have hpost (t : State) (b : Option (List Byte)) (m n : Nat) (ht : Keeps χ κ t.kept) : Keeps χ κ ((t.stageTable b).secPost m n).1.kept :=
    State.keeps_secPost (by rwa [State.kept_stageTable]) _ _
  obtain ⟨stage, hstage⟩ : ∃ f, f = @State.railsStage := ⟨_, rfl⟩
  rw [← hstage]
  delta State.railsStage at hstage
  subst hstage
  generalize @State.secPost = post at hpost ⊢
  revert post hpost
  refine id fun post hpost => ?_
  beta_reduce
  extract_lets staged
  have hfirst := hpost staged s.boot.board 2 s.badFormats (by simp [staged, h])
  split <;> rename_i heq <;> rw [heq] at hfirst
  · simpa using hfirst
  · extract_lets u
    have hsecond := hpost u none 2 s.badFormats (by simp [u, hfirst])
    split <;> rename_i heq <;> rw [heq] at hsecond <;> simp [hsecond]

@[simp] theorem State.keeps_afterHook (hs : Keeps χ κ s.kept) (h : Nat) : Keeps χ κ (s.afterHook h).kept := by simp [State.afterHook, hs]

@[simp] theorem State.keeps_callHook (hs : Keeps χ κ s.kept) (h : Nat) : Keeps χ κ (s.callHook h).kept := by simp [State.callHook, hs]

@[simp] theorem State.keeps_endHook (h : Keeps χ κ s.kept) (failure : Option HookCause) : Keeps χ κ (s.endHook failure).kept := by
  simp only [State.endHook]
  (repeat' split) <;> simp [h]

@[simp] theorem State.keeps_restoreVault (h : Keeps χ κ s.kept) (env : BootEnv) : Keeps χ κ (s.restoreVault env).kept := by
  unfold State.restoreVault
  extract_lets t sram _ u v w
  have ht : Keeps χ κ t.kept := by
    simp only [t]
    split <;> simp [h]
  have hu : Keeps χ κ u.kept := by
    have hk : u.kept = { t.kept with sram := sram } := rfl
    rw [hk]
    refine ht.trans (.of_memories rfl fun ⟨hmem, _, hshadow, hsnapshot⟩ => ⟨hmem, ?_, hshadow, hsnapshot⟩)
    have : ∀ (l : List Nat) (m : Tbl Byte), Memory.wf m = true → Memory.wf (l.foldl (fun m w => zeroBytes m (8 * (w % 0x200000)) 8) m) = true := by
      intro l
      induction l with
      | nil => exact fun _ hm => hm
      | cons x l ih => exact fun m hm => ih _ (Memory.wf_zero m _ _ hm)
    exact this _ _ hshadow
  simp only [w, v]
  split <;> simp [hu]

@[simp] theorem State.keeps_wiringCheck (h : Keeps χ κ s.kept) (f : FlashCheck) : Keeps χ κ (s.wiringCheck f).kept := by simp [State.wiringCheck, h]

@[simp] theorem State.keeps_readCopy (h : Keeps χ κ s.kept) (base : Nat) (flash : List Byte) : Keeps χ κ (s.readCopy base flash).1.kept := by
  simp [State.readCopy, h]

@[simp] theorem State.keeps_takeBoard (h : Keeps χ κ s.kept) (copy base : Nat) (l : List Byte) : Keeps χ κ (s.takeBoard copy base l).kept := by
  simp [State.takeBoard, h]

@[simp] theorem State.keeps_boardStage (h : Keeps χ κ s.kept) (env : BootEnv) : Keeps χ κ (s.boardStage env).kept := by
  simp only [State.boardStage]
  have hwired : Keeps χ κ ((s.setStage Stage.BOARD).wiringCheck env.flash).kept := by simp [h]
  generalize (s.setStage Stage.BOARD).wiringCheck env.flash = t at hwired ⊢
  have hread := State.keeps_readCopy hwired 0 env.primary
  generalize t.readCopy 0 env.primary = a at hread ⊢
  (repeat' split) <;> simp [hwired, hread]

@[simp] theorem State.keeps_secStart (h : Keeps χ κ s.kept) (env : BootEnv) : Keeps χ κ (s.secStart env).kept := by
  unfold State.secStart
  extract_lets staged boot started read
  have hread : Keeps χ κ read.kept := by simp [read, started, staged, boot, h]
  split
  · simp [hread]
  rename_i port mode loaded repaired torn _ _
  have htorn : Keeps χ κ torn.kept := by
    have hrepaired : Keeps χ κ repaired.kept := by simp [repaired, loaded, hread]
    exact State.keeps_ite (by simp [hrepaired]) hrepaired
  exact State.keeps_ite (by simp [htorn]) (by simp [htorn])

@[simp] theorem State.keeps_bootStart (h : Keeps χ κ s.kept) (env : BootEnv) (restore : Bool) : Keeps χ κ (s.bootStart env restore).kept := by
  simp [State.bootStart, h]

@[simp] theorem State.keeps_bootWaits (h : Keeps χ κ s.kept) : Keeps χ κ (s.bootWaits).kept := by
  unfold State.bootWaits
  split <;> simp [h]

@[simp] theorem execPerstNAssert_keeps (s : State) : Result.Keeps .reset s.kept (execPerstNAssert s) := by
  simp only [execPerstNAssert, Result.keeps_next]
  exact State.keeps_enterReset .refl false

@[simp] theorem execPerstNDeassert_keeps (env : BootEnv) (s : State) : Result.Keeps .time s.kept (execPerstNDeassert env s) := by
  have ht : Keeps .time s.kept (State.kept { s with timeFine := 0 }) :=
    ⟨fun _ => BitVec.and_self, fun _ => ⟨rfl, rfl⟩, fun hc => absurd rfl hc, fun _ _ => rfl, rfl, rfl, id⟩
  simp only [execPerstNDeassert, Result.keeps_next]
  split
  · exact State.keeps_bootStart ht _ _
  · exact .refl

@[simp] theorem execHaltFaultFrame_keeps (s : State) : Result.Keeps χ s.kept (execHaltFaultFrame s) := by simp [execHaltFaultFrame]

@[simp] theorem execHookReturn_keeps (code : Nat) (s : State) : Result.Keeps χ s.kept (execHookReturn code s) := by simp [execHookReturn]

@[simp] theorem execHookTimeout_keeps (s : State) : Result.Keeps χ s.kept (execHookTimeout s) := by simp [execHookTimeout]

@[simp] theorem State.keeps_railsOn (h : Keeps χ κ s.kept) : Keeps χ κ (s.railsOn).kept := by simp [State.railsOn, h]

@[simp] theorem execBootRailsOn_keeps (s : State) : Result.Keeps χ s.kept (execBootRailsOn s) := by simp [execBootRailsOn]

@[simp] theorem execBootRailsTimeout_keeps (s : State) : Result.Keeps χ s.kept (execBootRailsTimeout s) := by simp [execBootRailsTimeout]

@[simp] theorem State.keeps_marchDone (h : Keeps χ κ s.kept) (badTiles badA badB badEngines : Nat) (log : List Nat) :
    Keeps χ κ (s.marchDone badTiles badA badB badEngines log).kept := by
  unfold State.marchDone
  extract_lets tiles banks engines faulted zeroed logged
  have hfaulted : Keeps χ κ faulted.kept := by simp [faulted, banks, tiles, h]
  have hzeroed : Keeps χ κ zeroed.kept := Keeps.foldl (fun t x => by simp) hfaulted _
  simp [logged, hzeroed]

@[simp] theorem execMarchDone_keeps (badTiles badBanksA badBanksB badEngines : Nat) (log : List Nat) (s : State) :
    Result.Keeps χ s.kept (execMarchDone badTiles badBanksA badBanksB badEngines log s) := by simp [execMarchDone]

@[simp] theorem State.keeps_hbmTrained (h : Keeps χ κ s.kept) (failed : Nat) : Keeps χ κ (s.hbmTrained failed).kept := by
  unfold State.hbmTrained
  extract_lets trained zeroed
  have htrained : Keeps χ κ trained.kept := Keeps.foldl (fun t x => by (repeat' split) <;> simp) h _
  have hzeroed : Keeps χ κ zeroed.kept := Keeps.foldl (fun t x => by simp) htrained _
  simp [hzeroed]

@[simp] theorem execHbmTrainDone_keeps (failed : Nat) (s : State) : Result.Keeps χ s.kept (execHbmTrainDone failed s) := by simp [execHbmTrainDone]

@[simp] theorem State.keeps_resumed (h : Keeps χ κ s.kept) : Keeps χ κ (s.resumed).kept := by simp [State.resumed, h]

@[simp] theorem execPcieReady_keeps (s : State) : Result.Keeps χ s.kept (execPcieReady s) := by simp [execPcieReady]

/-! Functions of Machine/Rings.lean. -/

@[simp] theorem State.keeps_ringWrite (h : Keeps χ κ s.kept) (fn a r : Nat) {run : State → Nat → State}
    (hr : ∀ t u, Keeps χ t.kept (run t u).kept) : Keeps χ κ (s.ringWrite fn a r run).kept := by
  unfold State.ringWrite
  (repeat' split) <;> simp [h, h.trans (hr s _)]

@[simp] theorem execRingDoorbell_keeps (fn a r tail : Nat) (s : State) : Result.Keeps χ s.kept (execRingDoorbell fn a r tail s) := by
  simp [execRingDoorbell]

@[simp] theorem State.keeps_startRing (h : Keeps χ κ s.kept) (u : Nat) : Keeps χ κ (s.startRing u).kept := by simp [State.startRing, h]

@[simp] theorem execRingEnable_keeps (fn a r : Nat) (s : State) : Result.Keeps χ s.kept (execRingEnable fn a r s) := by simp [execRingEnable]

@[simp] theorem execRingDisable_keeps (fn a r : Nat) (s : State) : Result.Keeps χ s.kept (execRingDisable fn a r s) := by simp [execRingDisable]

@[simp] theorem execRingReset_keeps (fn a r : Nat) (s : State) : Result.Keeps χ s.kept (execRingReset fn a r s) := by simp [execRingReset]

@[simp] theorem State.keeps_abortOp (h : Keeps χ κ s.kept) (o : Op) : Keeps χ κ (s.abortOp o).1.kept := by
  simp only [State.abortOp]
  (repeat' split) <;> simp [h]

@[simp] theorem State.keeps_abortSeq (h : Keeps χ κ s.kept) (u seq : Nat) : Keeps χ κ (s.abortSeq u seq).1.kept := by
  unfold State.abortSeq
  split <;> simp [h]

@[simp] theorem State.keeps_abortOps (h : Keeps χ κ s.kept) (u : Nat) : Keeps χ κ (s.abortOps u).1.kept :=
  Keeps.foldl_fst (fun p o => by split <;> simp) h _

@[simp] theorem State.keeps_abortRing (h : Keeps χ κ s.kept) (u : Nat) : Keeps χ κ (s.abortRing u).kept := by simp [State.abortRing, h]

@[simp] theorem execAbortAll_keeps (fn a r : Nat) (s : State) : Result.Keeps χ s.kept (execAbortAll fn a r s) := by simp [execAbortAll]

@[simp] theorem execRingAbort_keeps (fn a r seq : Nat) (s : State) : Result.Keeps χ s.kept (execRingAbort fn a r seq s) := by simp [execRingAbort]

@[simp] theorem State.keeps_finishAborts (h : Keeps χ κ s.kept) (u : Nat) : Keeps χ κ (s.finishAborts u).kept :=
  Keeps.foldl (fun t o => by (repeat' split) <;> simp) h _

@[simp] theorem State.keeps_abortDone (h : Keeps χ κ s.kept) (u : Nat) : Keeps χ κ (s.abortDone u).kept := by simp [State.abortDone, h]

@[simp] theorem execAbortDone_keeps (a r : Nat) (s : State) : Result.Keeps χ s.kept (execAbortDone a r s) := by simp [execAbortDone]

@[simp] theorem execRingCplAck_keeps (fn a r count : Nat) (s : State) : Result.Keeps χ s.kept (execRingCplAck fn a r count s) := by
  simp [execRingCplAck]

@[simp] theorem execRingWatch_keeps (fn a r tally vector : Nat) (valid : Bool) (s : State) :
    Result.Keeps χ s.kept (execRingWatch fn a r tally vector valid s) := by simp [execRingWatch]

@[simp] theorem State.keeps_descriptorAdmit (h : Keeps χ κ s.kept) (u : Nat) (f : Fetch) (wr : DmaEnd) :
    Keeps χ κ (s.descriptorAdmit u f wr).kept := by
  simp only [State.descriptorAdmit]
  (repeat' split) <;> simp [h]

@[simp] theorem execDescriptorAdmit_keeps (a r : Nat) (f : Fetch) (wr : DmaEnd) (s : State) :
    Result.Keeps χ s.kept (execDescriptorAdmit a r f wr s) := by simp [execDescriptorAdmit]

@[simp] theorem execWaitTimeout_keeps (a r seq : Nat) (s : State) : Result.Keeps χ s.kept (execWaitTimeout a r seq s) := by
  unfold execWaitTimeout
  split <;> simp

@[simp] theorem State.keeps_lastSlice (h : Keeps χ κ s.kept) (o : Op) : Keeps χ κ (s.lastSlice o).kept := by
  simp only [State.lastSlice]
  (repeat' split) <;> simp [h]

@[simp] theorem State.keeps_opComplete (h : Keeps χ κ s.kept) (a r seq : Nat) (wr : DmaEnd) : Keeps χ κ (s.opComplete a r seq wr).kept := by
  simp only [State.opComplete]
  (repeat' split) <;> simp [h]

@[simp] theorem execOpComplete_keeps (a r seq : Nat) (s : State) : Result.Keeps χ s.kept (execOpComplete a r seq s) := by simp [execOpComplete]

@[simp] theorem execCplWriteFail_keeps (a r seq : Nat) (how : DmaEnd) (s : State) : Result.Keeps χ s.kept (execCplWriteFail a r seq how s) := by
  simp [execCplWriteFail]

@[simp] theorem execExceptionResolve_keeps (a r seq : Nat) (resume : Bool) (code : Nat) (s : State) :
    Result.Keeps χ s.kept (execExceptionResolve a r seq resume code s) := by
  unfold execExceptionResolve
  split <;> simp

@[simp] theorem execTallyWrite_keeps (fn idx size value : Nat) (s : State) : Result.Keeps χ s.kept (execTallyWrite fn idx size value s) := by
  simp [execTallyWrite]

/-! Functions of Machine/Firmware.lean. -/

@[simp] theorem execBootLoad_keeps (req : Req) (s : State) : Result.Keeps χ s.kept (execBootLoad req s) := by simp [execBootLoad]

@[simp] theorem State.keeps_stageImage (h : Keeps χ κ s.kept) (bytes : List Byte) : Keeps χ κ (s.stageImage bytes).kept := by
  simp [State.stageImage, h]

@[simp] theorem State.keeps_stagePart (h : Keeps χ κ s.kept) (bytes : List Byte) : Keeps χ κ (s.stagePart bytes).kept := by simp [State.stagePart, h]

@[simp] theorem State.keeps_checkHeaders (h : Keeps χ κ s.kept) : Keeps χ κ (s.checkHeaders).kept := by simp [State.checkHeaders, h]

@[simp] theorem State.keeps_startSvc (h : Keeps χ κ s.kept) : Keeps χ κ (s.startSvc).kept := by simp [State.startSvc, h]

@[simp] theorem State.keeps_startLoaded (h : Keeps χ κ s.kept) (img : List Byte) (n : Nat) : Keeps χ κ (s.startLoaded img n).kept := by
  simp [State.startLoaded, h]

@[simp] theorem State.keeps_fwLoaded (h : Keeps χ κ s.kept) (img : List Byte) : Keeps χ κ (s.fwLoaded img).kept := by
  unfold State.fwLoaded
  extract_lets t written _ booted tiles loaded
  have hwritten : Keeps χ κ written.kept := by simp [written, t, h]
  have hloaded : Keeps χ κ loaded.kept := by simp [loaded, tiles, booted, hwritten]
  simp [hloaded]

@[simp] theorem State.keeps_loadComplete (h : Keeps χ κ s.kept) (dma : DmaEnd) (img : List Byte) : Keeps χ κ (s.loadComplete dma img).kept := by
  unfold State.loadComplete
  split <;> simp [h]

@[simp] theorem execLoadComplete_keeps (dma : DmaEnd) (img : List Byte) (s : State) : Result.Keeps χ s.kept (execLoadComplete dma img s) := by
  simp [execLoadComplete]

@[simp] theorem State.keeps_startUnload (h : Keeps χ κ s.kept) : Keeps χ κ (s.startUnload).kept := by simp [State.startUnload, h]

@[simp] theorem execBootUnload_keeps (req : Req) (s : State) : Result.Keeps χ s.kept (execBootUnload req s) := by simp [execBootUnload]

@[simp] theorem State.keeps_settleAborts (h : Keeps χ κ s.kept) : Keeps χ κ (s.settleAborts).kept := by simp [State.settleAborts, h]

@[simp] theorem execUnloadComplete_keeps (s : State) : Result.Keeps χ s.kept (execUnloadComplete s) := by simp [execUnloadComplete]

/-! Functions of Machine/Accounts.lean. -/

@[simp] theorem State.keeps_bar2Read (h : Keeps χ κ s.kept) (a addr n : Nat) : Keeps χ κ (s.bar2Read a addr n).kept := by
  unfold State.bar2Read
  extract_lets ls
  split
  · exact Keeps.foldl (fun t l => by split <;> simp) h _
  rename_i t _
  have ht : Keeps χ κ t.kept := Keeps.foldl (fun t l => by dsimp only; (repeat' split) <;> simp) h _
  split <;> simp [ht]

@[simp] theorem execBar2Read_keeps (a off n : Nat) (s : State) : Result.Keeps χ s.kept (execBar2Read a off n s) := by simp [execBar2Read]

@[simp] theorem State.keeps_bar2Write (h : Keeps χ κ s.kept) (a addr : Nat) (bytes : List Byte) (be : List Bool) :
    Keeps χ κ (s.bar2Write a addr bytes be).kept := by simp [State.bar2Write, h]

@[simp] theorem execBar2Write_keeps (a off : Nat) (bytes : List Byte) (be : List Bool) (s : State) :
    Result.Keeps χ s.kept (execBar2Write a off bytes be s) := by simp [execBar2Write]

@[simp] theorem execAccountEnable_keeps (req : Req) (a : Nat) (on : Bool) (s : State) : Result.Keeps χ s.kept (execAccountEnable req a on s) := by
  simp [execAccountEnable]

@[simp] theorem State.keeps_startScrub (h : Keeps χ κ s.kept) (a : Nat) : Keeps χ κ (s.startScrub a).kept :=
  Keeps.foldl (fun t x => by simp) h _

@[simp] theorem State.keeps_drainedNow (h : Keeps χ κ s.kept) (a : Nat) : Keeps χ κ (s.drainedNow a).kept := by simp [State.drainedNow, h]

@[simp] theorem execDrained_keeps (a : Nat) (s : State) : Result.Keeps χ s.kept (execDrained a s) := by simp [execDrained]

@[simp] theorem execScrubDone_keeps (a : Nat) (s : State) : Result.Keeps χ s.kept (execScrubDone a s) := by simp [execScrubDone]

@[simp] theorem State.keeps_startFlrFill (h : Keeps χ κ s.kept) (a : Nat) : Keeps χ κ (s.startFlrFill a).kept := by
  simp only [State.startFlrFill, State.kept_update]
  exact Keeps.foldl (fun t x => by simp) h _

@[simp] theorem State.keeps_flrAccount (h : Keeps χ κ s.kept) (a : Nat) : Keeps χ κ (s.flrAccount a).kept := by
  unfold State.flrAccount
  split
  · exact h
  extract_lets f raised aborted
  have haborted : Keeps χ κ aborted.kept := Keeps.foldl (fun t x => by simp) (by simp [raised, h]) _
  split <;> simp [haborted]

@[simp] theorem State.keeps_flrDone (h : Keeps χ κ s.kept) (a : Nat) : Keeps χ κ (s.flrDone a).kept := by simp [State.flrDone, h]

@[simp] theorem execFlrDone_keeps (fn : Nat) (s : State) : Result.Keeps χ s.kept (execFlrDone fn s) := by simp [execFlrDone]

@[simp] theorem State.keeps_flrPf (h : Keeps χ κ s.kept) : Keeps χ κ (s.flrPf).kept := by simp [State.flrPf, h]

@[simp] theorem execFlr_keeps (fn : Nat) (s : State) : Result.Keeps χ s.kept (execFlr fn s) := by simp [execFlr]

@[simp] theorem execVfEnable_keeps (numVfs pfLog2 vfLog2 : Nat) (s : State) : Result.Keeps χ s.kept (execVfEnable numVfs pfLog2 vfLog2 s) := by
  simp [execVfEnable]

@[simp] theorem execVfDisable_keeps (numVfs : Nat) (enable : Bool) (s : State) : Result.Keeps χ s.kept (execVfDisable numVfs enable s) := by
  simp [execVfDisable]

@[simp] theorem execDeviceReset_keeps (req : Req) (value : Nat) (env : BootEnv) (s : State) :
    Result.Keeps .reset s.kept (execDeviceReset req value env s) := by
  simp only [execDeviceReset, Result.keeps_next]
  (repeat' split) <;> simp

@[simp] theorem execLinkReset_keeps (env : BootEnv) (s : State) : Result.Keeps .reset s.kept (execLinkReset env s) := by
  simp only [execLinkReset, Result.keeps_next]
  split <;> simp

@[simp] theorem execHbmZeroDone_keeps (wr : DmaEnd) (s : State) : Result.Keeps χ s.kept (execHbmZeroDone wr s) := by
  unfold execHbmZeroDone
  split <;> simp

@[simp] theorem execMsixUnmask_keeps (fn vector : Nat) (enable : Bool) (mask : MaskWrite) (s : State) :
    Result.Keeps χ s.kept (execMsixUnmask fn vector enable mask s) := by simp [execMsixUnmask]

@[simp] theorem execPcieLinkUp_keeps (speed width : Nat) (s : State) : Result.Keeps χ s.kept (execPcieLinkUp speed width s) := by
  simp [execPcieLinkUp]

/-! Functions of Machine/OtpReq.lean. -/

@[simp] theorem State.keeps_refuse (h : Keeps χ κ s.kept) (code : Nat) : Keeps χ κ (s.refuse code).st.kept := by simp [State.refuse, h]

@[simp] theorem State.keeps_refuseRow (h : Keeps χ κ s.kept) (row code : Nat) : Keeps χ κ (s.refuseRow row code).st.kept := by
  simp [State.refuseRow, h]

@[simp] theorem Programmed.keeps_served {r : Programmed} (h : Keeps χ κ r.st.kept) (row : Nat) : Keeps χ κ (r.served row).st.kept := by
  simp [Programmed.served, h]

@[simp] theorem State.keeps_otpProgramReq (h : Keeps .fuses κ s.kept) (p : List Byte) (burns : List Burn) :
    Keeps .fuses κ (s.otpProgramReq p burns).st.kept := by
  simp only [State.otpProgramReq]
  (repeat' split) <;> simp [h]

@[simp] theorem State.keeps_otpSealReq (h : Keeps .fuses κ s.kept) (p : List Byte) (burns : List Burn) :
    Keeps .fuses κ (s.otpSealReq p burns).st.kept := by
  simp only [State.otpSealReq]
  (repeat' split) <;> simp [h]

@[simp] theorem State.keeps_otpRevokeReq (h : Keeps .fuses κ s.kept) (p : List Byte) (burns : List Burn) :
    Keeps .fuses κ (s.otpRevokeReq p burns).st.kept := by
  simp only [State.otpRevokeReq]
  (repeat' split) <;> simp [h]

@[simp] theorem State.keeps_lcStart (h : Keeps χ κ s.kept) (target : Nat) (bmc : Bool) (burns : List Burn) :
    Keeps χ κ (s.lcStart target bmc burns).kept := by
  simp only [State.lcStart]
  (repeat' split) <;> simp [h]

@[simp] theorem State.keeps_lcBurn (h : Keeps .fuses κ s.kept) : Keeps .fuses κ (s.lcBurn).1.kept := by simp [State.lcBurn, h]

/-! Functions of Machine/Posting.lean. -/

@[simp] theorem execPost_keeps (req : Req) (slot mask token : Nat) (s : State) : Result.Keeps χ s.kept (execPost req slot mask token s) := by
  simp [execPost]

@[simp] theorem execCheckOnly_keeps (req : Req) (slot mask token : Nat) (s : State) :
    Result.Keeps χ s.kept (execCheckOnly req slot mask token s) := by simp [execCheckOnly]

@[simp] theorem execDiscard_keeps (req : Req) (slot mask token : Nat) (s : State) : Result.Keeps χ s.kept (execDiscard req slot mask token s) := by
  simp [execDiscard]

@[simp] theorem execCancel_keeps (req : Req) (slot mask token : Nat) (s : State) : Result.Keeps χ s.kept (execCancel req slot mask token s) := by
  simp [execCancel]

@[simp] theorem execPostCheckDone_keeps (slot : Nat) (s : State) : Result.Keeps χ s.kept (execPostCheckDone slot s) := by simp [execPostCheckDone]

@[simp] theorem execPostStrobe_keeps (slot : Nat) (s : State) : Result.Keeps χ s.kept (execPostStrobe slot s) := by simp [execPostStrobe]

@[simp] theorem State.keeps_applyEdge (h : Keeps χ κ s.kept) (n badFormat : Nat) : Keeps χ κ (s.applyEdge n badFormat).kept := by
  simp [State.applyEdge, h]

@[simp] theorem execPostApply_keeps (slot badFormat : Nat) (s : State) : Result.Keeps χ s.kept (execPostApply slot badFormat s) := by
  simp [execPostApply]

@[simp] theorem execPostRecheckDone_keeps (slot : Nat) (inTime : Bool) (s : State) : Result.Keeps χ s.kept (execPostRecheckDone slot inTime s) := by
  simp [execPostRecheckDone]

@[simp] theorem execDiscardDone_keeps (slot : Nat) (s : State) : Result.Keeps χ s.kept (execDiscardDone slot s) := by simp [execDiscardDone]

/-! Functions of Machine/Mailbox.lean. -/

@[simp] theorem execMbxDoorbell_keeps (a fn p seq : Nat) (s : State) : Result.Keeps χ s.kept (execMbxDoorbell a fn p seq s) := by
  simp [execMbxDoorbell]

@[simp] theorem State.keeps_request (h : Keeps χ κ s.kept) (a p typ : Nat) (f : Fetch) (wr : DmaEnd) {run : State → Jz → State}
    (hr : ∀ t x, Keeps χ t.kept (run t x).kept) : Keeps χ κ (s.request a p typ f wr run).kept := by
  unfold State.request
  (repeat' split) <;> try simp [h]
  exact Keeps.trans (by simp [h]) (hr _ _)

@[simp] theorem execMbxBadMessage_keeps (a p : Nat) (m : Fetch) (wr : DmaEnd) (s : State) :
    Result.Keeps χ s.kept (execMbxBadMessage a p m wr s) := by simp [execMbxBadMessage]

@[simp] theorem execHello_keeps (a p : Nat) (m : Fetch) (wr : DmaEnd) (s : State) : Result.Keeps χ s.kept (execHello a p m wr s) := by
  simp [execHello]

@[simp] theorem execAttach_keeps (a p : Nat) (m : Fetch) (wr : DmaEnd) (s : State) : Result.Keeps χ s.kept (execAttach a p m wr s) := by
  simp [execAttach]

@[simp] theorem execVpdRead_keeps (a p : Nat) (m : Fetch) (wr : DmaEnd) (s : State) : Result.Keeps χ s.kept (execVpdRead a p m wr s) := by
  simp [execVpdRead]

@[simp] theorem execManifestRead_keeps (a p : Nat) (m : Fetch) (wr : DmaEnd) (s : State) : Result.Keeps χ s.kept (execManifestRead a p m wr s) := by
  simp [execManifestRead]

@[simp] theorem State.keeps_traceCfg (h : Keeps χ κ s.kept) (a p : Nat) (m : Jz) (wr : DmaEnd) : Keeps χ κ (s.traceCfg a p m wr).kept := by
  simp [State.traceCfg, h]

@[simp] theorem execTraceCfg_keeps (a p : Nat) (m : Fetch) (wr : DmaEnd) (s : State) : Result.Keeps χ s.kept (execTraceCfg a p m wr s) := by
  simp [execTraceCfg]

@[simp] theorem State.keeps_dumpClear (h : Keeps χ κ s.kept) (a p : Nat) (m : Jz) (wr : DmaEnd) : Keeps χ κ (s.dumpClear a p m wr).kept := by
  simp only [State.dumpClear]
  split
  · simp [h]
  split
  · simp [h]
  · rw [State.kept_respond]
    exact Keeps.foldl (fun t d => by simp) h _

@[simp] theorem execDumpClear_keeps (a p : Nat) (m : Fetch) (wr : DmaEnd) (s : State) : Result.Keeps χ s.kept (execDumpClear a p m wr s) := by
  simp [execDumpClear]

@[simp] theorem execVaultRead_keeps (a p : Nat) (m : Fetch) (wr : DmaEnd) (s : State) : Result.Keeps χ s.kept (execVaultRead a p m wr s) := by
  simp [execVaultRead]

@[simp] theorem State.keeps_vaultWriteReq (h : Keeps χ κ s.kept) (a p : Nat) (m : Jz) (wr : DmaEnd) :
    Keeps χ κ (s.vaultWriteReq a p m wr).kept := by simp [State.vaultWriteReq, h]

@[simp] theorem execVaultWrite_keeps (a p : Nat) (m : Fetch) (wr : DmaEnd) (s : State) : Result.Keeps χ s.kept (execVaultWrite a p m wr s) := by
  simp [execVaultWrite]

@[simp] theorem State.keeps_fuseRequest (h : Keeps χ κ s.kept) (a p typ : Nat) (f : Fetch) (wr : DmaEnd) {run : State → Jz → State}
    (hr : ∀ t x, Keeps χ t.kept (run t x).kept) : Keeps χ κ (s.fuseRequest a p typ f wr run).kept := by
  unfold State.fuseRequest
  split <;> simp [h, hr]

@[simp] theorem Served.keeps_respond {r : Served} (h : Keeps χ κ r.st.kept) (a p : Nat) (m : Jz) (wr : DmaEnd) :
    Keeps χ κ (r.respond a p m wr).kept := by
  simp [Served.respond, h]

@[simp] theorem execOtpProgram_keeps (a p : Nat) (m : Fetch) (wr : DmaEnd) (burns : List Burn) (s : State) :
    Result.Keeps .fuses s.kept (execOtpProgram a p m wr burns s) :=
  Result.keeps_next.2 (State.keeps_fuseRequest .refl _ _ _ _ _ fun t x => by simp)

@[simp] theorem execOtpSeal_keeps (a p : Nat) (m : Fetch) (wr : DmaEnd) (burns : List Burn) (s : State) :
    Result.Keeps .fuses s.kept (execOtpSeal a p m wr burns s) :=
  Result.keeps_next.2 (State.keeps_fuseRequest .refl _ _ _ _ _ fun t x => by simp)

@[simp] theorem execOtpRevoke_keeps (a p : Nat) (m : Fetch) (wr : DmaEnd) (burns : List Burn) (s : State) :
    Result.Keeps .fuses s.kept (execOtpRevoke a p m wr burns s) :=
  Result.keeps_next.2 (State.keeps_fuseRequest .refl _ _ _ _ _ fun t x => by simp)

@[simp] theorem execLcTransition_keeps (a p : Nat) (m : Fetch) (wr : DmaEnd) (burns : List Burn) (s : State) :
    Result.Keeps χ s.kept (execLcTransition a p m wr burns s) := by simp [execLcTransition]

/-! Functions of Machine/Admin.lean. -/

@[simp] theorem execAcctRules_keeps (a p : Nat) (m : Fetch) (wr : DmaEnd) (s : State) : Result.Keeps χ s.kept (execAcctRules a p m wr s) := by
  simp [execAcctRules]

@[simp] theorem execHbmZero_keeps (a p : Nat) (m : Fetch) (wr : DmaEnd) (s : State) : Result.Keeps χ s.kept (execHbmZero a p m wr s) := by
  simp [execHbmZero]

@[simp] theorem State.keeps_fabRequest (h : Keeps χ κ s.kept) (a p typ : Nat) (f : Fetch) (wr : DmaEnd) {run : State → Jz → State}
    (hr : ∀ t x, Keeps χ t.kept (run t x).kept) : Keeps χ κ (s.fabRequest a p typ f wr run).kept := by
  unfold State.fabRequest
  split <;> simp [h, hr]

@[simp] theorem execFabricStatus_keeps (a p : Nat) (m : Fetch) (wr : DmaEnd) (s : State) : Result.Keeps χ s.kept (execFabricStatus a p m wr s) := by
  simp [execFabricStatus]

@[simp] theorem State.keeps_timeSet (h : Keeps .time κ s.kept) (a p : Nat) (m : Jz) (wr : DmaEnd) :
    Keeps .time κ (s.timeSet a p m wr).kept := by
  unfold State.timeSet
  iterate 3
    split
    · simp [h]
  have ht (x : Nat) : Keeps .time κ (State.kept { s with timeFine := x }) := h.trans
    ⟨fun _ => BitVec.and_self, fun _ => ⟨rfl, rfl⟩, fun hc => absurd rfl hc, fun _ _ => rfl, rfl, rfl, id⟩
  simp [ht]

@[simp] theorem execTimeSet_keeps (a p : Nat) (m : Fetch) (wr : DmaEnd) (s : State) : Result.Keeps .time s.kept (execTimeSet a p m wr s) := by
  simp [execTimeSet]

@[simp] theorem execGroupDefine_keeps (a p : Nat) (m : Fetch) (wr : DmaEnd) (s : State) : Result.Keeps χ s.kept (execGroupDefine a p m wr s) := by
  simp [execGroupDefine]

@[simp] theorem execGroupPromote_keeps (a p : Nat) (m : Fetch) (wr : DmaEnd) (s : State) : Result.Keeps χ s.kept (execGroupPromote a p m wr s) := by
  simp [execGroupPromote]

@[simp] theorem execGroupRelease_keeps (a p : Nat) (m : Fetch) (wr : DmaEnd) (s : State) : Result.Keeps χ s.kept (execGroupRelease a p m wr s) := by
  simp [execGroupRelease]

@[simp] theorem execGroupQuery_keeps (a p : Nat) (m : Fetch) (wr : DmaEnd) (s : State) : Result.Keeps χ s.kept (execGroupQuery a p m wr s) := by
  simp [execGroupQuery]

/-! Functions of Machine/Serial.lean. -/

@[simp] theorem execSpxTxdPush_keeps (port : Nat) (req : Req) (w : Word) (s : State) : Result.Keeps χ s.kept (execSpxTxdPush port req w s) := by
  simp [execSpxTxdPush]

@[simp] theorem execSpxRxdPop_keeps (port : Nat) (req : Req) (s : State) : Result.Keeps χ s.kept (execSpxRxdPop port req s) := by
  simp only [execSpxRxdPop]
  (repeat' split) <;> simp

@[simp] theorem execXferStart_keeps (port : Nat) (req : Req) (s : State) : Result.Keeps χ s.kept (execXferStart port req s) := by
  simp [execXferStart]

@[simp] theorem execXferFlush_keeps (port : Nat) (req : Req) (s : State) : Result.Keeps χ s.kept (execXferFlush port req s) := by
  simp [execXferFlush]

@[simp] theorem execSpxPortGrant_keeps (port : Nat) (s : State) : Result.Keeps χ s.kept (execSpxPortGrant port s) := by simp [execSpxPortGrant]

@[simp] theorem execXferDone_keeps (port : Nat) (rx : List Byte) (s : State) : Result.Keeps χ s.kept (execXferDone port rx s) := by
  simp [execXferDone]

@[simp] theorem execXipRead_keeps (req : Req) (addr n : Nat) (write : Bool) (s : State) :
    Result.Keeps χ s.kept (execXipRead req addr n write s) := by simp [execXipRead]

@[simp] theorem execXipFetchDone_keeps (bytes : List Byte) (s : State) : Result.Keeps χ s.kept (execXipFetchDone bytes s) := by
  simp [execXipFetchDone]

@[simp] theorem execSlaveSelect_keeps (sckHigh : Bool) (s : State) : Result.Keeps χ s.kept (execSlaveSelect sckHigh s) := by simp [execSlaveSelect]

@[simp] theorem execSlaveWord_keeps (got : SlaveBits) (s : State) : Result.Keeps χ s.kept (execSlaveWord got s) := by simp [execSlaveWord]

@[simp] theorem execSlaveDeselect_keeps (bits : Nat) (s : State) : Result.Keeps χ s.kept (execSlaveDeselect bits s) := by simp [execSlaveDeselect]

/-! Functions of Machine/Bmc.lean. -/

@[simp] theorem State.keeps_bmcServe (h : Keeps χ κ s.kept) (op : Nat) {run : State → Frame → State}
    (hr : ∀ t f, Keeps χ t.kept (run t f).kept) : Keeps χ κ (s.bmcServe op run).kept := by
  unfold State.bmcServe
  dsimp only
  (repeat' split) <;> try simp [h]
  exact Keeps.trans (by simp [h]) (hr _ _)

@[simp] theorem execBmcBadFrame_keeps (s : State) : Result.Keeps χ s.kept (execBmcBadFrame s) := by
  simp only [execBmcBadFrame]
  (repeat' split) <;> simp

@[simp] theorem execFrameTimeout_keeps (s : State) : Result.Keeps χ s.kept (execFrameTimeout s) := by simp [execFrameTimeout]

@[simp] theorem execStatus_keeps (s : State) : Result.Keeps χ s.kept (execStatus s) := by simp [execStatus]

@[simp] theorem execLogRead_keeps (s : State) : Result.Keeps χ s.kept (execLogRead s) := by simp [execLogRead]

@[simp] theorem execDumpRead_keeps (s : State) : Result.Keeps χ s.kept (execDumpRead s) := by simp [execDumpRead]

@[simp] theorem State.keeps_flashLearn (h : Keeps χ κ s.kept) (sel : Nat) (c : FlashCheck) : Keeps χ κ (s.flashLearn sel c).kept := by
  simp [State.flashLearn, h]

@[simp] theorem State.keeps_bmcFlash (h : Keeps χ κ s.kept) (op : Nat) (x : FlashCheck) {run : State → Frame → State}
    (hr : ∀ t f, Keeps χ t.kept (run t f).kept) : Keeps χ κ (s.bmcFlash op x run).kept := by
  unfold State.bmcFlash
  dsimp only
  split
  · exact h
  · refine State.keeps_bmcServe h _ fun t f => ?_
    split
    · simp
    · exact Keeps.trans (by simp) (hr _ _)

@[simp] theorem execFlashRead_keeps (data : List Word) (lines : FlashLines) (sfdp : List Byte) (s : State) :
    Result.Keeps χ s.kept (execFlashRead data lines sfdp s) := by simp [execFlashRead]

@[simp] theorem execFlashWrite_keeps (status : List Byte) (lines : FlashLines) (sfdp : List Byte) (s : State) :
    Result.Keeps χ s.kept (execFlashWrite status lines sfdp s) := by simp [execFlashWrite]

@[simp] theorem execFlashErase_keeps (polls : Nat) (last : Byte) (lines : FlashLines) (sfdp : List Byte) (s : State) :
    Result.Keeps χ s.kept (execFlashErase polls last lines sfdp s) :=
  Result.keeps_next.2 (State.keeps_bmcFlash .refl _ _ fun t f => by dsimp only; (repeat' split) <;> simp)

@[simp] theorem State.keeps_bmcFuse (h : Keeps χ κ s.kept) (op : Nat) {run : State → List Byte → Served}
    (hr : ∀ t p, Keeps χ t.kept (run t p).st.kept) : Keeps χ κ (s.bmcFuse op run).kept := by
  unfold State.bmcFuse
  split <;> simp [h, hr]

@[simp] theorem execBmcOtpProgram_keeps (burns : List Burn) (s : State) : Result.Keeps .fuses s.kept (execBmcOtpProgram burns s) := by
  simp [execBmcOtpProgram]

@[simp] theorem execBmcOtpSeal_keeps (burns : List Burn) (s : State) : Result.Keeps .fuses s.kept (execBmcOtpSeal burns s) := by
  simp [execBmcOtpSeal]

@[simp] theorem execBmcOtpRevoke_keeps (burns : List Burn) (s : State) : Result.Keeps .fuses s.kept (execBmcOtpRevoke burns s) := by
  simp [execBmcOtpRevoke]

@[simp] theorem execBmcLcTransition_keeps (burns : List Burn) (s : State) : Result.Keeps χ s.kept (execBmcLcTransition burns s) := by
  simp [execBmcLcTransition]

@[simp] theorem execTelemetry_keeps (s : State) : Result.Keeps χ s.kept (execTelemetry s) := by simp [execTelemetry]

@[simp] theorem execBmcVpdRead_keeps (s : State) : Result.Keeps χ s.kept (execBmcVpdRead s) := by simp [execBmcVpdRead]

@[simp] theorem execEcho_keeps (s : State) : Result.Keeps χ s.kept (execEcho s) := by simp [execEcho]

/-! Functions of Machine/Clerks.lean. -/

@[simp] theorem execFwpKick_keeps (n : Nat) (req : Req) (s : State) : Result.Keeps χ s.kept (execFwpKick n req s) := by simp [execFwpKick]

@[simp] theorem execWatchdogExpiry_keeps (n : Nat) (s : State) : Result.Keeps χ s.kept (execWatchdogExpiry n s) := by simp [execWatchdogExpiry]

@[simp] theorem execProtectionFault_keeps (n addr kind : Nat) (hook : Bool) (s : State) :
    Result.Keeps χ s.kept (execProtectionFault n addr kind hook s) := by simp [execProtectionFault]

@[simp] theorem execDoubleFault_keeps (n : Nat) (s : State) : Result.Keeps χ s.kept (execDoubleFault n s) := by simp [execDoubleFault]

@[simp] theorem execDumpDone_keeps (n : Nat) (s : State) : Result.Keeps χ s.kept (execDumpDone n s) := by
  unfold execDumpDone
  split <;> simp

@[simp] theorem State.keeps_restartClerk (h : Keeps χ κ s.kept) (n : Nat) : Keeps χ κ (s.restartClerk n).kept := by simp [State.restartClerk, h]

@[simp] theorem execClerkRestartDone_keeps (n : Nat) (s : State) : Result.Keeps χ s.kept (execClerkRestartDone n s) := by simp [execClerkRestartDone]

@[simp] theorem execPortSend_keeps (n : Nat) (port : PortUse) (msg : List Byte) (s : State) :
    Result.Keeps χ s.kept (execPortSend n port msg s) := by
  simp only [execPortSend]
  (repeat' split) <;> simp

@[simp] theorem execLogAppend_keeps (n comp level code arg0 arg1 arg2 : Nat) (s : State) :
    Result.Keeps χ s.kept (execLogAppend n comp level code arg0 arg1 arg2 s) := by simp [execLogAppend]

@[simp] theorem execLogPortWrite_keeps (s : State) : Result.Keeps χ s.kept (execLogPortWrite s) := by
  unfold execLogPortWrite
  split <;> simp

@[simp] theorem execTracePoint_keeps (id src arg16 arg32 : Nat) (accepted : Bool) (s : State) :
    Result.Keeps χ s.kept (execTracePoint id src arg16 arg32 accepted s) := by simp [execTracePoint]

/-! Functions of Machine/Clock.lean. -/

@[simp] theorem execClkHostDiv_keeps (req : Req) (div : Nat) (s : State) : Result.Keeps χ s.kept (execClkHostDiv req div s) := by
  simp [execClkHostDiv]

@[simp] theorem execClkPwrDiv_keeps (req : Req) (div : Nat) (s : State) : Result.Keeps χ s.kept (execClkPwrDiv req div s) := by simp [execClkPwrDiv]

@[simp] theorem execCclkChangeDone_keeps (s : State) : Result.Keeps χ s.kept (execCclkChangeDone s) := by
  unfold execCclkChangeDone
  split <;> simp

@[simp] theorem State.keeps_clockLost (h : Keeps χ κ s.kept) (pllLost : Bool) : Keeps χ κ (s.clockLost pllLost).kept := by simp [State.clockLost, h]

@[simp] theorem execClockGlitch_keeps (found : ClockFault) (s : State) : Result.Keeps χ s.kept (execClockGlitch found s) := by simp [execClockGlitch]

@[simp] theorem execDlkFlitCrcFail_keeps (half replays : Nat) (s : State) : Result.Keeps χ s.kept (execDlkFlitCrcFail half replays s) := by
  simp [execDlkFlitCrcFail]

@[simp] theorem State.keeps_dlkResume (h : Keeps χ κ s.kept) : Keeps χ κ (s.dlkResume).kept := by simp [State.dlkResume, h]

@[simp] theorem execDlkRetrainDone_keeps (ok : Bool) (s : State) : Result.Keeps χ s.kept (execDlkRetrainDone ok s) := by
  have hfailed (t : State) (which : FabMsg → Bool) (ht : Keeps χ s.kept t.kept) : Keeps χ s.kept (t.failRuns.failQueued which).kept := by simp [ht]
  simp only [execDlkRetrainDone, Result.keeps_next]
  (repeat' split) <;> simp [hfailed]

/-! Functions of Machine/Rails.lean. -/

@[simp] theorem execSupPowerUp_keeps (req : Req) (s : State) : Result.Keeps χ s.kept (execSupPowerUp req s) := by simp [execSupPowerUp]

@[simp] theorem execSupPowerDown_keeps (req : Req) (s : State) : Result.Keeps χ s.kept (execSupPowerDown req s) := by simp [execSupPowerDown]

@[simp] theorem execSupGroupOn_keeps (req : Req) (groups : Nat) (s : State) : Result.Keeps χ s.kept (execSupGroupOn req groups s) := by
  simp [execSupGroupOn]

@[simp] theorem execSupGroupOff_keeps (req : Req) (groups : Nat) (s : State) : Result.Keeps χ s.kept (execSupGroupOff req groups s) := by
  simp [execSupGroupOff]

@[simp] theorem State.keeps_senseFault (h : Keeps χ κ s.kept) (n cause event : Nat) : Keeps χ κ (s.senseFault n cause event).kept := by
  simp [State.senseFault, h]

@[simp] theorem execSenseCheckDone_keeps (ch : Nat) (mv : Int) (s : State) : Result.Keeps χ s.kept (execSenseCheckDone ch mv s) := by
  simp [execSenseCheckDone]

@[simp] theorem execRailSample_keeps (samples : List Nat) (pg : Nat) (s : State) : Result.Keeps χ s.kept (execRailSample samples pg s) := by
  simp [execRailSample]

@[simp] theorem execRailStartDelayDone_keeps (ch : Nat) (s : State) : Result.Keeps χ s.kept (execRailStartDelayDone ch s) := by
  simp [execRailStartDelayDone]

@[simp] theorem execSsTimeout_keeps (ch : Nat) (s : State) : Result.Keeps χ s.kept (execSsTimeout ch s) := by
  simp only [execSsTimeout]
  (repeat' split) <;> simp

@[simp] theorem execRailStopDelayDone_keeps (ch : Nat) (s : State) : Result.Keeps χ s.kept (execRailStopDelayDone ch s) := by
  simp [execRailStopDelayDone]

@[simp] theorem execDischargeTimeout_keeps (ch : Nat) (s : State) : Result.Keeps χ s.kept (execDischargeTimeout ch s) := by
  simp [execDischargeTimeout]

@[simp] theorem execRailBackoffDone_keeps (ch : Nat) (s : State) : Result.Keeps χ s.kept (execRailBackoffDone ch s) := by simp [execRailBackoffDone]

@[simp] theorem execRetryCounterReset_keeps (ch : Nat) (s : State) : Result.Keeps χ s.kept (execRetryCounterReset ch s) := by
  simp [execRetryCounterReset]

@[simp] theorem execThermtrip_keeps (s : State) : Result.Keeps χ s.kept (execThermtrip s) := by simp [execThermtrip]

@[simp] theorem execHoldReversed_keeps (s : State) : Result.Keeps χ s.kept (execHoldReversed s) := by simp [execHoldReversed]

@[simp] theorem execPmbPoll_keeps (res : List PmbResult) (s : State) : Result.Keeps χ s.kept (execPmbPoll res s) := by simp [execPmbPoll]

@[simp] theorem execPmbAlert_keeps (res : List PmbResult) (s : State) : Result.Keeps χ s.kept (execPmbAlert res s) := by simp [execPmbAlert]

@[simp] theorem execRailSetWrite_keeps (req : Req) (ch mv : Nat) (s : State) : Result.Keeps χ s.kept (execRailSetWrite req ch mv s) := by
  simp [execRailSetWrite]

/-! Functions of Machine/RegOps.lean. -/

@[simp] theorem State.keeps_arrives (h : Keeps χ κ s.kept) (q : Req) (off : Nat) {run : State → State}
    (hr : ∀ t, Keeps χ t.kept (run t).kept) : Keeps χ κ (s.arrives q off run).kept := by
  unfold State.arrives
  (repeat' split) <;> simp [h, h.trans (hr s)]

@[simp] theorem State.keeps_enableOff (h : Keeps χ κ s.kept) (pg : Nat) : Keeps χ κ (s.enableOff pg).kept := by
  unfold State.enableOff
  split <;> simp [h]

@[simp] theorem State.keeps_softReset (h : Keeps χ κ s.kept) (pg : Nat) : Keeps χ κ (s.softReset pg).kept := by simp [State.softReset, h]

@[simp] theorem State.keeps_ctlWrite (h : Keeps χ κ s.kept) (k : PageKind) (pg w : Nat) : Keeps χ κ (s.ctlWrite k pg w).kept := by
  simp [State.ctlWrite, h]

@[simp] theorem State.keeps_liveOffset (h : Keeps χ κ s.kept) (q : Req) (x : PageKind) (inst off n v : Nat) :
    Keeps χ κ (s.liveOffset q x inst off n v).kept := by
  unfold State.liveOffset
  extract_lets pg
  split
  · split <;> simp [h]
  extract_lets d w
  refine State.keeps_ite (by simp [h]) ?_
  iterate 2 refine State.keeps_ite (by split <;> simp [h]) ?_
  refine State.keeps_ite (by simp [h]) ?_
  refine State.keeps_ite (by split <;> simp [h]) ?_
  iterate 3 refine State.keeps_ite (by simp [h]) ?_
  simp [h]

@[simp] theorem State.keeps_partWrite (h : Keeps χ κ s.kept) (q : Req) (off n v : Nat) : Keeps χ κ (s.partWrite q off n v).kept := by
  unfold State.partWrite
  split <;> simp [h]

@[simp] theorem State.keeps_wordWrite (h : Keeps χ κ s.kept) (q : Req) (off size v : Nat) (low high : Bool) :
    Keeps χ κ (s.wordWrite q off size v low high).kept := by simp [State.wordWrite, h]

@[simp] theorem State.keeps_pageWrite (h : Keeps χ κ s.kept) (q : Req) (off size be v : Nat) : Keeps χ κ (s.pageWrite q off size be v).kept := by
  refine State.keeps_arrives h _ _ fun s => ?_
  extract_lets aligned t low high
  have ht : Keeps χ s.kept t.kept := by
    simp only [t]
    split <;> simp
  (repeat' split) <;> simp [ht]

@[simp] theorem execRegisterWrite_keeps (req : Req) (off size be value : Nat) (s : State) :
    Result.Keeps χ s.kept (execRegisterWrite req off size be value s) := by simp [execRegisterWrite]

@[simp] theorem execStagedWrite_keeps (req : Req) (off size value : Nat) (s : State) :
    Result.Keeps χ s.kept (execStagedWrite req off size value s) := by simp [execStagedWrite]

@[simp] theorem execCfWrite_keeps (req : Req) (off size value : Nat) (s : State) : Result.Keeps χ s.kept (execCfWrite req off size value s) := by
  simp [execCfWrite]

@[simp] theorem execAbsentPageWrite_keeps (req : Req) (off : Nat) (s : State) : Result.Keeps χ s.kept (execAbsentPageWrite req off s) := by
  unfold execAbsentPageWrite
  split <;> simp

@[simp] theorem execSplitReadLatch_keeps (fn off : Nat) (s : State) : Result.Keeps χ s.kept (execSplitReadLatch fn off s) := by
  simp only [execSplitReadLatch]
  (repeat' split) <;> simp

@[simp] theorem State.keeps_evtWrite (h : Keeps χ κ s.kept) (q : Req) (pg : Nat) {run : State → State}
    (hr : ∀ t, Keeps χ t.kept (run t).kept) : Keeps χ κ (s.evtWrite q pg run).kept := by
  unfold State.evtWrite
  split
  · exact h
  · refine State.keeps_arrives h _ _ fun t => ?_
    (repeat' split) <;> simp [hr]

@[simp] theorem execEvtRawClear_keeps (req : Req) (page value : Nat) (s : State) : Result.Keeps χ s.kept (execEvtRawClear req page value s) := by
  simp [execEvtRawClear]

@[simp] theorem execEvtEnWrite_keeps (req : Req) (page value : Nat) (s : State) : Result.Keeps χ s.kept (execEvtEnWrite req page value s) := by
  simp [execEvtEnWrite]

@[simp] theorem execEvtForce_keeps (req : Req) (page value : Nat) (s : State) : Result.Keeps χ s.kept (execEvtForce req page value s) := by
  simp [execEvtForce]

@[simp] theorem execSoftReset_keeps (req : Req) (page : Nat) (s : State) : Result.Keeps χ s.kept (execSoftReset req page s) := by
  unfold execSoftReset
  split <;> simp

@[simp] theorem State.keeps_resetUnit (h : Keeps χ κ s.kept) (k : PageKind) (inst : Nat) : Keeps χ κ (s.resetUnit k inst).kept := by
  unfold State.resetUnit
  split <;> simp [h]

@[simp] theorem execSoftResetDone_keeps (page : Nat) (s : State) : Result.Keeps χ s.kept (execSoftResetDone page s) := by
  unfold execSoftResetDone
  split <;> simp

@[simp] theorem execOtpReadRow_keeps (req : Req) (row : Nat) (s : State) : Result.Keeps χ s.kept (execOtpReadRow req row s) := by
  simp [execOtpReadRow]

/-! Functions of Machine/Thermal.lean. -/

@[simp] theorem State.keeps_throttleEntry (h : Keeps χ κ s.kept) : Keeps χ κ (s.throttleEntry).kept := by simp [State.throttleEntry, h]

@[simp] theorem State.keeps_refreshThermal (h : Keeps χ κ s.kept) : Keeps χ κ (s.refreshThermal).kept := by simp [State.refreshThermal, h]

@[simp] theorem State.keeps_refreshTrip (h : Keeps χ κ s.kept) : Keeps χ κ s.refreshTrip.kept := by
  have htrip (t : State) (ht : Keeps χ κ t.kept) : Keeps χ κ (t.throttleEntry.thermTrip).kept := by simp [ht]
  simp only [State.refreshTrip]
  (repeat' split) <;> simp [h, htrip]

@[simp] theorem State.keeps_thmSample (h : Keeps χ κ s.kept) (temps : List Int) : Keeps χ κ (s.thmSample temps).kept := by
  unfold State.thmSample
  extract_lets sampled shown
  have hshown : Keeps χ κ shown.kept := by
    simp only [shown, sampled]
    split <;> simp [h]
  simp [hshown]

@[simp] theorem execThmSample_keeps (temps : List Int) (s : State) : Result.Keeps χ s.kept (execThmSample temps s) := by simp [execThmSample]

@[simp] theorem execThermalClampRelease_keeps (s : State) : Result.Keeps χ s.kept (execThermalClampRelease s) := by simp [execThermalClampRelease]

@[simp] theorem State.keeps_hbmReadout (h : Keeps χ κ s.kept) (k : Nat) (reading : Option Int) : Keeps χ κ (s.hbmReadout k reading).kept := by
  unfold State.hbmReadout
  split <;> simp [h]

@[simp] theorem execHbmTempReadout_keeps (stack : Nat) (reading : Option Int) (s : State) :
    Result.Keeps χ s.kept (execHbmTempReadout stack reading s) := by simp [execHbmTempReadout]

@[simp] theorem execIccEstimate_keeps (ampsA ampsB : Nat) (s : State) : Result.Keeps χ s.kept (execIccEstimate ampsA ampsB s) := by
  simp [execIccEstimate]

@[simp] theorem execAlertN_keeps (low : Bool) (s : State) : Result.Keeps χ s.kept (execAlertN low s) := by simp [execAlertN]

@[simp] theorem execCurrentClampRelease_keeps (s : State) : Result.Keeps χ s.kept (execCurrentClampRelease s) := by simp [execCurrentClampRelease]

@[simp] theorem execPwrCycle_keeps (late staleOver100ms : Bool) (s : State) : Result.Keeps χ s.kept (execPwrCycle late staleOver100ms s) := by
  simp [execPwrCycle]

@[simp] theorem execHbmCapWrite_keeps (req : Req) (stack cap : Nat) (s : State) : Result.Keeps χ s.kept (execHbmCapWrite req stack cap s) := by
  simp [execHbmCapWrite]

/-! Functions of Machine/Vault.lean. -/

@[simp] theorem State.keeps_supplyHistory (h : Keeps χ κ s.kept) (kind : Nat) : Keeps χ κ (s.supplyHistory kind).kept := by
  simp [State.supplyHistory, h]

@[simp] theorem execVltCmdStore_keeps (req : Req) (s : State) : Result.Keeps χ s.kept (execVltCmdStore req s) := by simp [execVltCmdStore]

@[simp] theorem State.keeps_storeWaiter (h : Keeps .fuses κ s.kept) (w : StoreWaiter) : Keeps .fuses κ (s.storeWaiter w).kept := by
  unfold State.storeWaiter
  split <;> simp [h]

@[simp] theorem State.keeps_startPending (h : Keeps χ κ s.kept) : Keeps χ κ (s.startPending).kept := by
  unfold State.startPending
  split <;> simp [h]

@[simp] theorem State.keeps_storeDone (h : Keeps .fuses κ s.kept) (durationUs : Nat) : Keeps .fuses κ (s.storeDone durationUs).kept := by
  unfold State.storeDone
  split
  · exact h
  · exact State.keeps_startPending (Keeps.foldl (fun t w => by simp) (by simp [h]) _)

@[simp] theorem execStoreDone_keeps (durationUs : Nat) (s : State) : Result.Keeps .fuses s.kept (execStoreDone durationUs s) := by
  simp [execStoreDone]

@[simp] theorem execSafeIntervalStore_keeps (s : State) : Result.Keeps χ s.kept (execSafeIntervalStore s) := by simp [execSafeIntervalStore]

@[simp] theorem State.keeps_warnEntry (h : Keeps χ κ s.kept) : Keeps χ κ (s.warnEntry).kept := by simp [State.warnEntry, h]

@[simp] theorem State.keeps_warn (h : Keeps χ κ s.kept) : Keeps χ κ (s.warn).kept := by simp [State.warn, h]

@[simp] theorem execVwarnFall_keeps (v : Nat) (s : State) : Result.Keeps χ s.kept (execVwarnFall v s) := by simp [execVwarnFall]

@[simp] theorem execVwarnRise_keeps (v : Nat) (s : State) : Result.Keeps χ s.kept (execVwarnRise v s) := by simp [execVwarnRise]

@[simp] theorem State.keeps_loseCompute (h : Keeps χ κ s.kept) : Keeps χ κ (s.loseCompute).kept := by simp [State.loseCompute, h]

@[simp] theorem State.keeps_cutCompute (h : Keeps χ κ s.kept) : Keeps χ κ s.cutCompute.kept := by
  unfold State.cutCompute
  split
  · exact h
  extract_lets vault resumed cut
  have hcut : Keeps χ κ cut.kept := by simp [cut, resumed, vault, h]
  simp [hcut]

@[simp] theorem State.keeps_autoCross (h : Keeps χ κ s.kept) : Keeps χ κ s.autoCross.kept := by
  unfold State.autoCross
  split
  · split <;> simp [h]
  extract_lets vault t held
  have ht : Keeps χ κ t.kept := by simp [t, vault, h]
  split <;> simp [ht, held]

@[simp] theorem State.keeps_belowStore (h : Keeps χ κ s.kept) : Keeps χ κ s.belowStore.kept := by
  simp only [State.belowStore]
  exact State.keeps_autoCross (State.keeps_cutCompute (State.keeps_warn (by simp [h])))

@[simp] theorem execVstoreFall_keeps (v : Nat) (s : State) : Result.Keeps χ s.kept (execVstoreFall v s) := by simp [execVstoreFall]

@[simp] theorem execVstoreRise_keeps (v : Nat) (s : State) : Result.Keeps χ s.kept (execVstoreRise v s) := by
  have hv : Keeps χ s.kept (s.vmain v).kept := by simp
  simp only [execVstoreRise, Result.keeps_next]
  generalize s.vmain v = t at hv
  (repeat' split) <;> simp [hv]

@[simp] theorem State.keeps_resume (h : Keeps χ κ s.kept) : Keeps χ κ (s.resume).kept := by simp [State.resume, h]

@[simp] theorem State.keeps_resumeNow (h : Keeps χ κ s.kept) : Keeps χ κ (s.resumeNow).kept := by simp [State.resumeNow, h]

@[simp] theorem execComputeResume_keeps (s : State) : Result.Keeps χ s.kept (execComputeResume s) := by simp [execComputeResume]

@[simp] theorem execVltCmdResume_keeps (req : Req) (s : State) : Result.Keeps χ s.kept (execVltCmdResume req s) := by simp [execVltCmdResume]

@[simp] theorem State.keeps_lose (h : Keeps .reset κ s.kept) : Keeps .reset κ s.lose.kept := by
  unfold State.lose
  extract_lets lost t _ v u
  have hlost : Keeps .reset κ lost.kept := by simp [lost, h]
  have ht : Keeps .reset κ t.kept := State.keeps_enterReset hlost false
  have hu : u.kept = { t.kept with sram := lost.kept.sram, shadow := lost.kept.shadow, snapshot := lost.kept.snapshot } := by
    simp only [u, v, State.kept, Option.map_map]
    rfl
  rw [State.kept_toHold, State.kept_wrb, hu]
  exact ht.with_vault hlost

@[simp] theorem execVresetFall_keeps (v : Nat) (s : State) : Result.Keeps .reset s.kept (execVresetFall v s) := by
  have hv : Keeps .reset s.kept (s.vmain v).kept := by simp
  simp only [execVresetFall, Result.keeps_next]
  generalize s.vmain v = t at hv
  (repeat' split) <;> simp [hv]

@[simp] theorem execVresetRise_keeps (v : Nat) (s : State) : Result.Keeps χ s.kept (execVresetRise v s) := by
  have hv : Keeps χ s.kept (s.vmain v).kept := by simp
  simp only [execVresetRise, Result.keeps_next]
  generalize s.vmain v = t at hv
  (repeat' split) <;> simp [hv]

@[simp] theorem execLostRestart_keeps (env : BootEnv) (s : State) : Result.Keeps .reset s.kept (execLostRestart env s) := by
  have ht (t : State) (h : Keeps .reset s.kept t.kept) : Keeps .reset s.kept (State.kept { t with timeFine := 0 }) := h.trans
    ⟨fun _ => BitVec.and_self, fun _ => ⟨rfl, rfl⟩, fun _ hc => absurd rfl hc, fun _ _ => rfl, rfl, rfl, id⟩
  simp only [execLostRestart, Result.keeps_next]
  split
  · exact State.keeps_bootStart (ht _ (State.keeps_enterReset .refl false)) _ _
  · exact .refl

/-- The shadow that a store cut short leaves is in canonical form. -/
theorem Memory.wf_tornShadow (free : Nat) (old new : Tbl Byte) (h : Memory.wf old = true) : Memory.wf (tornShadow free old new) = true := by
  simp only [tornShadow]
  generalize ((old.map (·.1) ++ new.map (·.1)).eraseDups).zipIdx = l
  induction l generalizing old with
  | nil => exact h
  | cons x l ih =>
    refine ih _ ?_
    dsimp only
    split
    · exact h
    · exact Memory.wf_set _ _ _ h

@[simp] theorem execHoldDomainOff_keeps (s : State) : Result.Keeps χ s.kept (execHoldDomainOff s) := by
  unfold execHoldDomainOff
  rw [Result.keeps_next]
  refine State.keeps_ite .refl ?_
  extract_lets v n shadow _ t u
  have ht : Keeps χ s.kept t.kept := by
    refine .of_memories rfl fun ⟨hmem, _, hshadow, _⟩ => ⟨hmem, rfl, ?_, fun m hm => nomatch hm⟩
    show Memory.wf shadow = true
    simp only [shadow]
    split
    · exact Memory.wf_tornShadow _ _ _ hshadow
    · exact hshadow
  simp [u, ht]

@[simp] theorem execVltCmdHealthTest_keeps (req : Req) (s : State) : Result.Keeps χ s.kept (execVltCmdHealthTest req s) := by
  simp [execVltCmdHealthTest]

@[simp] theorem execVholdFull_keeps (s : State) : Result.Keeps χ s.kept (execVholdFull s) := by
  simp only [execVholdFull]
  (repeat' split) <;> simp

@[simp] theorem execHealthTestDone_keeps (capUf esrMohm : Nat) (s : State) : Result.Keeps χ s.kept (execHealthTestDone capUf esrMohm s) := by
  simp [execHealthTestDone]

@[simp] theorem execHealthRetest_keeps (s : State) : Result.Keeps χ s.kept (execHealthRetest s) := by simp [execHealthRetest]

@[simp] theorem State.keeps_armedInCut (h : Keeps χ κ s.kept) : Keeps χ κ (s.armedInCut).kept := by simp [State.armedInCut, h]

@[simp] theorem execVholdArm_keeps (s : State) : Result.Keeps χ s.kept (execVholdArm s) := by simp [execVholdArm]

@[simp] theorem execVholdLow_keeps (s : State) : Result.Keeps χ s.kept (execVholdLow s) := by
  have hlow : Keeps χ s.kept ((s.wr Reg.SUP_HOLD_STA.VHOLD 1399).recharge).kept := by simp
  simp only [execVholdLow, Result.keeps_next]
  generalize (s.wr Reg.SUP_HOLD_STA.VHOLD 1399).recharge = t at hlow
  split <;> simp [hlow]

@[simp] theorem State.keeps_capLost (h : Keeps χ κ s.kept) : Keeps χ κ (s.capLost).kept := by simp [State.capLost, h]

@[simp] theorem execCapLost_keeps (s : State) : Result.Keeps χ s.kept (execCapLost s) := by simp [execCapLost]

@[simp] theorem execCapCheckSink_keeps (dropMv : Nat) (s : State) : Result.Keeps χ s.kept (execCapCheckSink dropMv s) := by simp [execCapCheckSink]

@[simp] theorem execChargerResume_keeps (s : State) : Result.Keeps χ s.kept (execChargerResume s) := by simp [execChargerResume]

end Sys2Proof.Machine
end
section
/-!
SUPPORT. Every command of the queue, and the three statements that rest on it: who changes fuses, global time and SESSIONs, that no fuse bit
is ever cleared, and that the memories stay in canonical form.
-/
namespace Sys2Proof.Machine

/-- What a command may change of the kept parts. -/
def changeOf (c : Instr) : Change :=
  if c.programs then .fuses
  else if c.resets then .reset
  else if c.setsTime then .time
  else match c with
    | .fabricData .. => .sessions
    | _ => .none

theorem changeOf_ne_fuses {c : Instr} (h : c.programs = false) : changeOf c ≠ .fuses := by
  simp only [changeOf, h]
  (repeat' split) <;> simp_all

theorem changeOf_ne_reset {c : Instr} (h : c.resets = false) : changeOf c ≠ .reset := by
  simp only [changeOf, h]
  (repeat' split) <;> simp_all

theorem changeOf_ne_time {c : Instr} (h : c.setsTime = false) : changeOf c ≠ .time := by
  simp only [changeOf, h]
  (repeat' split) <;> simp_all

theorem changeOf_ne_sessions {c : Instr} (h : ∀ p k, c ≠ .fabricData p k) : changeOf c ≠ .sessions := by
  simp only [changeOf]
  (repeat' split) <;> simp_all

/-- A command that resets sets global time. -/
theorem resets_eq_false_of_setsTime {c : Instr} (h : c.setsTime = false) : c.resets = false := by
  unfold Instr.setsTime at h
  split at h
  iterate 3 cases h
  exact h

/-- A command leaves what its kind of change does not name, sets fuse bits alone, and keeps the form of the memories. -/
theorem exec_keeps (c : Instr) (s : State) : Result.Keeps (changeOf c) s.kept (exec c s) := by
  cases c <;> simp [exec, changeOf, Instr.programs, Instr.resets, Instr.setsTime]

/-- Counting busy cycles and time leaves the fuses and the memories. -/
theorem State.kept_tick (s : State) : s.tick.kept = { s.kept with timeFine := s.tick.timeFine, uptime := s.uptime + 1 } := by
  have hupdate (t : State) (x y : Nat) : State.kept { t with timeFine := x, uptime := y } = { t.kept with timeFine := x, uptime := y } := rfl
  simp only [State.tick]
  split
  · exact (hupdate s.countBusy _ _).trans (by rw [State.kept_countBusy])
  · exact (hupdate s.countBusy _ _).trans (by rw [State.kept_countBusy])

/-- A step sets fuse bits alone and keeps the form of the memories. -/
theorem step_keeps {s t : State} (h : step s = .next t) :
    (∀ p, tblGet 0 s.fuses p &&& tblGet 0 t.fuses p = tblGet 0 s.fuses p) ∧ (s.kept.wf → t.kept.wf) := by
  unfold step at h
  split at h
  · cases h
    have hk := s.kept_tick
    exact ⟨fun p => by rw [show s.tick.fuses = s.fuses from congrArg Kept.fuses hk, BitVec.and_self], fun hwf => by rw [hk]; exact hwf⟩
  · next c rest _ =>
    have hkeeps := exec_keeps c { s with pending := rest } t h
    exact ⟨hkeeps.set, hkeeps.wf⟩

/-- Settles O17: no command's meaning but those named reaches a writer of the parts (`exec_keeps`). -/
theorem specialWriters : Obligations.SpecialWriters := by
  unfold Obligations.SpecialWriters
  intro c s t h
  have hkeeps := exec_keeps c s t h
  exact ⟨fun hp => hkeeps.fuses (changeOf_ne_fuses hp),
    fun ht => hkeeps.time (changeOf_ne_time ht) (changeOf_ne_reset (resets_eq_false_of_setsTime ht)),
    fun hr hpacket => hkeeps.sessions (changeOf_ne_sessions hpacket) (changeOf_ne_reset hr), hkeeps.pending, hkeeps.uptime⟩

/-- Settles O18: a burn sets bits (`State.keeps_burn`), and every other function of the model leaves the array (`step_keeps`). -/
theorem fusesOnlySet : Obligations.FusesOnlySet := by
  unfold Obligations.FusesOnlySet
  exact fun s t h => (step_keeps h).1

/-- Settles O19: each writer of a memory keeps its form (`State.keeps_store`, `State.keeps_vaultWrite` and the others), so each step does
(`step_keeps`). -/
theorem memoriesStayCanonical : Obligations.MemoriesStayCanonical := by
  unfold Obligations.MemoriesStayCanonical
  intro s t hwf h
  exact t.memoryWf_iff.2 ((step_keeps h).2 (s.memoryWf_iff.1 hwf))

end Sys2Proof.Machine
end

section
/-!
SUPPORT. Isolation of register pages (R69, R70, R308): the pages a write by a virtual function reaches, and what each function that carries out
such a write changes.
-/
namespace Sys2Proof.Machine

/-- A change of registers of the pages in `P` alone. -/
def ChangesPages (P : Nat → Prop) (s t : State) : Prop := OnlyRegisters s t ∧ ∀ k, ¬P (k / 0x1000) → t.cell k = s.cell k

/-! What leaves the registers of other pages. -/

section Rules
variable {P : Nat → Prop} {s t : State} (h : ChangesPages P s t)

theorem ChangesPages.refl (P : Nat → Prop) (s : State) : ChangesPages P s s := ⟨onlyRegisters_refl s, fun _ _ => rfl⟩

theorem ChangesPages.trans {u : State} (hst : ChangesPages P s t) (htu : ChangesPages P t u) : ChangesPages P s u := by
  obtain ⟨⟨hfuses, hmem, hline, hword, hvault, hops, htallies, hpending⟩, hcells⟩ := hst
  obtain ⟨⟨hfuses', hmem', hline', hword', hvault', hops', htallies', hpending'⟩, hcells'⟩ := htu
  exact ⟨⟨hfuses'.trans hfuses, hmem'.trans hmem, hline'.trans hline, hword'.trans hword, hvault'.trans hvault, hops'.trans hops,
    htallies'.trans htallies, hpending'.trans hpending⟩, fun k hk => (hcells' k hk).trans (hcells k hk)⟩

theorem ChangesPages.ite {c : Prop} [Decidable c] {u : State} (hpos : c → ChangesPages P s t) (hneg : ¬c → ChangesPages P s u) :
    ChangesPages P s (if c then t else u) := by
  split
  · exact hpos ‹_›
  · exact hneg ‹_›

include h

theorem ChangesPages.setCell {key : Nat} (v : DWord) (hkey : P (key / 0x1000)) : ChangesPages P s (t.setCell key v) := by
  refine ⟨h.1, fun k hk => ?_⟩
  rw [State.cell_setCell_ne t v (by rintro rfl; exact hk hkey), h.2 k hk]

theorem ChangesPages.wr {f : Fld} (v : Nat) (hf : P (f.key / 0x1000)) : ChangesPages P s (t.wr f v) := h.setCell _ hf

theorem ChangesPages.wrb {f : Fld} (b : Bool) (hf : P (f.key / 0x1000)) : ChangesPages P s (t.wrb f b) := h.wr _ hf

theorem ChangesPages.setStaged (key : Nat) (v : DWord) : ChangesPages P s (t.setStaged key v) := h

theorem ChangesPages.emit (o : Out) : ChangesPages P s (t.emit o) := h

theorem ChangesPages.unsupported (fn off : Nat) : ChangesPages P s (t.unsupported fn off) := .ite (fun _ => h.emit _) fun _ => h

theorem ChangesPages.raise {pg : Nat} (i : Nat) (hpg : P pg) : ChangesPages P s (t.raise pg i) := by
  refine ⟨(onlyRegisters_raise s t pg i).mpr h.1, fun k hk => ?_⟩
  have hne : k ≠ 0x1000 * pg + 0x10 := by
    rintro rfl
    exact hk (by rwa [show (0x1000 * pg + 0x10) / 0x1000 = pg by omega])
  rw [State.cell_raise t pg i hne, h.2 k hk]

theorem ChangesPages.lastStatus {pg : Nat} (code : Nat) (hpg : P pg) : ChangesPages P s (t.lastStatus pg code) := by
  refine h.wr _ ?_
  rwa [show (Reg.LAST_STATUS.CODE pg).key / 0x1000 = pg by simp only [Reg.LAST_STATUS.CODE]; omega]

theorem ChangesPages.lastCode {u : Nat} (code : Nat) (hu : P (0x3000 + u)) : ChangesPages P s (t.lastCode u code) := by
  refine h.wr _ ?_
  rwa [show (Reg.RING_STA.LAST_CODE u).key / 0x1000 = 0x3000 + u by simp only [Reg.RING_STA.LAST_CODE]; omega]

theorem ChangesPages.fireWatch {u : Nat} (hu : P (0x3000 + u)) : ChangesPages P s (t.fireWatch u) := by
  have hkey : P ((Reg.RING_WATCH.VALID u).key / 0x1000) := by
    rwa [show (Reg.RING_WATCH.VALID u).key / 0x1000 = 0x3000 + u by simp only [Reg.RING_WATCH.VALID]; omega]
  refine ⟨(onlyRegisters_fireWatch s t u).mpr h.1, fun k hk => ?_⟩
  unfold State.fireWatch
  split
  · rw [State.cell_raiseVec]
    exact (h.wrb false hkey).2 k hk
  · exact h.2 k hk

theorem ChangesPages.stageDirty {pg : Nat} (v : Nat) (hpg : P pg) : ChangesPages P s (t.wr (Reg.STAGE_DIRTY.CLUSTER pg) v) := by
  refine h.wr _ ?_
  rwa [show (Reg.STAGE_DIRTY.CLUSTER pg).key / 0x1000 = pg by simp only [Reg.STAGE_DIRTY.CLUSTER]; omega]

theorem ChangesPages.stageFld {f : Fld} (v : Nat) (hf : P (f.key / 0x1000)) : ChangesPages P s (t.stageFld f v) := (h.setStaged _ _).stageDirty _ hf

end Rules

/-! The parts of a write to a mailbox page or a ring page. -/

/-- A register lies on the page its offsets lie on. -/
theorem page_of_regRowAt {off key : Nat} {r : RegRow} (hrow : regRowAt off = some (r, key)) : key / 0x1000 = off / 0x1000 := by
  have hfind : ∀ {l : List RegRow} {o y : Nat} {x : RegRow}, findRow l o = some (x, y) → y ≤ o := by
    intro l
    induction l with
    | nil => intro o y x h; cases h
    | cons z l ih =>
      intro o y x h
      rw [findRow] at h
      split at h
      · cases h; exact Nat.sub_le _ _
      · exact ih h
  unfold regRowAt at hrow
  split at hrow
  · cases hrow
  · split at hrow
    · cases hrow
    · split at hrow
      · cases hrow
      · rename_i hfound
        obtain ⟨-, rfl⟩ := Prod.mk.inj (Option.some.inj hrow)
        have hle := hfind hfound
        omega

/-- The pages of the registers a virtual function writes itself: a mailbox page, or ring page `i`. -/
def OwnKind (pg : Nat) (k : PageKind) (i : Nat) : Prop := k = .mbx ∨ k = .ring ∧ pg = 0x3000 + i

section Parts
variable {P : Nat → Prop} {s : State} {k : PageKind} {i : Nat}

theorem State.ringWrite_changes (fn a r : Nat) (hring : P (0x3000 + ringIx a r)) {run : State → Nat → State}
    (hrun : ChangesPages P s (run s (ringIx a r))) : ChangesPages P s (s.ringWrite fn a r run) :=
  .ite (fun _ => (ChangesPages.refl P s).unsupported _ _) fun _ => .ite (fun _ => .refl P s) fun _ =>
    .ite (fun _ => (ChangesPages.refl P s).lastCode _ hring) fun _ => hrun

theorem State.ringRegWrite_changes (q : Req) {u key : Nat} (v : DWord) (hu : P (0x3000 + u)) (hkey : P (key / 0x1000)) :
    ChangesPages P s (s.ringRegWrite q u key v) := by
  have hs := ChangesPages.refl P s
  have hcode (c : Nat) := hs.lastCode c hu
  have hset (x : DWord) := hs.setCell x hkey
  cases q with
  | fn a =>
    refine .ite (fun _ => hs) fun _ => .ite (fun _ => hcode _) fun _ => ?_
    refine .ite (fun _ => .ite (fun _ => hset _) fun _ => hcode _) fun _ => .ite (fun _ => hset _) fun _ => ?_
    exact .ite (fun _ => .ite (fun _ => hcode _) fun _ => hset _) fun _ => .ite (fun _ => (hset _).fireWatch hu) fun _ => hs
  | _ => exact hs

/-- A mailbox page has no unit to stop: its CTL takes the bits alone. -/
theorem State.ctlWrite_mbx_changes {pg : Nat} (w : Nat) (hk : pageKind pg = some (.mbx, i)) (hpg : P pg) :
    ChangesPages P s (s.ctlWrite .mbx pg w) := by
  have hs := ChangesPages.refl P s
  have hctl (lo width : Nat) : P ((⟨0x1000 * pg + 0x8, lo, width⟩ : Fld).key / 0x1000) := by
    show P ((0x1000 * pg + 0x8) / 0x1000)
    rwa [show (0x1000 * pg + 0x8) / 0x1000 = pg by omega]
  have hreset : ChangesPages P s (s.softReset pg) := by
    simp only [State.softReset, State.enableOff, hk]
    exact (hs.wrb true (hctl 1 1)).wrb false (hctl 0 1)
  have hunit : ChangesPages P s (s.wr (Reg.CTL.UNIT pg) (bits w 4 4)) := hs.wr _ (hctl 4 4)
  have henable : ChangesPages P s ((s.wr (Reg.CTL.UNIT pg) (bits w 4 4)).wr (Reg.CTL.ENABLE pg) (bits w 0 1)) := hunit.wr _ (hctl 0 1)
  unfold State.ctlWrite
  exact .ite (fun _ => hs) fun _ => .ite (fun _ => hreset) fun _ => .ite (fun _ => hunit) fun _ => henable

theorem State.liveWrite_changes (q : Req) {key : Nat} (v : DWord) (hown : OwnKind (key / 0x1000) k i) (hkey : P (key / 0x1000)) :
    ChangesPages P s (s.liveWrite q k i key v) := by
  have hs := ChangesPages.refl P s
  have hset (x : DWord) := hs.setCell x hkey
  unfold State.liveWrite
  obtain rfl | ⟨rfl, hpg⟩ := hown
  · rw [if_neg (by decide)]
    refine .ite (fun _ => ?_) fun _ => .ite (fun _ => ?_) fun _ => ?_
    · exact .ite (fun _ => hs.raise _ hkey) fun _ => .ite (fun _ => hset v) fun _ => hs
    · exact .ite (fun _ => hs) fun _ => .ite (fun _ => hs) fun _ => hset _
    · exact .ite (fun _ => .ite (fun _ => hs) fun _ => hset _) fun _ => .ite (fun _ => hset _) fun _ => hset _
  · rw [if_pos rfl]
    exact State.ringRegWrite_changes q v (hpg ▸ hkey) hkey

theorem State.liveOffset_changes (q : Req) {off : Nat} (n v : Nat) (hk : pageKind (off / 0x1000) = some (k, i)) (hown : OwnKind (off / 0x1000) k i)
    (hoff : P (off / 0x1000)) : ChangesPages P s (s.liveOffset q k i off n v) := by
  have hs := ChangesPages.refl P s
  have hring (hr : k = .ring) : P (0x3000 + i) := by
    obtain rfl | ⟨-, hpg⟩ := hown
    · cases hr
    · exact hpg ▸ hoff
  have hringIx (hr : k = .ring) : P (0x3000 + ringIx (i / 32) (i % 32)) := by
    rw [ringIx, Nat.div_add_mod]
    exact hring hr
  unfold State.liveOffset
  split
  · exact .ite (fun hc => hs.lastCode _ (hring hc.1)) fun _ => hs
  · next r key hrow =>
    have hpage := page_of_regRowAt hrow
    have hformat (hr : k = .ring) (fn : Nat) :
        ChangesPages P s (s.ringWrite fn (i / 32) (i % 32) fun t u => t.lastCode u Code.FORMAT) :=
      State.ringWrite_changes _ _ _ (hringIx hr) (hs.lastCode _ (hringIx hr))
    refine .ite (fun _ => hs.raise _ hoff) fun _ => .ite (fun _ => .ite (fun _ => hs) fun _ => hs.raise _ hoff) fun _ => ?_
    refine .ite (fun hc => .ite (fun _ => hs) fun _ => hformat hc.1 _) fun _ => .ite (fun hc => hformat hc.1 _) fun _ => ?_
    refine .ite (fun hc => .ite (fun _ => ?_) fun _ => hs) fun _ => .ite (fun _ => hs) fun _ => ?_
    · obtain rfl | ⟨rfl, -⟩ := hown
      · exact State.ctlWrite_mbx_changes _ hk hoff
      · exact absurd rfl hc.1
    · refine .ite (fun _ => hs.setCell _ (hpage ▸ hoff)) fun _ => .ite (fun _ => hs) fun _ => ?_
      exact State.liveWrite_changes q _ (hpage ▸ hown) (hpage ▸ hoff)

theorem State.stagedOffset_changes (q : Req) (k : PageKind) (i n v : Nat) {off : Nat} (hoff : P (off / 0x1000)) :
    ChangesPages P s (s.stagedOffset q k i off n v) := by
  have hs := ChangesPages.refl P s
  unfold State.stagedOffset
  split
  · exact hs
  · next r key hrow =>
    have hkey : P ((⟨key, 0, 64⟩ : Fld).key / 0x1000) := by
      show P (key / 0x1000)
      rwa [page_of_regRowAt hrow]
    refine .ite (fun _ => hs) fun _ => .ite (fun _ => (hs.raise _ hoff).lastStatus _ hoff) fun _ => .ite (fun _ => hs.raise _ hoff) fun _ => ?_
    exact .ite (fun _ => .ite (fun _ => hs.stageFld _ hkey) fun _ => hs.raise _ hoff) fun _ => (hs.stageFld _ hkey).stageDirty _ hoff

theorem State.partWrite_changes (q : Req) {off : Nat} (n v : Nat) (hk : pageKind (off / 0x1000) = some (k, i))
    (hown : OwnKind (off / 0x1000) k i) (hoff : P (off / 0x1000)) : ChangesPages P s (s.partWrite q off n v) := by
  simp only [State.partWrite, hk]
  refine .ite (fun hc => ?_) fun _ => State.liveOffset_changes q n v hk hown hoff
  exact State.stagedOffset_changes q k i n v (by rwa [show (off - 0x800) / 0x1000 = off / 0x1000 by omega])

/-- A write by words stays on the page, a second word being on the page of the first. -/
theorem State.wordWrite_changes (q : Req) {off size : Nat} (v : Nat) (low high : Bool) (hk : pageKind (off / 0x1000) = some (k, i))
    (hown : OwnKind (off / 0x1000) k i) (hoff : P (off / 0x1000)) (hsecond : size ≠ 4 → high → (off + 4) / 0x1000 = off / 0x1000) :
    ChangesPages P s (s.wordWrite q off size v low high) := by
  have hs := ChangesPages.refl P s
  have hpart (n : Nat) : ChangesPages P s (s.partWrite q off n v) := State.partWrite_changes q n v hk hown hoff
  have hlow : ChangesPages P s (if low then s.partWrite q off 4 v else s) := .ite (fun _ => hpart 4) fun _ => hs
  unfold State.wordWrite
  refine .ite (fun _ => hlow) fun h4 => .ite (fun _ => hpart 8) fun _ => .ite (fun hhigh => hlow.trans ?_) fun _ => hlow
  have hpage := hsecond h4 hhigh
  exact State.partWrite_changes q 4 _ (hpage ▸ hk) (hpage ▸ hown) (hpage ▸ hoff)

end Parts

/-! Tallies. -/

/-- The watches of a tally move registers of ring pages at offset 0x60 alone (R439). -/
theorem State.cell_setTally (s : State) (i v : Nat) {k : Nat} (hk : k % 0x1000 ≠ 0x60) : (s.setTally i v).cell k = s.cell k := by
  unfold State.setTally
  refine List.foldlRecOn (motive := fun t => State.cell t k = s.cell k) _ _ rfl fun t ht u _ => ?_
  have hne : k ≠ (Reg.RING_WATCH.VALID u).key := by
    simp only [Reg.RING_WATCH.VALID]
    omega
  unfold State.fireWatch
  split
  · rw [State.cell_raiseVec, State.wrb, State.cell_wr_ne _ _ _ hne, ht]
  · exact ht

theorem State.ownsTally_raise_glb (s : State) (i a j : Nat) : (s.raise 0 i).ownsTally a j = s.ownsTally a j := by
  have hfirst : (Reg.ACT_TALLY.FIRST a).key ≠ 0x1000 * 0 + 0x10 := by simp only [Reg.ACT_TALLY.FIRST]; omega
  have hunits : (Reg.ACT_TALLY.UNITS a).key ≠ 0x1000 * 0 + 0x10 := by simp only [Reg.ACT_TALLY.UNITS]; omega
  simp only [State.ownsTally, State.rd_raise s 0 i _ hfirst, State.rd_raise s 0 i _ hunits]

/-- A virtual function's write in its tally window is answered in registers, or changes a tally of its range (R70). -/
theorem State.tallyWrite_cases {P : Nat → Prop} {s : State} {a : Nat} (idx size v : Nat) (ha : 0 < a) (hglb : P 0) (hact : P (0x40 + a)) :
    ChangesPages P s (s.tallyWrite a idx size v) ∨ s.ownsTally a idx ∧ ∃ x, s.tallyWrite a idx size v = s.setTally idx x := by
  have hs := ChangesPages.refl P s
  unfold State.tallyWrite
  split
  · exact .inl ((hs.raise 1 hglb).lastStatus _ hact)
  · next howns =>
    split
    · exact .inl (hs.raise 1 hglb)
    · split
      · exact .inl (hs.raise 2 hglb)
      · refine .inr ⟨?_, _, rfl⟩
        simp only [not_and, Bool.not_eq_true', Bool.not_eq_false] at howns
        exact howns (Nat.pos_iff_ne_zero.mp ha)

/-! A write by a virtual function. -/

/-- The pages whose registers a write by virtual function `a` may change: page GLB for its events, its mailbox, its account, and its rings. -/
def VfPages (a p : Nat) : Prop := p = 0 ∨ p = 0x20 + a ∨ p = 0x40 + a ∨ 0x3000 + 32 * a ≤ p ∧ p < 0x3020 + 32 * a

theorem pageKind_mbx {a : Nat} (ha : a < 32) : pageKind (0x20 + a) = some (.mbx, a) := by
  have hall : ∀ m, m < 32 → pageKind (0x20 + m) = some (.mbx, m) := by decide
  exact hall a ha

theorem pageKind_ring {u : Nat} (hu : u < 1024) : pageKind (0x3000 + u) = some (.ring, u) := by
  unfold pageKind
  iterate 13 rw [if_neg (by omega)]
  rw [if_pos (by omega), Nat.add_sub_cancel_left]

theorem hitOf_vf {a : Nat} (ha : 0 < a) (off : Nat) : hitOf (.fn a) off = vfHit a off := by
  cases a with
  | zero => omega
  | succ a => rfl

/-- A virtual function reaches its mailbox page and its ring pages. -/
theorem page_of_vfHit {a off o : Nat} (ha : a < 32) (hhit : vfHit a off = .page o) :
    (∃ k i, pageKind (o / 0x1000) = some (k, i) ∧ OwnKind (o / 0x1000) k i) ∧ VfPages a (o / 0x1000) ∧ o % 0x1000 = off % 0x1000 := by
  unfold vfHit at hhit
  split at hhit
  · cases hhit
    have hpage : (0x20000 + 0x1000 * a + off) / 0x1000 = 0x20 + a := by omega
    rw [hpage]
    exact ⟨⟨.mbx, a, pageKind_mbx ha, .inl rfl⟩, .inr (.inl rfl), by omega⟩
  · split at hhit
    · cases hhit
    · split at hhit
      · obtain rfl := Hit.page.inj hhit
        have hpage : (0x3000000 + 0x20000 * a + (off - 0x10000)) / 0x1000 = 0x3000 + (32 * a + (off - 0x10000) / 0x1000) := by omega
        rw [hpage]
        exact ⟨⟨.ring, _, pageKind_ring (by omega), .inr ⟨rfl, rfl⟩⟩, .inr (.inr (.inr (by omega))), by omega⟩
      · split at hhit <;> cases hhit

theorem State.pageAbsent_own {s : State} {pg i : Nat} {k : PageKind}
    (hk : pageKind pg = some (k, i)) (hown : OwnKind pg k i) : s.pageAbsent pg = false := by
  obtain rfl | ⟨rfl, -⟩ := hown <;> simp only [State.pageAbsent, hk]

/-- What a write by virtual function `a` may end in: registers of its own pages changed, or a tally of its range changed. -/
def VfWritten (a off : Nat) (s u : State) : Prop :=
  ChangesPages (VfPages a) s u ∨
    hitOf (.fn a) off = .tally ∧ ∃ t idx x, ChangesPages (VfPages a) s t ∧ s.ownsTally a idx ∧ u = t.setTally idx x

theorem State.arrives_fn (s : State) (a off : Nat) (run : State → State) :
    s.arrives (.fn a) off run = s.unsupported a off ∨ s.arrives (.fn a) off run = run s := by
  unfold State.arrives
  split
  · exact .inl rfl
  · exact .inr (if_neg (by simp))

theorem State.pageWrite_vf {s : State} {a : Nat} (off size be v : Nat) (ha : 0 < a) (ha32 : a < 32) :
    VfWritten a off s (s.pageWrite (.fn a) off size be v) := by
  have hs := ChangesPages.refl (VfPages a) s
  have hglb : VfPages a 0 := .inl rfl
  have hact : VfPages a (0x40 + a) := .inr (.inr (.inl rfl))
  unfold State.pageWrite
  generalize hrun : State.arrives s (.fn a) off _ = u
  obtain harrives | harrives := hrun ▸ s.arrives_fn a off _
  · exact harrives ▸ .inl (hs.unsupported _ _)
  rw [harrives]
  extract_lets aligned t low high
  have ht : ChangesPages (VfPages a) s t := .ite (fun _ => hs.raise 2 hglb) fun _ => hs
  have howns (j : Nat) : t.ownsTally a j = s.ownsTally a j := by
    simp only [t]
    split
    · exact s.ownsTally_raise_glb 2 a j
    · rfl
  split
  · exact .inl (ht.raise 1 hglb)
  · next hhit =>
    dsimp only
    split
    · obtain hchange | ⟨hown, x, heq⟩ := t.tallyWrite_cases (s.tallyIx a off) (if aligned ∧ low ∧ high then size else 4) v ha hglb hact
      · exact .inl (ht.trans hchange)
      · exact .inr ⟨hhit, t, _, x, ht, howns _ ▸ hown, heq⟩
    · exact .inl ht
  · exact .inl (ht.raise 24 hact)
  · next o hhit =>
    rw [hitOf_vf ha] at hhit
    unfold vfHit at hhit
    iterate 4 (split at hhit; · cases hhit)
    cases hhit
  · next o hhit =>
    rw [hitOf_vf ha] at hhit
    obtain ⟨⟨k, i, hk, hown⟩, hpage, hoff⟩ := page_of_vfHit ha32 hhit
    rw [State.pageAbsent_own hk hown, if_neg (by decide)]
    refine .inl (.ite (fun _ => ht.trans (State.wordWrite_changes _ _ _ _ hk hown hpage fun h4 hhigh => ?_)) fun _ => ht)
    have haligned : aligned = true := (Bool.and_eq_true_iff.mp hhigh).1
    simp only [aligned, Bool.or_eq_true, Bool.and_eq_true, decide_eq_true_eq] at haligned
    omega

/-- Another account's pages are none of those a virtual function's write may change. -/
theorem not_vfPages {a b p : Nat} (hb : b < 32) (ha : a < 32) (hne : a ≠ b)
    (hp : p = 0x20 + b ∨ p = 0x40 + b ∨ 0x3000 + 32 * b ≤ p ∧ p < 0x3020 + 32 * b) : ¬VfPages a p := by
  unfold VfPages
  omega

/-- Settles O16: a virtual function's write moves registers of its own pages, or one tally of its range and the watches on it. -/
theorem vfIsolation : Obligations.VfIsolation := by
  unfold Obligations.VfIsolation
  intro s t a b off size be v k ha ha32 hb hab hexec hk
  have hother := not_vfPages hb ha32 hab hk
  obtain rfl : s.pageWrite (.fn a) off size be v = t := Host.Outcome.next.inj hexec
  obtain ⟨⟨hfuses, hmem, -, -, hvault, -, htallies, -⟩, hcells⟩ | ⟨hhit, t, idx, x, hchange, howns, heq⟩ :=
    s.pageWrite_vf off size be v ha ha32
  · exact ⟨fun _ => hcells k hother, fun j _ => congrArg (fun l => (tblGet 0 l j).toNat) htallies, fun _ => htallies, hfuses, hmem, hvault⟩
  · obtain ⟨⟨hfuses, hmem, -, -, hvault, -, htallies, -⟩, hcells⟩ := hchange
    obtain ⟨hfuses', hmem', -, -, hvault', -, -, -⟩ := onlyRegisters_setTally t idx x
    rw [heq]
    refine ⟨fun hor => ?_, fun j hj => ?_, fun hne => absurd hhit hne, hfuses'.trans hfuses, hmem'.trans hmem, hvault'.trans hvault⟩
    · rw [State.cell_setTally t idx x (hor.resolve_left fun hne => hne hhit), hcells k hother]
    · have hne : j ≠ idx := by
        rintro rfl
        rw [howns] at hj
        cases hj
      rw [State.tally_setTally, if_neg hne]
      exact congrArg (fun l => (tblGet 0 l j).toNat) htallies

end Sys2Proof.Machine
end
